-- ==== Sys2Proof/Word.lean ====
section
/-! DEFINITION. Word.lean: the widths of the Svettus 9400 and their plainest arithmetic (00 R7, 03 R68). -/

namespace Sys2Proof

/-- A byte of memory. -/
abbrev Byte := BitVec 8
/-- One lane of a vector register (02 R46). -/
abbrev Lane32 := BitVec 32
/-- A scalar register, an address, a program counter (02 R46, 01 R25). -/
abbrev Word := BitVec 64
/-- A buffer record (02 R56). -/
abbrev Rec256 := BitVec 256

/-- Bits `lo + len - 1 : lo` of a natural number. -/
def bitsOf (w lo len : Nat) : Nat := w / 2 ^ lo % 2 ^ len

/-- Bit `i` of a natural number. -/
def bitAt (w i : Nat) : Bool := w / 2 ^ i % 2 == 1

/-- A two's-complement reading of the low `w` bits of `n`. -/
def asSigned (w n : Nat) : Int :=
  let m := n % 2 ^ w
  if 2 ^ (w - 1) ≤ m then (m : Int) - (2 ^ w : Nat) else (m : Int)

/-- The low `w` bits of an exact integer, as a natural number (03 R69, wrapping). -/
def wrapTo (w : Nat) (x : Int) : Nat := (x % (2 ^ w : Nat)).toNat

/-- Clamp an exact integer to a range (03 R69, `.sat`). -/
def clampTo (lo hi x : Int) : Int := if x < lo then lo else if hi < x then hi else x

end Sys2Proof
end

