-- ==== Sys2Proof/Machine/Cells.lean ====
section
/-! DEFINITION. Cells.lean: memory as a list of (address, byte) pairs in canonical form: addresses strictly rising and
no entry equal to 0, which is what an unlisted address reads as (log 1). Byte order is little-endian (00 R7). -/

namespace Sys2Proof.Machine

/-- The byte at an address. -/
def Cells.read : List Host.Cell → Nat → Byte
  | [], _ => 0#8
  | (a, b) :: m, x => if x = a then b else Cells.read m x

/-- The memory with the byte at `x` set to `v`. -/
def Cells.write : List Host.Cell → Nat → Byte → List Host.Cell
  | [], x, v => if v = 0#8 then [] else [(x, v)]
  | (a, b) :: m, x, v =>
    if x < a then (if v = 0#8 then (a, b) :: m else (x, v) :: (a, b) :: m)
    else if x = a then (if v = 0#8 then m else (x, v) :: m)
    else (a, b) :: Cells.write m x v

/-- Every address of the list is above `lo`, rising, with no entry 0. -/
def Cells.above : Nat → List Host.Cell → Bool
  | _, [] => true
  | lo, (a, b) :: m => decide (lo < a) && b != 0#8 && Cells.above a m

/-- The canonical form. -/
def Cells.wf : List Host.Cell → Bool
  | [] => true
  | (a, b) :: m => b != 0#8 && Cells.above a m

/-- `n` bytes from address `x`. -/
def Cells.readN (m : List Host.Cell) (x : Nat) : Nat → List Byte
  | 0 => []
  | n + 1 => Cells.read m x :: Cells.readN m (x + 1) n

/-- Bytes written from address `x` upwards. -/
def Cells.writeN (m : List Host.Cell) (x : Nat) : List Byte → List Host.Cell
  | [] => m
  | b :: bs => Cells.writeN (Cells.write m x b) (x + 1) bs

/-- The number whose little-endian bytes are given. -/
def leNat : List Byte → Nat
  | [] => 0
  | b :: bs => b.toNat + 256 * leNat bs

/-- The `n` little-endian bytes of a number. -/
def leBytes : Nat → Nat → List Byte
  | 0, _ => []
  | n + 1, x => BitVec.ofNat 8 x :: leBytes n (x / 256)

/-- A little-endian number of `n` bytes in memory. -/
def Cells.readLE (m : List Host.Cell) (x n : Nat) : Nat := leNat (Cells.readN m x n)

/-- The low `n` bytes of a number, stored little-endian. -/
def Cells.writeLE (m : List Host.Cell) (x n v : Nat) : List Host.Cell := Cells.writeN m x (leBytes n v)

/-- The memory with every address of `x … x + n - 1` reading 0. -/
def Cells.clear (m : List Host.Cell) (x n : Nat) : List Host.Cell := m.filter fun c => c.1 < x || x + n ≤ c.1

end Sys2Proof.Machine
end

