-- ==== Sys2Proof/Config.lean ====
section
/-! DEFINITION. Config.lean: what an implementation fixes and the spec leaves open (log 9, 10, 12), and the
architectural constants that several files use. A constant declared `opaque` has no value that a proof can see. -/

namespace Sys2Proof.Config

/-- The value the manual leaves open, drawn number `n` (log 12). UNVERIFIED: free. -/
opaque freeValue : Nat → BitVec 64

/-- What an installed routine writes whose number 13 R320 does not name, in order: to scratchpad or not, from which address, which
bytes. It is privileged software that the spec does not give; drawn number `n` (log 12, 23). UNVERIFIED: free. -/
opaque routineWrites : Nat → List (Bool × Nat × List Byte)

/-- The stack (0-11) and pseudo-channel (0-63) a line maps to (04 R116: "a fixed function of its physical address"; 22 R457, R459; the
functions are not given, log 9). The die that the stack attaches to is the line's home. -/
opaque stackFn : Nat → Fin 12
opaque pseudoFn : Nat → Fin 64

/-- Stack, pseudo-channel and channel of a line. -/
def stackOf (line : Nat) : Nat := (stackFn line).val
def pseudoOf (line : Nat) : Nat := (pseudoFn line).val
def channelOf (line : Nat) : Nat := pseudoOf line / 2

/-- The set of a line in its L2 slice and in the MSC, and the lines that a set holds (04 R104; 00 R4 gives the capacities
and no rule the sets, log 9). -/
opaque l2Set : Nat → Nat
opaque mscSet : Nat → Nat
opaque l2Ways : Nat
opaque mscWays : Nat

/-- The L2 slice of its die (0-63) that a line belongs to (04 R114; the function is not given, log 9). -/
opaque l2Slice : Nat → Fin 64

/-- The ordering code: an SV9400-MD, else an SV9400-PK (00 R1, 23 R478). -/
opaque isModule : Bool

/-- SHAKE256 with 64 bytes of output (23 R474, R475; a published function, its value is not needed by any rule
other than equality of digests, log 10). -/
opaque shake256 : List Byte → BitVec 512

/-- Ed448 verification of a 114-byte signature over a digest under the vendor key (23 R474, log 10). -/
opaque vendorVerify : BitVec 512 → List Byte → Bool

/-- The device's identity key: public key of 57 bytes, and the signature over a digest (23 R477, log 10). -/
opaque identityPub : List Byte
opaque identitySign : BitVec 512 → List Byte

/-- The digest of the ROM's own verification stage (23 R475, MEAS0). -/
opaque romDigest : BitVec 512

/-- The host's Outstanding Page Request Allocation (20 R428: the host's; log 28). -/
opaque hostPageRequests : Nat

/-- Cycles of the arithmetic clock in one microsecond (00 R5, R8: 1.2 GHz). -/
def cyclesPerUs : Nat := 1200

/-- Cores of the device and of a cluster (00 R4). -/
def nCores : Nat := 256
def coresPerCluster : Nat := 16
def nTenancies : Nat := 16
def nStacks : Nat := 12
def nOpticalLanes : Nat := 4096

/-- Lines of one core's register cache of 1 MiB, bytes of its L1 of 128 KiB, and memory requests it may have outstanding
(00 R4). -/
def regCacheLines : Nat := 8192
def l1Bytes : Nat := 131072
def maxRequests : Nat := 4096
/-- Lines of one of a die's 64 L2 slices of 1.5 MiB, and of a die's memory-side cache of 1 GiB (00 R4). -/
def sliceLines : Nat := 12288
def mscLines : Nat := 8388608
/-- Frames of one core's scratchpad (00 R4). -/
def framesPerCore : Nat := 128
/-- Depth of a tile-operation queue (11 R271) and of an engine queue (13 R311). -/
def tileQueueDepth : Nat := 64
def engineQueueDepth : Nat := 64
/-- Records of one band queue (19 R403). -/
def bandQueueDepth : Nat := 1024
/-- Pending walks of one die (20 R418). -/
def pendingWalkMax : Nat := 512
/-- Pinned frames of a core at most (10 R268). -/
def maxPinned : Nat := 96
/-- The no-meeting value of `mt` (01 R25). -/
def noMeet : BitVec 64 := 0xFFFFFFFFFFFFFFFF#64
/-- The fairness timer's limit (01 R24) and the starvation limit (01 R22). -/
def fairnessLimit : Nat := 256
def starvationLimit : Nat := 1024
/-- SRCTO.TOUS after reset (18 R391). -/
def srctoReset : BitVec 16 := 20#16
/-- THALLOW fields after reset (18 R389). -/
def floorReset : BitVec 8 := 32#8
def allowReset : BitVec 8 := 255#8
/-- A format descriptor when a group starts (02 R46). -/
def descrReset : BitVec 32 := 0x00000088#32

end Sys2Proof.Config
end

