-- ==== Sys2Proof/Syntax.lean ====
section
/-! DEFINITION. Syntax.lean: the control field, the operand layouts (06 R155-R158, R167), the data that events bring
from outside the device, and `Instr`, one constructor per row of spec/opcode_table.json. -/

namespace Sys2Proof

/-- The control field without LEN, which the constructor fixes (06 R155). -/
structure Ctl where
  rsv : BitVec 4
  yld : Bool
  pneg : Bool
  pred : BitVec 3
  setw : BitVec 3
  waitm : BitVec 6
  stall : BitVec 4
  deriving DecidableEq, Repr

/-- Layout F64 (06 R157). -/
structure F64 where
  d : BitVec 7
  a : BitVec 7
  b : BitVec 7
  c : BitVec 7
  mod : BitVec 2
  deriving DecidableEq, Repr

/-- Layout J64 (06 R157). -/
structure J64 where
  off : BitVec 28
  mod : BitVec 2
  deriving DecidableEq, Repr

/-- Layout M96 (06 R157). -/
structure M96 where
  d : BitVec 7
  a : BitVec 7
  b : BitVec 7
  c : BitVec 7
  mod : BitVec 2
  imm : BitVec 32
  deriving DecidableEq, Repr

/-- Layout W128 (06 R157); IMM64 is `y ++ x`. -/
structure W128 where
  d : BitVec 7
  a : BitVec 7
  b : BitVec 7
  c : BitVec 7
  mod : BitVec 2
  x : BitVec 32
  y : BitVec 32
  deriving DecidableEq, Repr

/-- The two slots of a paired word (06 R167). -/
structure Pair where
  pop0 : BitVec 8
  d0 : BitVec 7
  a0 : BitVec 7
  b0 : BitVec 7
  c0 : BitVec 7
  pop1 : BitVec 8
  d1 : BitVec 7
  a1 : BitVec 7
  b1 : BitVec 7
  c1 : BitVec 7
  deriving DecidableEq, Repr

/-- Who makes a control-register access (18 R380, R381). -/
inductive Agent where
  | host | mc
  deriving DecidableEq, Repr

/-- A packet that arrives from a peer (14 R336, R337, R341; 18 R377, R387). `answers` names this device's own `cget`
when the packet returns data to it. -/
structure PacketIn where
  peer : Nat
  secure : Bool
  rten : Nat
  rep : Nat
  addr : Nat
  bytes : List Byte
  ctr : Option Nat
  answers : Option Nat
  deriving DecidableEq, Repr

/-- What a peer's answer to a packet says (14 R339, R341, R337, R338). -/
inductive AckIn where
  /-- Performed; `value` is the old value a `catom` returns, or, for the `joinc` of a completed launch, the address of the record to
  enqueue (0 for none). -/
  | done (value : Word)
  /-- Every line of a `cget` or `catom` request has passed the owner's translation (14 R337). -/
  | translated
  /-- Refused as unbound or outside the bound space (14 R341). -/
  | unbound
  /-- Refused by the owner's translation (14 R337). -/
  | refused
  /-- Refused because the owner's page is read-only-shared (14 R351). -/
  | readOnly
  /-- As `translated`; the page is UN at the owner (14 R338). -/
  | unordered
  /-- The bytes a forwarded read returns (05 R137). -/
  | data (bytes : List Byte)
  deriving DecidableEq, Repr

/-- What a request from a peer asks at this device's home slices (14 R337, R338; 20 R425). -/
inductive RemoteOp where
  | read (size : Nat)
  | write (bytes : List Byte)
  /-- one write of the bits that the masks select (04 R96, 10 R260) -/
  | writeMasked (masks bytes : List Byte)
  | atom (op t : Nat) (x b : Word)
  | join
  deriving DecidableEq, Repr

/-- A `cget` or `catom` request from a peer: the exported window of an endpoint and an offset in it. -/
structure FabricReq where
  peer : Nat
  secure : Bool
  rten : Nat
  rep : Nat
  off : Nat
  op : RemoteOp
  deriving DecidableEq, Repr

/-- A forwarded access from a peer at a physical address of this device; `cnt` is the CNT bit of the leaf it used. -/
structure FwdAccess where
  peer : Nat
  pa : Nat
  cnt : Bool
  op : RemoteOp
  /-- the world and the tenancy that accesses (18 R377, 20 R425) -/
  secure : Bool
  ten : Nat
  deriving DecidableEq, Repr

/-- A UDP datagram at a front port (19 R400). -/
structure Datagram where
  port : Nat
  dstPort : Nat
  srcAddr : Nat
  srcPort : Nat
  checksumOk : Bool
  payload : List Byte
  deriving DecidableEq, Repr

/-- A shoot-down command's fields (20 R421). -/
structure ShootCmd where
  off : Nat
  bytes : List Byte
  deriving DecidableEq, Repr

/-- An ATS Translation Completion (20 R427): permissions, host address and size. -/
structure AtsAnswer where
  r : Bool
  w : Bool
  hpa : Nat
  size : Nat
  deriving DecidableEq, Repr

/-- A PRI response code (20 R428). -/
inductive PriCode where
  | success | invalidRequest | responseFailure
  deriving DecidableEq, Repr

/-- The structures whose checks detect errors (21 R453). -/
inductive ErrStruct where
  | hbm | l2 | msc | l1 | scratchpad | registerCache | accStore | itemQueue | tlb | stb | ats | walkCache
  | groupControl | queueControl | barrierControl | swardControl | fabricControl | faultQueue
  deriving DecidableEq, Repr

/-- One detected storage error: where, on which die, for which tenancy, at which line; and the engine queue (team, queue) whose
command was reading, where one was. -/
structure StorageError where
  what : ErrStruct
  die : Bool
  ten : Nat
  line : Nat
  dirty : Bool
  correctable : Bool
  /-- of a scratchpad word: its team and its address in the team space -/
  spad : Nat × Nat
  deriving DecidableEq, Repr

/-- A burst that failed its CRC at one of a stack's 64 pseudo-channels (22 R459). -/
structure BurstCrc where
  stack : Nat
  channel : Nat
  /-- the replay of this burst passed -/
  passes : Bool
  /-- tenancies for which an engine, a walk, Sward or a word performed at issue has an access outstanding on the channel (timing, log 32) -/
  tens : List Nat
  deriving DecidableEq, Repr

/-- One lane's row of the route table and its base word (22 R465). -/
structure LaneRoute where
  row : List (BitVec 16)
  base : BitVec 16
  deriving DecidableEq, Repr

/-- One front-port binding: destination port and source bound to a tenancy (19 R400, 23 R472). -/
structure PortBind where
  dstPort : Nat
  srcAddr : Nat
  ten : Nat
  deriving DecidableEq, Repr

/-- A window of physical addresses that a peer exports to this device (20 R425). -/
structure ExportWin where
  peer : Nat
  base : Nat
  size : Nat
  deriving DecidableEq, Repr

/-- A window of a tenancy's virtual addresses that this device exports to an endpoint (14 R333, R337; log 11). -/
structure EndWin where
  ten : Nat
  rep : Nat
  base : Nat
  size : Nat
  deriving DecidableEq, Repr

/-- The configuration sections of a firmware bundle (23 R472). -/
structure FwConfig where
  routes : List LaneRoute
  ports : List PortBind
  imports : List ExportWin
  windows : List EndWin
  carve : List Nat
  device : Nat
  deriving DecidableEq, Repr

/-- A refresh of a stack: of one bank, or of all (22 R457). -/
structure Refresh where
  stack : Nat
  bank : Option Nat
  deriving DecidableEq, Repr

/-- A bundle slot: header and body, signature, security version, configuration (23 R474). -/
structure Bundle where
  headBody : List Byte
  sig : List Byte
  svn : Nat
  cfg : FwConfig
  cfgBytes : List Byte
  deriving DecidableEq, Repr


/-- One constructor per row of spec/opcode_table.json, in the table's order. Words carry their control field and their
layout; events carry what comes from outside the step. -/
inductive Instr where
  /-- NOP: No-operation word; it takes an issue slot and has no other effect. (R182) -/
  | nop (c : Ctl) (f : F64)
  /-- BRA: Sends each participating lane to its own address + 4 × OFF28; the group splits when some lanes branch and others do not. (R184) -/
  | bra (c : Ctl) (f : J64)
  /-- BRC: Sends the whole fragment to the target when the guard holds in any, all or no active lane; it never splits the fragment. (R184) -/
  | brc (c : Ctl) (f : J64)
  /-- BRX: Sends each participating lane to a target taken from a vector pair or from a scalar register. (R184) -/
  | brx (c : Ctl) (f : F64)
  /-- CALL: Branches as bra does and writes the return address into the link pair v0:v1. (R184) -/
  | call (c : Ctl) (f : J64)
  /-- CALLX: Branches as brx does and writes the return address into the link pair vD. (R184) -/
  | callx (c : Ctl) (f : F64)
  /-- RET: Sends each participating lane to the address held in its link pair. (R184) -/
  | ret (c : Ctl) (f : F64)
  /-- EXIT: Makes each participating lane exited; an exit may add to a default-form barrier phase and free the issue-priority token. (R186) -/
  | exit (c : Ctl) (f : F64)
  /-- MEET: Writes the meeting register mt of each participating lane. (R187) -/
  | meet (c : Ctl) (f : J64)
  /-- MEETW: Holds each participating lane at the explicit reconvergence barrier. (R27) -/
  | meetw (c : Ctl) (f : F64)
  /-- VOTE: Writes pD in each participating lane from an any, all or uniformity vote over pA. (R191) -/
  | vote (c : Ctl) (f : F64)
  /-- BALLOT: Gathers pA of the participating lanes into a scalar bit mask. (R191) -/
  | ballot (c : Ctl) (f : F64)
  /-- ELECT: Sets pD in the lowest participating lane and clears it in the other participating lanes. (R191) -/
  | elect (c : Ctl) (f : F64)
  /-- REFILL: Sets the group's refill point and makes a refill attempt against the team's item-queue share. (R189) -/
  | refill (c : Ctl) (f : F64)
  /-- DONE: Makes each participating lane done, or acts as exit when the group has no refill point. (R35) -/
  | done (c : Ctl) (f : F64)
  /-- YIELD: Ends the group's stickiness and ranks the group as the most recent issuer. (R190) -/
  | yield (c : Ctl) (f : F64)
  /-- TOKPASS: Hands the quarter's issue-priority token to another group of the team, or frees it. (R43) -/
  | tokpass (c : Ctl) (f : F64)
  /-- TOKWAIT: Takes a free issue-priority token, or holds the fragment until the group holds the token. (R43) -/
  | tokwait (c : Ctl) (f : F64)
  /-- SPAWN: Performs a release at .dev and hands a continuation record from global memory to Sward, stalling while the band queue is full. (R39) -/
  | spawn (c : Ctl) (f : F64)
  /-- JOINC: Decrements a join word at its home slice with acq_rel semantics and enqueues its record when COUNT reaches zero. (R41) -/
  | joinc (c : Ctl) (f : F64)
  /-- IQ_PUSH: Appends values to the team's item-queue share once it has room, as a release at .team. (R196) -/
  | iqPush (c : Ctl) (f : F64)
  /-- IQ_LOAD: Removes items from the item-queue share into the participating lanes and never waits. (R196) -/
  | iqLoad (c : Ctl) (f : F64)
  /-- IQ_COUNT: Returns the number of entries in the item-queue share. (R196) -/
  | iqCount (c : Ctl) (f : F64)
  /-- SADD: Adds two scalars, wrapping or saturating. (R199) -/
  | sadd (c : Ctl) (f : F64)
  /-- SSUB: Subtracts two scalars, wrapping or saturating. (R199) -/
  | ssub (c : Ctl) (f : F64)
  /-- SMUL: Keeps the low 64 bits of a scalar product. (R199) -/
  | smul (c : Ctl) (f : F64)
  /-- SMULH: Keeps the high 64 bits of a 128-bit scalar product. (R199) -/
  | smulh (c : Ctl) (f : F64)
  /-- SDIV: Divides two scalars, rounding towards zero, with the special cases of R200. (R200) -/
  | sdiv (c : Ctl) (f : F64)
  /-- SREM: Takes the scalar remainder, with the sign of sA. (R200) -/
  | srem (c : Ctl) (f : F64)
  /-- SAND: Scalar bitwise AND. (R199) -/
  | sand (c : Ctl) (f : F64)
  /-- SOR: Scalar bitwise OR. (R199) -/
  | sor (c : Ctl) (f : F64)
  /-- SXOR: Scalar bitwise exclusive OR. (R199) -/
  | sxor (c : Ctl) (f : F64)
  /-- SSHL: Scalar shift left with zero fill. (R199) -/
  | sshl (c : Ctl) (f : F64)
  /-- SSHR: Scalar logical shift right. (R199) -/
  | sshr (c : Ctl) (f : F64)
  /-- SSAR: Scalar arithmetic shift right. (R199) -/
  | ssar (c : Ctl) (f : F64)
  /-- SMIN: Scalar minimum, signed or unsigned. (R199) -/
  | smin (c : Ctl) (f : F64)
  /-- SMAX: Scalar maximum, signed or unsigned. (R199) -/
  | smax (c : Ctl) (f : F64)
  /-- SCMP: Compares two scalars and writes the predicate in every active lane of the fragment. (R199) -/
  | scmp (c : Ctl) (f : F64)
  /-- SSEL: Selects one of two scalars by a predicate read under R180. (R199) -/
  | ssel (c : Ctl) (f : F64)
  /-- SMOV: Copies a scalar, or one lane of a vector register, into sD. (R199) -/
  | smov (c : Ctl) (f : F64)
  /-- SMOVI: Writes a 64-bit immediate, or a PC-relative address, into sD. (R201) -/
  | smovi (c : Ctl) (f : W128)
  /-- SLEA: Computes sA + (sB << C). (R199) -/
  | slea (c : Ctl) (f : F64)
  /-- SPOPC: Counts the set bits of a scalar. (R199) -/
  | spopc (c : Ctl) (f : F64)
  /-- SCLZ: Counts the leading zero bits of a scalar. (R199) -/
  | sclz (c : Ctl) (f : F64)
  /-- SFFS: Finds the index of the lowest set bit of a scalar. (R199) -/
  | sffs (c : Ctl) (f : F64)
  /-- SR: Reads a special register into a scalar or vector register. (R202) -/
  | sr (c : Ctl) (f : F64)
  /-- ADD: Vector wrapping add of packed elements. (R206) -/
  | add (c : Ctl) (f : F64)
  /-- SUB: Vector wrapping subtract of packed elements. (R206) -/
  | sub (c : Ctl) (f : F64)
  /-- MUL: Keeps the low w bits of each element product. (R206) -/
  | mul (c : Ctl) (f : F64)
  /-- MULH: Keeps the high half of each exact 2w-bit element product. (R206) -/
  | mulh (c : Ctl) (f : F64)
  /-- MAD: Multiply-add of elements, wrapped to w bits. (R209) -/
  | mad (c : Ctl) (f : F64)
  /-- ABS: Element absolute value, wrapping or saturating. (R207) -/
  | abs (c : Ctl) (f : F64)
  /-- NEG: Element negation, wrapping or saturating. (R207) -/
  | neg (c : Ctl) (f : F64)
  /-- MIN: Element minimum. (R206) -/
  | min (c : Ctl) (f : F64)
  /-- MAX: Element maximum. (R206) -/
  | max (c : Ctl) (f : F64)
  /-- AND: Vector bitwise AND. (R206) -/
  | and (c : Ctl) (f : F64)
  /-- OR: Vector bitwise OR. (R206) -/
  | or (c : Ctl) (f : F64)
  /-- XOR: Vector bitwise exclusive OR. (R206) -/
  | xor (c : Ctl) (f : F64)
  /-- ANDN: Vector a AND NOT b. (R206) -/
  | andn (c : Ctl) (f : F64)
  /-- NOT: Vector bitwise NOT. (R207) -/
  | not (c : Ctl) (f : F64)
  /-- SHL: Element shift left with zero fill. (R206) -/
  | shl (c : Ctl) (f : F64)
  /-- SHR: Element logical shift right. (R206) -/
  | shr (c : Ctl) (f : F64)
  /-- SAR: Element arithmetic shift right. (R206) -/
  | sar (c : Ctl) (f : F64)
  /-- ROT: Element rotate left by b mod w. (R206) -/
  | rot (c : Ctl) (f : F64)
  /-- BFE: Extracts a bit field, zero- or sign-extended. (R210) -/
  | bfe (c : Ctl) (f : F64)
  /-- BFI: Inserts a bit field of vA into vC. (R210) -/
  | bfi (c : Ctl) (f : F64)
  /-- POPC: Counts the set bits of each element. (R207) -/
  | popc (c : Ctl) (f : F64)
  /-- CLZ: Counts the leading zero bits of each element. (R207) -/
  | clz (c : Ctl) (f : F64)
  /-- FFS: Finds the index of the lowest set bit of each element. (R207) -/
  | ffs (c : Ctl) (f : F64)
  /-- BREV: Reverses the bits of each element. (R207) -/
  | brev (c : Ctl) (f : F64)
  /-- CMP: Compares elements and writes a predicate for each lane. (R211) -/
  | cmp (c : Ctl) (f : F64)
  /-- SEL: Selects vA or vB in each lane by a predicate. (R209) -/
  | sel (c : Ctl) (f : F64)
  /-- MOV: Copies a register together with its tag fields and exponents. (R208) -/
  | mov (c : Ctl) (f : F64)
  /-- MOVI: Writes an immediate into each participating lane or into a pair. (R213) -/
  | movi (c : Ctl) (f : W128)
  /-- CVTI: Converts between integer element types, wrapping or saturating. (R212) -/
  | cvti (c : Ctl) (f : F64)
  /-- ADDSAT: Element add clamped to the type's range. (R206) -/
  | addsat (c : Ctl) (f : F64)
  /-- SUBSAT: Element subtract clamped to the type's range. (R206) -/
  | subsat (c : Ctl) (f : F64)
  /-- AVG: Rounded element average. (R206) -/
  | avg (c : Ctl) (f : F64)
  /-- SAD: Adds the sum of the absolute element differences to vC. (R209) -/
  | sad (c : Ctl) (f : F64)
  /-- DP4: Adds a four-byte dot product to vC. (R209) -/
  | dp4 (c : Ctl) (f : F64)
  /-- FADD: Binary32 add, rounded once. (R224) -/
  | fadd (c : Ctl) (f : F64)
  /-- FSUB: Binary32 subtract, rounded once. (R224) -/
  | fsub (c : Ctl) (f : F64)
  /-- FMUL: Binary32 multiply, rounded once. (R224) -/
  | fmul (c : Ctl) (f : F64)
  /-- FFMA: Binary32 fused multiply-add with one rounding. (R224) -/
  | ffma (c : Ctl) (f : F64)
  /-- FMIN: Binary32 minimum, with −0 ordered below +0. (R77) -/
  | fmin (c : Ctl) (f : F64)
  /-- FMAX: Binary32 maximum, with −0 ordered below +0. (R77) -/
  | fmax (c : Ctl) (f : F64)
  /-- FCMP: Binary32 compare that writes a predicate. (R227) -/
  | fcmp (c : Ctl) (f : F64)
  /-- FCLASS: Writes a one-hot class mask of each binary32 value. (R228) -/
  | fclass (c : Ctl) (f : F64)
  /-- FRCP: Correctly rounded binary32 reciprocal. (R226) -/
  | frcp (c : Ctl) (f : F64)
  /-- FRSQ: Correctly rounded binary32 reciprocal square root. (R226) -/
  | frsq (c : Ctl) (f : F64)
  /-- FEXP2: Correctly rounded binary32 2^a. (R226) -/
  | fexp2 (c : Ctl) (f : F64)
  /-- FLOG2: Correctly rounded binary32 log2 a. (R226) -/
  | flog2 (c : Ctl) (f : F64)
  /-- FSQRT: Correctly rounded binary32 square root. (R226) -/
  | fsqrt (c : Ctl) (f : F64)
  /-- FRND: Rounds a binary32 value to an integral value. (R229) -/
  | frnd (c : Ctl) (f : F64)
  /-- FCVT: Converts register sets between floating-point formats under a conversion policy. (R233) -/
  | fcvt (c : Ctl) (f : F64)
  /-- F2I: Converts floating-point elements to integers under a conversion policy. (R234) -/
  | f2i (c : Ctl) (f : F64)
  /-- I2F: Converts integer elements to a floating-point format. (R235) -/
  | i2f (c : Ctl) (f : F64)
  /-- FPACK: Converts binary32 into element K of a packed register. (R236) -/
  | fpack (c : Ctl) (f : F64)
  /-- FUNPK: Converts element K of a packed register to binary32. (R236) -/
  | funpk (c : Ctl) (f : F64)
  /-- SHFL: Exchanges lane values within segments among the participating lanes. (R216) -/
  | shfl (c : Ctl) (f : F64)
  /-- BCAST: Broadcasts the value of one lane to the participating lanes. (R217) -/
  | bcast (c : Ctl) (f : F64)
  /-- RED: Reduces the participating lanes into a scalar and is performed at every issue. (R218) -/
  | red (c : Ctl) (f : F64)
  /-- SCAN: Writes an inclusive or exclusive prefix combination over the participating lanes. (R219) -/
  | scan (c : Ctl) (f : F64)
  /-- MATCH: Writes a mask of the lanes holding an equal value. (R220) -/
  | matchLanes (c : Ctl) (f : F64)
  /-- COMPACT: Packs the selected lane values towards the low participating lanes and counts them. (R221) -/
  | compact (c : Ctl) (f : F64)
  /-- BFPCVT: Converts a register set to BFP with block scale selection and UFC counting. (R237) -/
  | bfpcvt (c : Ctl) (f : F64)
  /-- BFPEXP_GET: Reads the block exponents of vA into the lanes. (R238) -/
  | bfpexpGet (c : Ctl) (f : F64)
  /-- BFPEXP_SET: Makes vD a BFP register with block exponents taken from vB. (R238) -/
  | bfpexpSet (c : Ctl) (f : F64)
  /-- PLPACK: Transposes the element bytes of each block into plane words. (R239) -/
  | plpack (c : Ctl) (f : F64)
  /-- PLUNPK: Rebuilds BFP element bytes from n plane words. (R240) -/
  | plunpk (c : Ctl) (f : F64)
  /-- PREC: Reads the field word of a register tag into a scalar. (R242) -/
  | prec (c : Ctl) (f : F64)
  /-- PREC_EXP: Reads the exponent word of a register tag into a scalar. (R242) -/
  | precExp (c : Ctl) (f : F64)
  /-- PTRUNC: Cuts a BFP register to at most n planes and sets its fill. (R241) -/
  | ptrunc (c : Ctl) (f : F64)
  /-- UFC: Reads the group's underflow counter and clears it in one step. (R243) -/
  | ufc (c : Ctl) (f : F64)
  /-- UFC_CLR: Clears the group's underflow counter without writing a register. (R243) -/
  | ufcClr (c : Ctl) (f : F64)
  /-- BREC_SET: Writes one field of a buffer record. (R251) -/
  | brecSet (c : Ctl) (f : F64)
  /-- BREC_GET: Reads one field of a buffer record into a scalar. (R251) -/
  | brecGet (c : Ctl) (f : F64)
  /-- BRECX: Writes one field of a buffer record from a 64-bit immediate. (R251) -/
  | brecx (c : Ctl) (f : W128)
  /-- BCHK: Writes a predicate telling whether each lane's access lies in bounds. (R253) -/
  | bchk (c : Ctl) (f : F64)
  /-- LD: Loads global memory through a buffer record, as an optional acquire or fresh read. (R255) -/
  | ld (c : Ctl) (f : M96)
  /-- ST: Stores to global memory through a buffer record, as an optional release. (R256) -/
  | st (c : Ctl) (f : M96)
  /-- LDPL: Loads k planes of a plane set into a BFP register. (R258) -/
  | ldpl (c : Ctl) (f : M96)
  /-- LDRF: Refines a BFP register by fetching the missing planes only. (R259) -/
  | ldrf (c : Ctl) (f : M96)
  /-- STPL: Stores exponents and k planes of a BFP register to a plane set. (R260) -/
  | stpl (c : Ctl) (f : M96)
  /-- LDS: Loads from the group's own scratchpad slot, plain or with a full-empty take or peek. (R261) -/
  | lds (c : Ctl) (f : M96)
  /-- STS: Stores to the group's own scratchpad slot, optionally setting granules full. (R261) -/
  | sts (c : Ctl) (f : M96)
  /-- LDSR: Loads from any address of the team's scratchpad space. (R261) -/
  | ldsr (c : Ctl) (f : M96)
  /-- STSR: Stores to any address of the team's scratchpad space. (R261) -/
  | stsr (c : Ctl) (f : M96)
  /-- ATOM: Per-lane atomic read-modify-write on global memory at the home slice. (R265) -/
  | atom (c : Ctl) (f : M96)
  /-- ATOMS: Per-lane atomic read-modify-write on scratchpad at the port core. (R265) -/
  | atoms (c : Ctl) (f : M96)
  /-- FENCE_AR: Orders every earlier access before every later access, with L1 invalidation. (R135) -/
  | fenceAr (c : Ctl) (f : F64)
  /-- FENCE_ACQ: Orders earlier loads and atomics before later accesses, with L1 invalidation. (R135) -/
  | fenceAcq (c : Ctl) (f : F64)
  /-- FENCE_REL: Orders earlier accesses before later stores and atomics. (R135) -/
  | fenceRel (c : Ctl) (f : F64)
  /-- FENCE_SYS_ALL: Full fence at .sys that also orders UN accesses and invalidates RC and UN L1 lines. (R135) -/
  | fenceSysAll (c : Ctl) (f : F64)
  /-- PREF: Prefetches lines or assembled lines into L1 or L2 and drops failing lanes silently. (R267) -/
  | pref (c : Ctl) (f : M96)
  /-- SPIN: Makes a range of scratchpad pages resident and pins them, within the pin limit. (R268) -/
  | spin (c : Ctl) (f : F64)
  /-- SUNPIN: Clears the pins of a range of scratchpad pages. (R269) -/
  | sunpin (c : Ctl) (f : F64)
  /-- FMTSET: Writes a format descriptor after checking its value. (R276) -/
  | fmtset (c : Ctl) (f : M96)
  /-- MMA: Reads the A and B fragments at issue and enqueues a tile operation under a semiring. (R277) -/
  | mma (c : Ctl) (f : F64)
  /-- ACC_ZERO: Enqueues a fill of a tile with +0, +∞ or −∞. (R283) -/
  | accZero (c : Ctl) (f : F64)
  /-- ACC_RD: Enqueues a read of tile rows into a register set. (R284) -/
  | accRd (c : Ctl) (f : F64)
  /-- ACC_RDX: Enqueues a read of tile rows through the exponential unit into registers. (R284) -/
  | accRdx (c : Ctl) (f : F64)
  /-- ACC_MAX: Enqueues a reduction of tile rows or columns to their maxima. (R285) -/
  | accMax (c : Ctl) (f : F64)
  /-- ACC_SCL: Enqueues acc × f + g applied to every tile element. (R286) -/
  | accScl (c : Ctl) (f : F64)
  /-- ACC_LD: Loads a whole tile from 16 KiB of scratchpad, optionally waiting for full granules. (R287) -/
  | accLd (c : Ctl) (f : M96)
  /-- ACC_DRN: Drains a tile into scratchpad, optionally zeroing it. (R288) -/
  | accDrn (c : Ctl) (f : M96)
  /-- KVSLOT: Maps KV-ring positions to slot, page, generation and offset, and checks liveness. (R295) -/
  | kvslot (c : Ctl) (f : F64)
  /-- HAMD: Computes Hamming distances between binary codes held across lane segments. (R298) -/
  | hamd (c : Ctl) (f : F64)
  /-- GWALK: Starts up to n steps of a proximity-graph walk described in scratchpad. (R305) -/
  | gwalk (c : Ctl) (f : M96)
  /-- CQ_INIT: Initialises a candidate queue header. (R303) -/
  | cqInit (c : Ctl) (f : F64)
  /-- CQ_PUSH: Inserts keys into a bounded sorted candidate queue. (R303) -/
  | cqPush (c : Ctl) (f : F64)
  /-- CQ_POP: Removes the smallest entries of a candidate queue into the lanes. (R303) -/
  | cqPop (c : Ctl) (f : F64)
  /-- CQ_TOP: Reads the smallest or largest key, CNT or CAP of a candidate queue. (R303) -/
  | cqTop (c : Ctl) (f : F64)
  /-- VF_TEST: Tests, and optionally sets, visited-filter bits of nodes. (R303) -/
  | vfTest (c : Ctl) (f : F64)
  /-- PCOPY: Issues to an engine queue a copy of bytes or staged plane lines into scratchpad. (R315) -/
  | pcopy (c : Ctl) (f : W128)
  /-- PCOPY_RF: Issues to an engine queue a refine of staged lines with further planes. (R316) -/
  | pcopyRf (c : Ctl) (f : W128)
  /-- PSTORE: Issues to an engine queue a write of scratchpad bytes or staged lines to global memory. (R317) -/
  | pstore (c : Ctl) (f : W128)
  /-- PFILL: Issues to an engine queue a fill of scratchpad with a word, optionally setting FE bits. (R318) -/
  | pfill (c : Ctl) (f : W128)
  /-- PXFORM: Issues to an engine queue a command that runs a Harebell routine. (R319) -/
  | pxform (c : Ctl) (f : W128)
  /-- QFENCE: Enqueues an ordering fence into each named engine queue. (R141) -/
  | qfence (c : Ctl) (f : F64)
  /-- QMARK: Enqueues a marker that writes the accepted-command count and sets its granule full. (R323) -/
  | qmark (c : Ctl) (f : F64)
  /-- QWAIT: Holds the fragment until the named queues' accepted commands complete, then acts as an acquire. (R322) -/
  | qwait (c : Ctl) (f : F64)
  /-- CSEND: Sends scalar registers in packets to a remote team's scratchpad through a channel. (R336) -/
  | csend (c : Ctl) (f : M96)
  /-- CPUT: Sends scratchpad bytes in packets to a remote team's scratchpad through a channel. (R336) -/
  | cput (c : Ctl) (f : W128)
  /-- CGET: Reads a remote global window into local scratchpad through a channel. (R337) -/
  | cget (c : Ctl) (f : W128)
  /-- CATOM: Performs an atomic on a remote window word at the owner's home slice. (R338) -/
  | catom (c : Ctl) (f : M96)
  /-- ARRSET: Sets an arrival counter's target and expected source, optionally keeping COUNT. (R343) -/
  | arrset (c : Ctl) (f : F64)
  /-- ARRWAIT: Holds the fragment until COUNT reaches TARGET, then returns COUNT as an acquire at .dom. (R344) -/
  | arrwait (c : Ctl) (f : F64)
  /-- LEASE: Requests optical lanes towards a channel's peer for a bounded time. (R347) -/
  | lease (c : Ctl) (f : F64)
  /-- LREL: Ends a lease of the team. (R350) -/
  | lrel (c : Ctl) (f : F64)
  /-- LQRY: Queries lane counts, quota, dead-peer bit or base allotment towards a peer. (R350) -/
  | lqry (c : Ctl) (f : F64)
  /-- BAR_ARV: Arrives at a team barrier as a release at .team. (R325) -/
  | barArv (c : Ctl) (f : F64)
  /-- BAR_WT: Holds the fragment until the barrier phase differs from the group's recorded phase. (R325) -/
  | barWt (c : Ctl) (f : F64)
  /-- BAR_SYNC: Arrives at a team barrier and then waits for its phase. (R325) -/
  | barSync (c : Ctl) (f : F64)
  /-- FE_WAIT: Holds the fragment until each granule of a region has been found full. (R327) -/
  | feWait (c : Ctl) (f : M96)
  /-- ASSERT: Stops the launch with an ASSERT record when a participating lane fails the predicate test. (R328) -/
  | assert (c : Ctl) (f : M96)
  /-- BRK: Stops its group precisely with BREAK and records the code. (R329) -/
  | brk (c : Ctl) (f : F64)
  /-- CSRRD: Reads a control register at level S, as acq_rel at .sys. (R393) -/
  | csrrd (c : Ctl) (f : F64)
  /-- CSRWR: Writes a control register at level S, as acq_rel at .sys. (R393) -/
  | csrwr (c : Ctl) (f : F64)
  /-- SRET: Answers a fault record with resume, skip or discard. (R395) -/
  | sret (c : Ctl) (f : F64)
  /-- STBINV: Invalidates STB entries of a team-space range in every core of the cluster. (R441) -/
  | stbinv (c : Ctl) (f : F64)
  /-- SPMAP: Rebinds a scratchpad page to a new backing page, dropping any resident frame. (R440) -/
  | spmap (c : Ctl) (f : F64)
  /-- SPUNMAP: Unpins a scratchpad page, writes it back when dirty and makes it non-resident. (R440) -/
  | spunmap (c : Ctl) (f : F64)
  /-- CHK_ON: Turns the group's checking scoreboard on. (R330) -/
  | chkOn (c : Ctl) (f : F64)
  /-- CHK_OFF: Turns the group's checking scoreboard off. (R330) -/
  | chkOff (c : Ctl) (f : F64)
  /-- PAIRED_WORD: Issues two pairable 64-bit operations as one word under one guard. (R170) -/
  | paired (c : Ctl) (p : Pair)
  /-- FAIRNESS_TIMER_EXPIRY: The fairness timer reaches 256; the longest-waiting intersecting fragment takes the next issue and the count restarts. (R24) -/
  | fairnessTimerExpiry (g : Nat)
  /-- ISSUE_STARVATION_PROMOTION: A group ready for 1,024 cycles without issuing moves to the second priority class. (R22) -/
  | issueStarvationPromotion (g : Nat)
  /-- MEETING_RELEASE: Threads held at one meeting address are released fused once every thread with that mt is held, exited or done. (R26) -/
  | meetingRelease (g : Nat) (mt : Word)
  /-- MEETW_RELEASE: Threads held at meetw are released when every thread of the group is held at meetw, exited or done. (R27) -/
  | meetwRelease (g : Nat)
  /-- STUCK_GROUP_RELEASE: A group held only at meeting points releases the held set with the lowest meeting address. (R28) -/
  | stuckGroupRelease (g : Nat)
  /-- REFILL_ATTEMPT: A group left with done lanes and no active or held thread takes items, or exits to the refill point's exit target. (R36) -/
  | refillAttempt (g : Nat)
  /-- GROUP_RETIRE: A group whose lanes are all exited, and whose words have all completed, retires and releases its lines and token. (R45) -/
  | groupRetire (g : Nat)
  /-- LOAD_DATA_LAND: A variable-latency load's data lands in its destination elements and releases the scoreboard. (R166) -/
  | loadDataLand (g word : Nat) (outside : List Byte)
  /-- STORE_ACK: The home slice acknowledges a performed store, which updates the core's L1 copy. (R124) -/
  | storeAck (g word : Nat)
  /-- MEM_UNCORRECTABLE_LATE: Uncorrectable data found after issue stops the group at its next point between issues. (R497) -/
  | memUncorrectableLate (g word : Nat) (va : Word)
  /-- MULTIPLY_PIPE_PERFORM: The multiply pipe performs an accepted mma on its tile as one indivisible step. (R278) -/
  | multiplyPipePerform (core : Nat) (residueOk : Bool)
  /-- ACC_PORT_PERFORM: The accumulator port performs an accepted accumulator operation on its tile. (R271) -/
  | accPortPerform (core : Nat) (parityOk : Bool)
  /-- DRAIN_GRANULE_LAND: A drained granule is performed at the port core and set full. (R288) -/
  | drainGranuleLand (core k : Nat)
  /-- PAGE_FILL: The port core fills a non-resident scratchpad page from zeros or from its backing page. (R434) -/
  | pageFill (team page : Nat)
  /-- SPAD_STARVED_TIMEOUT: After 100 µs with no qualifying frame the team takes SPAD_STARVED. (R436) -/
  | spadStarvedTimeout (g : Nat)
  /-- FE_LANE_ATTEMPT: Pending full-empty lanes whose granules became full are performed at the port core. (R262) -/
  | feLaneAttempt (g word : Nat)
  /-- FE_WAIT_SATISFY: An fe.wait releases its fragment once every granule has been found full. (R327) -/
  | feWaitSatisfy (g word : Nat)
  /-- BAR_WAIT_RELEASE: A barrier wait ends when the phase changes and acts as an acquire at .team. (R326) -/
  | barWaitRelease (g word : Nat)
  /-- TOKWAIT_TAKE: A waiting tokwait completes when its group takes the token. (R192) -/
  | tokwaitTake (g word : Nat)
  /-- QWAIT_SATISFY: A qwait completes once the counted commands have completed. (R322) -/
  | qwaitSatisfy (g word : Nat)
  /-- PCOPY_PERFORM: The engine performs a pcopy, reading at home slices and setting granules full. (R315) -/
  | pcopyPerform (team q : Nat)
  /-- PCOPY_RF_PERFORM: The engine merges further planes into staged lines. (R316) -/
  | pcopyRfPerform (team q : Nat)
  /-- PSTORE_PERFORM: The engine writes scratchpad bytes or staged lines at home slices. (R317) -/
  | pstorePerform (team q : Nat)
  /-- PFILL_PERFORM: The engine fills scratchpad and sets FE bits as the command asks. (R318) -/
  | pfillPerform (team q : Nat)
  /-- PXFORM_ROUTINE_RUN: A Harebell core runs the routine named by a pxform command. (R320) -/
  | pxformRoutineRun (team q : Nat)
  /-- QMARK_PERFORM: After earlier commands complete, the marker writes its granule and sets it full. (R323) -/
  | qmarkPerform (team q : Nat)
  /-- GWALK_STEP: The walk unit performs one walk step, making its reads and then committing at the port core. (R306) -/
  | gwalkStep (core : Nat) (stopAfter : Bool)
  /-- PACKET_ARRIVAL: An arriving packet's bytes are performed at the port core, its granules set full, then its count added. (R145) -/
  | packetArrival (p : PacketIn)
  /-- PACKET_ACK: A peer's acknowledgement of a packet arrives at the sender. (R339) -/
  | packetAck (id : Nat) (a : AckIn)
  /-- FABRIC_REQUEST_ARRIVAL: A cget or catom request arriving from a peer is performed at the owner's home slice. (R338) -/
  | fabricRequestArrival (r : FabricReq)
  /-- FORWARDED_ACCESS_ARRIVAL: A forwarded access from a peer is performed at the home slice and counted when CNT = 1. (R425) -/
  | forwardedAccessArrival (a : FwdAccess)
  /-- SOURCE_TIMEOUT: An unacknowledged packet or forwarded access times out and sets the peer's dead-peer bit. (R345) -/
  | sourceTimeout (id : Nat)
  /-- FEC_LOCK_LOSS_TIMEOUT: Every lane to a peer has been out of FEC lock for 20 µs, so its dead-peer bit is set. (R345) -/
  | fecLockLossTimeout (peer : Nat)
  /-- ARRWAIT_SATISFY: A test finds COUNT ≥ TARGET, so arrwait writes sD and acts as an acquire. (R344) -/
  | arrwaitSatisfy (g word : Nat)
  /-- ARRWAIT_TIMEOUT: The arrwait time limit expires, or SRC becomes dead, raising ARRIVAL_TIMEOUT. (R344) -/
  | arrwaitTimeout (g word : Nat)
  /-- LEASE_LANES_LIVE: Every granted lane carries traffic to the peer, so lease completes. (R347) -/
  | leaseLanesLive (team lease : Nat)
  /-- LEASE_EXPIRY: A lease's duration elapses and its lanes return to the pool or donors. (R348) -/
  | leaseExpiry (team lease : Nat)
  /-- LANE_RECLAIM: A starving peer reclaims a lane leased away from its allotment, each 50 µs. (R348) -/
  | laneReclaim (peer : Nat)
  /-- LANE_RETUNE_DONE: A retuned lane reaches its new peer after 1.6 µs. (R349) -/
  | laneRetuneDone (lane : Nat)
  /-- TUNING_TIMEOUT: A lane in TUNING for 50 µs without lock goes to FAILED. (R464) -/
  | tuningTimeout (lane : Nat)
  /-- LANE_RELOCK_ATTEMPT: A FAILED lane attempts relock every 100 µs and goes LIVE on success. (R464) -/
  | laneRelockAttempt (lane : Nat) (locked : Bool)
  /-- LANE_LOSS_OF_LOCK: A LIVE lane loses FEC lock and goes FAILED. (R464) -/
  | laneLossOfLock (lane : Nat)
  /-- FLIT_RETRANSMIT: A flit that failed FEC, or sat on a lane that left LIVE, is sent again on a LIVE lane. (R466) -/
  | flitRetransmit (k : Nat)
  /-- LAUNCH_WINDOW_WRITE: A 64-byte host write to a launch window submits a continuation record. (R399) -/
  | launchWindowWrite (page off : Nat) (bytes : List Byte)
  /-- LAUNCH_DATAGRAM: A launch datagram on a front port submits a continuation record for a tenancy. (R400) -/
  | launchDatagram (d : Datagram)
  /-- MC_SUBMIT: The MC submits a continuation record through its own port. (R401) -/
  | mcSubmit (ten : Nat) (bytes : List Byte)
  /-- ADMISSION_DECISION: Sward decides, for one cluster, which candidate team to admit or resume, and places it. (R404) -/
  | admissionDecision (cluster : Nat)
  /-- PREEMPT_BAND: A higher-band record that does not fit pre-empts victim teams of lower-priority bands. (R407) -/
  | preemptBand (ten band : Nat)
  /-- PREEMPT_PROGRESS: A parallel team that has run 100 µs is pre-empted for a waiting team of its launch. (R32) -/
  | preemptProgress (team : Nat)
  /-- PREEMPT_THERMAL: After two samples with ALLOW below FLOOR, Sward pre-empts the core's teams and moves them within their cluster. (R407) -/
  | preemptThermal (core : Nat)
  /-- TEAM_SAVED: Every group's control block is written, so the team becomes Saved and its cores are freed. (R408) -/
  | teamSaved (team : Nat)
  /-- LAUNCH_COMPLETION: Sward writes the completion record, performs the join and sends any reply datagram. (R410) -/
  | launchCompletion (launch : Nat)
  /-- FAULT_ANSWER_WRITE: A host write to a fault window answers a fault record. (R446) -/
  | faultAnswerWrite (ten off : Nat) (bytes : List Byte)
  /-- UNCONTAINED_FAULT: An uncontained fault freezes the tenancy and discards all of its work. (R452) -/
  | uncontainedFault (ten : Nat) (code : BitVec 8) (die : Bool)
  /-- STORAGE_ERROR_DETECT: An ECC or parity check detects an error, which is corrected, poisoned or escalated. (R453) -/
  | storageErrorDetect (e : StorageError)
  /-- POISON_ENTRY_CLEAR: The host writes 0 to a poisoned-list entry to clear it. (R454) -/
  | poisonEntryClear (die : Bool) (i : Nat) (value : Word)
  /-- ERROR_COUNTER_CLEAR: A write of 0 clears an error counter of a die. (R455) -/
  | errorCounterClear (die : Bool) (i : Nat) (value : Word)
  /-- TNCFG_WRITE: A write of a TNCFG word, checked and applied with the run-time effects of R384. (R383) -/
  | tncfgWrite (who : Agent) (ten w : Nat) (value : Word)
  /-- DEADPEER_CLEAR: Writing 1 clears dead-peer bits in the total order of control-register accesses. (R390) -/
  | deadpeerClear (who : Agent) (k : Nat) (value : Word)
  /-- CSR_WRITE: A write of a control register that has no row of its own, with drop and count of invalid accesses. (R380) -/
  | csrWrite (who : Agent) (off size : Nat) (value : Word)
  /-- SHOOTDOWN_LOCAL: Shoot-down command OP 0 invalidates the tenancy's cached translations of a VA range. (R421) -/
  | shootdownLocal (ten : Nat) (c : ShootCmd)
  /-- SHOOTDOWN_ROS_PURGE: Shoot-down command OP 1 sends a purge of read-only-shared copies to every live peer. (R421) -/
  | shootdownRosPurge (ten : Nat) (c : ShootCmd)
  /-- SHOOTDOWN_COMPLETE: Once old-entry accesses are performed and purges acknowledged, DONESEQ is written. (R422) -/
  | shootdownComplete (ten : Nat)
  /-- ROS_PURGE_RECEIVE: A peer's purge invalidates TLB entries and cached copies of the range. (R421) -/
  | rosPurgeReceive (peer addr npg : Nat)
  /-- PAGE_WALK: A free walk unit takes a pending walk and walks the page table. (R419) -/
  | pageWalk (die : Bool)
  /-- ATS_COMPLETION: An ATS Translation Completion grants or refuses a host page. (R427) -/
  | atsCompletion (req : Nat) (a : AtsAnswer)
  /-- PRI_RESPONSE: A PRI response reruns, faults or disables page requests. (R428) -/
  | priResponse (prg : Nat) (code : PriCode)
  /-- INVALIDATE_REQUEST: An ATS Invalidate Request removes matching ATS-cache entries. (R429) -/
  | invalidateRequest (pasid addr size : Nat)
  /-- INVALIDATE_COMPLETION: Once accesses that used the old entries are performed, the Invalidate Completion is sent. (R429) -/
  | invalidateCompletion (k : Nat)
  /-- ACCESS_COUNTER_WRITE: A write of all ones frees an access counter. (R426) -/
  | accessCounterWrite (die : Bool) (i : Nat) (value : BitVec 16)
  /-- MISSED_CLEAR: A write of zero clears the MISSED count of a die. (R426) -/
  | missedClear (die : Bool) (value : Word)
  /-- BURST_CRC_FAIL: A burst fails its CRC and is replayed, taking the channel offline after eight failures. (R459) -/
  | burstCrcFail (b : BurstCrc)
  /-- STACK_TRAINING: A stack trains at bring-up or after leaving self-refresh. (R458) -/
  | stackTraining (stack : Nat) (passed : Option Nat)
  /-- REFRESH_TICK: A bank refresh falls due at tREFI. (R457) -/
  | refreshTick (stack : Refresh)
  /-- HEARTBEAT_MISS: Two missed base-die heartbeats make the memory controller take refresh ownership. (R462) -/
  | heartbeatMiss (stack : Nat)
  /-- HBM_BURST_SERVE: A pseudo-channel serves the eligible burst with the smallest fair-queuing tag. (R463) -/
  | hbmBurstServe (stack channel : Nat) (eligible : List Nat)
  /-- THERMAL_SAMPLE: Every 10 µs the thermal controller samples sensors and sets TEMP, ALLOW and REFX2. (R467) -/
  | thermalSample (cores hbm : List (BitVec 12))
  /-- THERMAL_POWER_DOWN: The MC powers the device down once the trip records are written. (R468) -/
  | thermalPowerDown 
  /-- POWER_ON_RESET: Power-on or reset starts bring-up, CLOCK at 0, and power sequencing. (R471) -/
  | powerOnReset 
  /-- RAILS_IN_RANGE: All rails in range for 10 ms completes step 1, and the MC verifies the firmware bundle. (R471) -/
  | railsInRange (inRange coolant : Bool) (slot0 slot1 : Bundle)
  /-- HBM_TRAINING_DONE: Every stack trained completes step 3 and starts optical calibration. (R471) -/
  | hbmTrainingDone 
  /-- OPTICAL_CALIBRATION_DONE: Every base lane LIVE or FAILED completes step 4 and starts PCIe training. (R471) -/
  | opticalCalibrationDone 
  /-- PCIE_LINK_UP: The PCIe link trains, which completes step 5. (R471) -/
  | pcieLinkUp (up : Option (Nat × Nat))
  /-- ETHERNET_LINK_DONE: Each front port is up or times out after 1 s, which completes step 6. (R471) -/
  | ethernetLinkDone (port0 port1 : Bool)
  /-- BASE_LANE_DEAD_TIMEOUT: A peer with no LIVE base lane 50 ms after step 4 starts gets its dead-peer bit. (R473) -/
  | baseLaneDeadTimeout (peer : Nat)
  /-- MEASUREMENT_EXTEND: The MC extends a measurement register when a routine entry first goes VALID. (R475) -/
  | measurementExtend (ten routine : Nat)
  /-- ATTESTATION_REQUEST: A nonce write requests an attestation report and clears RPT. (R476) -/
  | attestationRequest (nonce : BitVec 256)
  /-- REPORT_READY: The MC finishes the signed report and sets RPT. (R477) -/
  | reportReady (dbg : Bool)
  /-- REGISTER_CACHE_FILL: A missing register line arrives in the register cache, and the group's fragments become ready again. (R21) -/
  | registerCacheFill (g line : Nat)
  /-- EYE_RECENTRE_DONE: A channel's eye re-centring ends, and its waiting requests resume in order. (R458) -/
  | eyeRecentreDone (stack channel : Nat)
  /-- PRI_ENABLE: The host enables PRI again after a Response Failure disabled it. (R428) -/
  | priEnable 
  /-- FRONT_PORT_LINK_CHANGE: A front Ethernet port comes up, or goes down, after bring-up step 6. (R473) -/
  | frontPortLinkChange (port : Nat) (up : Bool)
  /-- CSR_HOST_READ: A host read at BAR0 of a wrong size or alignment, or of an unassigned number, returns all ones and counts in CSRVIOL. (R380) -/
  | csrHostRead (off size : Nat)
  deriving DecidableEq, Repr

end Sys2Proof
end

