-- ==== Sys2Proof/Machine/State.lean ====
section
/-! DEFINITION. State.lean: everything the spec gives the machine, as plain data, the reasons a step can stop, and the
state after reset. Identifiers of groups, teams and launches are positions in the lists that hold them; an entry is
never removed, it is marked finished. -/

namespace Sys2Proof.Machine

/-- Reasons the model stops. Raised only in states that no step of a run passes to `exec`: safe. -/
inductive Fault where
  /-- `exec` of an instruction word in a state whose `cur` names no live group (raised by the shared issue operation). Safe. -/
  | noFragment
  deriving DecidableEq, Repr

/-- Reasons for having no meaning. -/
inductive Refusal where
  /-- An instruction without a meaning yet; `Dispatch.lean` alone answers with it. Safe. -/
  | notModelled (mnemonic : String)
  deriving DecidableEq, Repr

/-! ## Registers and groups -/

/-- The lane states of 01 R13 and 21 R450. -/
inductive LaneState where
  | active | heldMeet | done | exited | heldW
  deriving DecidableEq, Repr

/-- What a thread owns beside its vector lanes (01 R13); p7 is hard-wired (02 R48) and has no bit here. -/
structure Lane where
  pc : Word
  mt : Word
  preds : BitVec 7
  st : LaneState
  /-- clock of the last issue of the lane's fragment (01 R22, R24) -/
  lastIss : Nat
  deriving DecidableEq, Repr

/-- A register tag: the exponent word and the field word (02 R50). -/
structure Tag where
  exps : Word
  field : BitVec 16
  deriving DecidableEq, Repr

/-- A vector register with its tag (02 R46). -/
structure VReg where
  lanes : List Lane32
  tag : Tag
  deriving DecidableEq, Repr

/-- Names of registers for the scoreboards (06 R163, R164). -/
inductive RegName where
  | v (r : Nat)
  | s (r : Nat)
  | p (r : Nat)
  | b (r : Nat)
  | d (r : Nat)
  | ufc
  deriving DecidableEq, Repr

/-- One element written by a word. -/
inductive RegWrite where
  | v (r lane : Nat) (x : Lane32)
  | fld (r : Nat) (x : BitVec 16)
  | exp (r blk : Nat) (x : BitVec 8)
  | s (r : Nat) (x : Word)
  | p (r lane : Nat) (x : Bool)
  | b (r : Nat) (x : Rec256)
  | d (r : Nat) (x : Lane32)
  | ufcAdd (n : Nat)
  | ufcSet (x : BitVec 32)
  deriving DecidableEq, Repr

/-- A fixed-latency result on its way (06 R160-R165): `due` is T + L, `cyc` the clock at which the pipe has finished. -/
structure FixedWrite where
  due : Nat
  seq : Nat
  regs : List RegName
  writes : List RegWrite
  deriving DecidableEq, Repr

/-- A wait token held by a fixed-latency word. -/
structure FixedToken where
  tok : Nat
  due : Nat
  cyc : Nat
  deriving DecidableEq, Repr

/-- The refill point (01 R34). -/
structure Refill where
  addr : Word
  exit : Word
  dest : Nat
  deriving DecidableEq, Repr

/-- Ordering kinds (05 R120) and owners (20 R414). -/
inductive Kind where
  | rc | so | un
  deriving DecidableEq, Repr
inductive Owner where
  | here
  | peer (n : Nat)
  | host
  deriving DecidableEq, Repr

/-- One access to global memory after translation, inside one line: at most 16 bytes of a lane, or an exponent or chunk of a
plane set. -/
structure Acc where
  lane : Nat
  va : Nat
  pa : Nat
  size : Nat
  own : Owner
  kind : Kind
  ros : Bool
  cnt : Bool
  /-- the bytes to write, or the operands of an atomic; empty for a read -/
  data : List Byte := []
  /-- the bits a store writes in each byte (10 R260); empty where it writes all -/
  mask : List Byte := []
  /-- depth class: 0, or j + 1 for plane j (04 R104) -/
  depth : Nat := 0
  /-- number under which the access was forwarded to its peer -/
  fwd : Option Nat := none
  deriving DecidableEq, Repr

/-- What a plane load needs of one assembled line (04 R98, R99): its index, the exponent chunk, the 16-byte pieces of the
planes it fetches (`lane` is the plane), and its identity. -/
structure AsmReq where
  a : Nat
  exp : Acc
  pieces : List Acc
  pstride : Nat
  mw : Nat
  /-- key of the plane-0 piece (its owner and physical address), where it translates -/
  p0 : Option Nat
  deriving DecidableEq, Repr

/-- What a plane load or refine does with its lines (10 R258, R259): destination, first element, EXTENT, planes wanted, planes
already held (refine), the field word, the participating lanes still to be written, vD as it stood at issue (06 R164), and the
writes known so far. -/
structure PlaneJob where
  d : Nat
  o : Int
  extent : Nat
  kk : Nat
  p : Nat
  field : BitVec 16
  fresh : Bool
  refine : Bool
  part : List Nat
  old : List Lane32
  known : List RegWrite
  deriving DecidableEq, Repr

/-- A scratchpad access of one lane: team-space address and size. -/
structure SAcc where
  lane : Nat
  addr : Nat
  size : Nat
  deriving DecidableEq, Repr

/-- The fields of a continuation record (19 R397). -/
structure CRec where
  code : Nat
  frame : Nat
  join : Nat
  cmpl : Nat
  teams : Nat
  prog : Nat
  slvl : Bool
  band : Nat
  iqs : Nat
  chtix : Nat
  /-- the reserved bits of CTL and bytes 63:39 are zero -/
  rsvOk : Bool
  deriving DecidableEq, Repr

/-- The fields of a kernel header (19 R398). -/
structure Header where
  magic : Nat
  gw : Nat
  cores : Nat
  regs : Nat
  acc : Nat
  teamSz : Nat
  scr : Nat
  queues : Nat
  prog : Nat
  chan : Nat
  doff : Nat
  dlen : Nat
  dalign : Nat
  rsvOk : Bool
  deriving DecidableEq, Repr

/-- What an issued word still has to do. -/
inductive OKind where
  /-- A global load: accesses, size code, destination, `.fresh`, and writes known at issue. -/
  | load (accs : List Acc) (sz d : Nat) (fresh : Bool) (known : List RegWrite)
  /-- A plane load or refine: the lines it has still to read. -/
  | plane (reqs : List AsmReq) (job : PlaneJob)
  /-- A store; plane stores write masked bytes. -/
  | store (accs : List Acc)
  /-- A result known at issue that lands later. -/
  | land (ws : List RegWrite)
  /-- The result of a `joinc` that has been performed: it lands, and no late fault takes it back (07 R195). -/
  | owed (ws : List RegWrite)
  /-- Data that turned out uncorrectable, with the lowest lane that wants it: its landing is the late fault of 21 R497. -/
  | bad (lane va : Nat)
  /-- Atomics not all performed at issue, with operation and type: those on SO pages that follow one of a peer's in lane order,
  and those of peers; whether old values are returned to `d`, and the writes known so far. -/
  | fwdAtom (accs : List Acc) (op ty : Nat) (ret : Bool) (d : Nat) (known : List RegWrite)
  /-- A `joinc` on a peer-owned page. -/
  | fwdJoin (acc : Acc) (d : Nat)
  /-- A tile operation in the core's queue. -/
  | tile
  /-- A `cget`: first address in the team space, length, bytes still to arrive, counter granule. -/
  | cget (addr len left : Nat) (ctr : Option Nat)
  /-- A `catom`: whether it returns the old value, destination, type, channel. -/
  | catom (ret : Bool) (d t : Nat)
  /-- A barrier wait: barrier and the phase it waits to leave. -/
  | barWait (i : Nat) (phase : Bool)
  /-- `lds.fe`: pending lanes, take, size code, destination. -/
  | feLoad (pend : List SAcc) (take : Bool) (sz d : Nat)
  /-- `acc.ld.fe`: tile, address, granules still to be found full, granules read so far. -/
  | accLdFe (tile addr : Nat) (pend : List Nat) (got : List (Nat × List Byte))
  /-- `fe.wait`: granule addresses still to be found full. -/
  | feWait (pend : List Nat)
  /-- `arrwait`: counter address, destination, deadline. -/
  | arrWait (addr d : Nat) (deadline : Option Nat)
  /-- `qwait`: for each queue the accepted count to reach. -/
  | qWait (upto : List (Nat × Nat))
  /-- `tokwait`. -/
  | tokWait
  /-- `spawn`: Sward has not accepted its record yet. -/
  | spawn
  /-- `lease`: destination, lease id, lanes granted. -/
  | lease (d id lanes : Nat)
  /-- `gwalk`: its descriptor address, steps, done steps, distances; and what a step that waits has read (12 R308). -/
  | gwalk (x n done dist d : Nat) (brec : Rec256) (scope : Nat) (reads : List (Nat × List Byte))
  deriving DecidableEq, Repr

/-- A word that has issued and not completed (06 R164, R166). `held` are the lanes of its fragment that wait with it. -/
structure OWord where
  id : Nat
  pc : Word
  next : Word
  tok : Option Nat
  dests : List RegName
  held : List Nat
  /-- scope of an acquire and of a release it carries, 0 for none (10 R245) -/
  acq : Nat
  rel : Nat
  isLoad : Bool
  isStore : Bool
  /-- every access it has still to perform lies on UN pages (05 R128) -/
  unOnly : Bool
  /-- some access it has still to perform lies on an SO page (05 R120) -/
  so : Bool
  kind : OKind
  deriving DecidableEq, Repr

/-- Wait reasons of 21 R500. -/
inductive Wait where
  | hostPage | barrier | fullEmpty | arr | queue | token | room | itemRoom | bandRoom | frame | walkSlot | acks
  | other
  deriving DecidableEq, Repr

/-- A fault as the record of 21 R445 needs it. `late` marks the faults of R497, which resume without reissue; `lanes`
are the lanes of the faulting fragment and `next` the word after it; `cont` says that action 0 continues there (BREAK). -/
structure Flt where
  code : Nat
  cls : Nat
  lane : Nat
  info : Nat
  pc : Word
  vaddr : Nat
  late : Bool
  lanes : List Nat
  next : Word
  cont : Bool
  time : Nat
  deriving DecidableEq, Repr

/-- Whether a group runs (19 R408, 21 R443). -/
inductive Stage where
  | running
  /-- a fault was taken; outstanding words are completing -/
  | stopping
  /-- the record is written (or waits in the device); an answer is awaited -/
  | awaiting
  /-- pre-empted with its team -/
  | saved
  | retired
  deriving DecidableEq, Repr

/-- A group (01 R13). -/
structure Group where
  team : Nat
  gidx : Nat
  gw : Nat
  core : Nat
  quarter : Nat
  sliceOff : Nat
  levelS : Bool
  lanes : List Lane
  v : List VReg
  s : List Word
  b : List Rec256
  d : List Lane32
  /-- wait tokens held by variable-latency words (02 R49) -/
  w : List Nat
  ufc : BitVec 32
  chk : Bool
  refill : Option Refill
  fairness : Nat
  rphase : BitVec 16
  rvalid : BitVec 16
  /-- T and STALL of the last issued word (06 R160) -/
  t : Nat
  stall : Nat
  issued : Bool
  /-- clock from which the group may issue again -/
  readyAt : Nat
  seq : Nat
  fixed : List FixedWrite
  ftoks : List FixedToken
  outst : List OWord
  /-- fragment whose fetch is suspended (05 R147) and its wait reason -/
  suspend : Option (Word × Wait)
  /-- when the suspended word began to wait -/
  since : Nat
  /-- fragments found unready in this cycle -/
  blocked : List Word
  /-- why the word at an address is not ready, where 21 R500 has a code for it -/
  waits : List (Word × Wait)
  sticky : List Nat
  /-- lanes of the fragment whose stickiness has ended: one that shares a slice with it takes the next issue (01 R24, 06 R156) -/
  forced : List Nat
  lastIssue : Nat
  readySince : Option Nat
  promoted : Bool
  /-- registers whose lines are not in the register cache, and those whose miss is being served (01 R21) -/
  missing : List Nat
  fills : List Nat
  /-- scratchpad pages of the team space that the suspended word waits for (20 R436) -/
  want : List Nat
  /-- the word that has subtracted its bytes from ALLOW and waits for its release or for frames (14 R334, R340) -/
  paid : Option Word
  /-- the group's latest `fence.rel` that may still order something: the words before this number come before later stores (05 R135) -/
  fence : Option Nat
  stage : Stage
  /-- the fault being taken or awaiting its answer, and further faults held (21 R443) -/
  faults : List Flt
  /-- SEQ of the record that awaits its answer -/
  answer : Option Nat
  /-- lanes that leave a word when the group resumes, by the answers given (21 R447): lanes, the word, the next word -/
  advance : List (List Nat × Word × Word)
  /-- clock at which its image was written: fixed-latency waits count from there when it resumes (06 R165) -/
  stopAt : Nat
  /-- the token was held when the group stopped (02 R66, information only) -/
  hadToken : Bool
  deriving DecidableEq, Repr

/-! ## Teams and launches -/

/-- The life states of 19 R408. -/
inductive Life where
  | queued | running | stopping | saved | halted | finished | discarded
  deriving DecidableEq, Repr

/-- A barrier (13 R324); `form` 0 default, 1 sB, 2 no arrival yet in the phase (21 R449). -/
structure Bar where
  count : Nat
  target : Nat
  phase : Bool
  form : Nat
  /-- groups that have arrived in the phase (13 R325) -/
  arrived : List Nat
  deriving DecidableEq, Repr

/-- A command of an engine queue (13 R311). -/
inductive CmdOp where
  | pcopy (x k : Nat) | pcopyRf (x k : Nat) | pstore (x k : Nat)
  | pfill (x : Nat) (val : Lane32) (fe : Nat)
  | pxform (x routine pol param dir : Nat) (entry : Option (Nat × Nat))
  | qmark (val : Word) (count : Nat)
  | qfence (mask : Nat) (upto : List (Nat × Nat))
  deriving DecidableEq, Repr
structure Cmd where
  pc : Word
  op : CmdOp
  /-- scratchpad address in the team space -/
  addr : Nat
  brec : Rec256
  off : Int
  levelS : Bool
  core : Nat
  /-- the group that issued it, and the number of the word -/
  g : Nat
  seq : Nat
  /-- count of this command in the queue, from 1 -/
  ord : Nat
  /-- words of groups that a `.rel` command follows: (group, word) pairs still outstanding (05 R140) -/
  after : List (Nat × Nat)
  /-- lines of it that have been carried out (13 R313) -/
  pos : Nat
  /-- it has been carried out, and what it forwarded to peers is not acknowledged yet (05 R139) -/
  performed : Bool
  deriving DecidableEq, Repr

/-- A team's engine queue (13 R311, R321). -/
structure EngQueue where
  accepted : Nat
  completed : Nat
  pending : List Cmd
  halted : Bool
  /-- underlying code, command address, failing address -/
  flt : Option (Nat × Word × Nat)
  seq : Nat
  /-- since when its command waits for a scratchpad frame (20 R436) -/
  starve : Option Nat
  deriving DecidableEq, Repr

/-- A live lease (14 R347): the lanes it holds, each with the peer it was taken from (none: the pool) and the time. -/
structure LeaseLane where
  lane : Nat
  donor : Option Nat
  since : Nat
  deriving DecidableEq, Repr
structure Lease where
  id : Nat
  peer : Nat
  lanes : List LeaseLane
  expiry : Nat
  deriving DecidableEq, Repr

/-- A team (01 R13). -/
structure Team where
  launch : Nat
  idx : Nat
  ten : Nat
  slot : Nat
  life : Life
  cluster : Nat
  /-- core number (0-255) of each slot of the team -/
  cores : List Nat
  groups : List Nat
  bars : List Bar
  queues : List EngQueue
  items : List (List Word)
  /-- physical tiles of a0 … on each core (02 R62) -/
  tmap : List (List Nat)
  leases : List Lease
  nextLease : Nat
  startAt : Nat
  /-- order of its last admission, and of its first (19 R407, 18 R387) -/
  admitNo : Nat
  firstAdmit : Nat
  /-- it was pre-empted while CLMASK did not hold its cluster (18 R384, 19 R407) -/
  masked : Bool
  /-- it was pre-empted for heat and resumes at once when its cluster takes it (19 R407) -/
  hot : Bool
  /-- pinned pages that must be resident before it issues again (20 R437) -/
  pins : List Nat
  /-- saved teams of the launch that must start before this one is admitted again, and whether every team that has never
  started must (01 R32) -/
  barred : List Nat
  barAll : Bool
  deriving DecidableEq, Repr

/-- Where a record came from (19 R397-R401). -/
inductive Origin where
  | window | datagram (src port : Nat) (head : List Byte) (reply : Bool) | mc | spawn | join
  deriving DecidableEq, Repr

/-- A launch (01 R13). -/
structure Launch where
  ten : Nat
  crec : CRec
  hdr : Header
  crva : Nat
  origin : Origin
  band : Nat
  order : Nat
  /-- teams created so far -/
  started : List Nat
  tfin : Nat
  tstart : Nat
  tend : Nat
  /-- status that a discard left (0x20-0x22) and the fault code -/
  abort : Option (Nat × Nat)
  completed : Bool
  /-- an `assert` of the launch is unanswered (13 R328) -/
  halted : Bool
  /-- clusters that pre-emption picked for its teams, by TEAM number (19 R407) -/
  picks : List (Nat × Nat)
  /-- how far its completion has come (19 R410): 0 it runs, 1 bytes 31:8 are written, 2 STAT is written, 3 the join and the reply
  are due; the status and fault code found, and whether a record was written -/
  phase : Nat
  final : Nat × Nat
  written : Bool
  deriving DecidableEq, Repr

/-! ## Tenancies -/

/-- A fault record that waits inside the device (21 R445), with what it concerns. -/
inductive FTarget where
  | group (g : Nat) | launch (l g : Nat) | queue (team q : Nat) | nobody
  deriving DecidableEq, Repr
structure FRec where
  flt : Flt
  team : Nat
  gidx : Nat
  cluster : Nat
  cr : Nat
  cslot : Nat
  target : FTarget
  seq : Nat
  /-- it is written with STATE 3: its tenancy's work, or its launch, was discarded (21 R452) -/
  void : Bool := false
  deriving DecidableEq, Repr

/-- A shoot-down in progress (20 R421, R422). -/
structure Shoot where
  seq : Nat
  op : Nat
  addr : Nat
  npg : Nat
  /-- words that used an old entry, and accesses of engines and of Sward on their way to peers -/
  waits : List (Nat × Nat)
  acks : List Nat
  peers : List Nat
  deriving DecidableEq, Repr

/-- A record that a group has handed to Sward (19 R401, R402 step 7, R499): its address, the team, the group and, for a `spawn`,
the word that waits for it, and the record's bytes once Sward has read them. -/
structure JoinRec where
  va : Nat
  team : Nat
  g : Option Nat
  word : Option Nat
  bytes : Option (List Byte)
  deriving DecidableEq, Repr

/-- A tenancy (18 R382). -/
structure Tenancy where
  /-- TNCFG words 0-15 -/
  cfg : List Word
  nslot : Nat
  slotsz : Nat
  bands : List (List Nat)
  winAccepted : Word
  winDropped : Word
  fqNext : Nat
  fqLost : Word
  fqDropped : Word
  fqWait : List FRec
  fqDone : List FRec
  xDone : Word
  xDropped : Word
  shoots : List Shoot
  /-- records that groups have handed over and Sward has not taken yet, oldest first -/
  joinWait : List JoinRec
  deriving DecidableEq, Repr

/-! ## Cores -/

/-- A raw L1 line (04 R98). -/
structure RawLine where
  line : Nat
  kind : Kind
  ros : Bool
  bytes : List Byte
  deriving DecidableEq, Repr

/-- An assembled L1 line with its identity (04 R98): chunks are named by keys, which tell owner and physical address. -/
structure AsmLine where
  exp : Nat
  p0 : Nat
  pstride : Nat
  mw : Nat
  /-- some chunk of it lies on an RC page that is not read-only shared: an acquire drops it (04 R101, 05 R132) -/
  rc : Bool
  bytes : List Byte
  exps : List Byte
  pln : Nat
  /-- key of each plane piece present -/
  pieces : List Nat
  deriving DecidableEq, Repr

/-- A cached leaf (20 R418): tenancy, first virtual address, size, leaf. -/
structure TlbEnt where
  ten : Nat
  va : Nat
  size : Nat
  leaf : Word
  deriving DecidableEq, Repr

/-- A cached table entry of a walk cache: level, virtual address prefix, entry. -/
structure WalkEnt where
  ten : Nat
  level : Nat
  va : Nat
  ent : Word
  deriving DecidableEq, Repr

/-- A cached L0 entry (20 R433). -/
structure StbEnt where
  team : Nat
  page : Nat
  ent : Word
  deriving DecidableEq, Repr

/-- A scratchpad frame that holds a page (04 R107, R110). -/
structure Frame where
  no : Nat
  team : Nat
  page : Nat
  data : List Host.Cell
  fe : BitVec 256
  lastUse : Nat
  /-- words of 4 bytes, by number in the page, that cannot be corrected (21 R453) -/
  bad : List Nat
  deriving DecidableEq, Repr

/-- Tile operations (11 R271). `act` are the participating lanes, `frag` the active lanes of the fragment at issue. -/
inductive TOp where
  | mma (sr : Nat) (desc : Lane32) (a b : List VReg)
  | zero (x : Lane32)
  | rd (exp : Bool) (row0 nr d : Nat) (act frag : List Nat)
  | max (col mrg : Bool) (d : Nat) (old : List VReg) (act frag : List Nat)
  | scl (scale bias : List Lane32)
  | ld (vals : List Lane32)
  | drn (addr : Nat) (z : Bool)
  deriving DecidableEq, Repr
structure TileOp where
  g : Nat
  word : Nat
  pc : Word
  tile : Nat
  phys : Nat
  op : TOp
  deriving DecidableEq, Repr

/-- A drain granule on its way (05 R143). -/
structure Drain where
  team : Nat
  g : Nat
  addr : Nat
  bytes : List Byte
  deriving DecidableEq, Repr

/-- A core (00 R4). -/
structure Core where
  l1 : List RawLine
  asm : List AsmLine
  tlb : List TlbEnt
  stb : List StbEnt
  frames : List Frame
  /-- frames that hold no page now, with their last use (20 R435) -/
  freed : List (Nat × Nat)
  tiles : List (Nat × List Lane32)
  tileOwner : List (Nat × Nat)
  ops : List TileOp
  drains : List Drain
  /-- holder of each quarter's issue-priority token -/
  token : List (Option Nat)
  /-- accepted `gwalk` words in order: group and word -/
  walks : List (Nat × Nat)
  temp : BitVec 12
  floor : BitVec 8
  allow : BitVec 8
  lowSamples : Nat
  tripSamples : Nat
  lastMove : Option Nat
  /-- clocks of its issues in the last 256 cycles (22 R468) -/
  gate : List Nat
  deriving DecidableEq, Repr

/-- A walk that waits (20 R418, R419). -/
structure PendWalk where
  ten : Nat
  page : Nat
  /-- the instructions that wait for it: group or other requester, and address -/
  raisers : List (Nat × Word)
  /-- cores whose lines wait for it -/
  cores : List Nat
  since : Nat
  deriving DecidableEq, Repr

/-- A cached ATS completion (20 R427). -/
structure AtsEnt where
  pasid : Nat
  hva : Nat
  size : Nat
  r : Bool
  w : Bool
  hpa : Nat
  deriving DecidableEq, Repr

/-- An ATS or PRI request in flight or waiting (20 R427, R428). -/
structure AtsReq where
  id : Nat
  ten : Nat
  pasid : Nat
  page : Nat
  die : Bool
  g : Nat
  needR : Bool
  needW : Bool
  /-- 0 translation request, 1 page request in flight, 2 page request waiting, 3 page granted, 4 refused -/
  phase : Nat
  deriving DecidableEq, Repr

/-- An access counter in use (20 R426). -/
structure Counter where
  idx : Nat
  frame : Nat
  src : Nat
  count : Nat
  deriving DecidableEq, Repr

/-- A line held in L2 or the MSC with its depth class and age (04 R104). -/
structure DepthLine where
  line : Nat
  cls : Nat
  used : Nat
  dirty : Bool
  deriving DecidableEq, Repr

/-- A die (00 R4): clusters' TLBs stand here too. -/
structure Die where
  walkCache : List WalkEnt
  pend : List PendWalk
  /-- instructions of which a unit has started a walk (20 R419) -/
  walking : List (Nat × Word)
  ats : List AtsEnt
  counters : List Counter
  missed : Word
  /-- lines of the L2 slices and of the MSC, newest first -/
  l2 : List DepthLine
  msc : List DepthLine
  /-- ECCCOR, ECCUNC, LCRCERR, LREPLAY, SRAMCOR, SRAMUNC, PARITY, RESIDUE, UNCONT -/
  errs : List Word
  /-- POISON entries in use: index and line address -/
  poison : List (Nat × Nat)
  /-- lines of the die's stacks whose data cannot be corrected (21 R453) -/
  faulty : List Nat
  deriving DecidableEq, Repr

/-- A waiting burst of a pseudo-channel with its tag, a fraction (22 R463); `zero` marks the second sequence, `mc` an access of the MC,
which takes no tag. -/
structure Burst where
  mc : Bool
  ten : Nat
  zero : Bool
  num : Nat
  den : Nat
  /-- the tenancy's previous tag in that sequence when this one was taken -/
  prev : Nat × Nat
  deriving DecidableEq, Repr

/-- One pseudo-channel that has state (22 R459, R463); `key` is 64 × stack + 2 × channel + half. -/
structure Pseudo where
  key : Nat
  /-- replays made of the burst that is being replayed -/
  replays : Nat
  bursts : List Burst
  /-- tag of the burst last served, and of the zero-weight burst last served -/
  v : Nat × Nat
  v0 : Nat × Nat
  /-- a tenancy's previous tag in a sequence -/
  last : List (Nat × Bool × Nat × Nat)
  deriving DecidableEq, Repr

/-- An HBM4E stack (22 R461). -/
structure Stack where
  offl : BitVec 32
  owner : Bool
  refx2 : Bool
  trnd : Bool
  temp : BitVec 12
  /-- refresh commands issued since reset: to all banks, and to one bank (22 R457) -/
  refreshes : Nat
  perBank : Nat
  /-- consecutive heartbeats of the base die missed (22 R462) -/
  missed : Nat
  /-- it is in self-refresh (22 R457) -/
  selfRef : Bool
  trainFails : Nat
  tripSamples : Nat
  cap : Nat
  /-- CRC errors of the last millisecond: channel and time -/
  crc : List (Nat × Nat)
  recentring : List Nat
  deriving DecidableEq, Repr

/-! ## Optics and fabric -/

/-- The lane states of 22 R464. -/
inductive OState where
  | dark | tuning | live | failed
  deriving DecidableEq, Repr

/-- An optical lane that has left its reset state. -/
structure OLane where
  lane : Nat
  st : OState
  chan : Nat
  since : Nat
  /-- peer it is being retuned or is tuned to -/
  peer : Option Nat
  /-- peer of the flit that it still sends until `since`, when it leaves LIVE by retuning or going dark (14 R349) -/
  flit : Option Nat
  deriving DecidableEq, Repr

/-- What the device knows of a packet it has sent (14 R339, R345). -/
inductive SentKind where
  | send | put | get | atom | fwdStore | fwdLoad | purge | join
  /-- accesses that engines forward to a peer's page, and those of Sward, of the walk units and of words that are performed at issue
  (05 R137, 14 R345); `g` is then the number of the requester -/
  | engLoad | engStore | swLoad | swStore
  deriving DecidableEq, Repr
structure Sent where
  id : Nat
  kind : SentKind
  peer : Nat
  team : Nat
  g : Nat
  word : Nat
  /-- physical address of the channel entry (for NACK), or of the peer's bytes; and the virtual address of those -/
  entry : Nat
  va : Nat
  at_ : Nat
  timeout : Nat
  bytes : Nat
  chan : Nat
  refused : Bool
  /-- the peer is dead: the acknowledgement will never come -/
  lost : Bool
  /-- the bytes that the owner has returned to an engine, to Sward or to a word performed at issue -/
  got : Option (List Byte)
  deriving DecidableEq, Repr

/-- What the device has sent to the outside world. -/
inductive Out where
  | reply (dst port : Nat) (payload : List Byte)
  | packet (peer : Nat) (secure : Bool) (rten rep addr : Nat) (bytes : List Byte) (ctr : Option Nat) (id : Nat)
  | request (peer : Nat) (secure : Bool) (rten rep off : Nat) (op : RemoteOp) (id : Nat)
  /-- an access to a peer's page, with its world and its tenancy (20 R425) -/
  | forward (peer : Nat) (secure : Bool) (ten pa : Nat) (cnt : Bool) (op : RemoteOp) (id : Nat)
  | purge (peer addr npg : Nat)
  /-- what this device answers to a peer -/
  | ack (peer : Nat) (a : AckIn)
  | translationRequest (id pasid page : Nat)
  | pageRequest (id pasid page : Nat) (r w : Bool)
  | invalidateDone (pasid addr size : Nat)
  | hostReturn (value : Word)
  | mcReturn (value : Word)
  deriving DecidableEq, Repr

/-- An ATS invalidation in progress (20 R429). -/
structure Inval where
  pasid : Nat
  addr : Nat
  size : Nat
  waits : List (Nat × Nat)
  acks : List Nat
  deriving DecidableEq, Repr

/-- A purge of a peer that is not acknowledged yet (20 R421, R422). -/
structure Purge where
  peer : Nat
  /-- first address and bytes of the range -/
  addr : Nat
  size : Nat
  waits : List (Nat × Nat)
  acks : List Nat
  deriving DecidableEq, Repr

/-- Traffic bookkeeping of a peer (14 R347, R348; 22 R466). -/
structure PeerUse where
  peer : Nat
  /-- bytes sent and when the lanes have carried them, newest first -/
  sent : List (Nat × Nat)
  /-- since when traffic has been queued, and when what is queued will have been sent (log 26) -/
  queuedSince : Nat
  freeAt : Nat
  lastReclaim : Option Nat
  /-- when the last LIVE lane left LIVE -/
  darkSince : Option Nat
  deriving DecidableEq, Repr

/-! ## The machine -/

/-- What the outside world, or the choice among enabled steps, gives the next step (log 3). -/
inductive Input where
  | event (i : Instr)
  | issue (g : Nat) (pc : Word)
  | hostStore (pa : Nat) (bytes : List Byte)
  /-- a burst begins to wait at a pseudo-channel (22 R463): of the MC (none), or of the tenancy for which it runs, whichever unit it comes
  from: a group, an engine, a page walk, a context save or the pager -/
  | burst (key : Nat) (ten : Option Nat)
  /-- the MC puts a stack into self-refresh, or takes it out (22 R457) -/
  | selfRefresh (stack : Nat) (enter : Bool)
  /-- a heartbeat of a stack's base die arrives (22 R462) -/
  | heartbeat (stack : Nat)
  /-- a read of the PCIe link status in configuration space (23 R473) -/
  | linkStatusRead
  /-- a read of the host at a BAR -/
  | hostRead (bar off size : Nat)
  /-- a read of the MC through its own port (18 R380) -/
  | mcRead (off size : Nat)
  | hostMemStore (hpa : Nat) (bytes : List Byte)
  deriving DecidableEq, Repr

/-- Bring-up state of the MC (23). -/
structure Boot where
  /-- last step completed -/
  step : Nat
  hold : Bool
  failc : Nat
  hbmf : BitVec 12
  rpt : Bool
  rcv : Bool
  building : Bool
  meas : List (BitVec 512)
  nonce : BitVec 256
  report : List Byte
  bootcnt : Word
  svn : Nat
  bundleSvn : Nat
  cfg : FwConfig
  calAt : Option Nat
  /-- peers without a LIVE base lane 50 ms after step 4 started, whose dead-peer bit is still to be set (23 R473) -/
  deadBase : List Nat
  /-- width and speed code that the PCIe link has trained to (23 R473) -/
  link : Nat × Nat
  /-- routine numbers already measured: tenancy and routine -/
  measured : List (Nat × Nat)
  deriving DecidableEq, Repr

structure State where
  clock : Nat
  mem : List Host.Cell
  hostMem : List Host.Cell
  groups : List Group
  teams : List Team
  launches : List Launch
  tens : List Tenancy
  /-- tenancy last admitted from, per band (19 R404) -/
  rotation : List Nat
  orders : Nat
  admits : Nat
  cores : List Core
  /-- cluster TLBs (20 R418) -/
  ctlb : List (List TlbEnt)
  dies : List Die
  hbm : List Stack
  pseudo : List Pseudo
  optics : List OLane
  deadpeer : List Word
  srcto : BitVec 16
  csrviol : BitVec 32
  sent : List Sent
  nextId : Nat
  flits : List (Nat × Nat)
  peers : List PeerUse
  atsReqs : List AtsReq
  priOn : Bool
  invals : List Inval
  purges : List Purge
  boot : Boot
  ports : List Bool
  pcie : Bool
  power : Bool
  /-- thermal trip under way: the MC powers down when the records are written (22 R468) -/
  tripped : Bool
  inputs : List Input
  cur : Option (Nat × Word)
  /-- the model's counter of free values drawn (log 12) -/
  free : Nat
  outbox : List Out
  deriving DecidableEq, Repr

/-! ## Reset -/

/-- A core after reset (18 R389, 01 R43; the other fields log 13). -/
def Core.reset : Core :=
  { l1 := [], asm := [], tlb := [], stb := [], frames := [], freed := [], tiles := [], tileOwner := [], ops := [], drains := [],
    token := [none, none, none, none], walks := [], temp := 0#12, floor := Config.floorReset,
    allow := Config.allowReset, lowSamples := 0, tripSamples := 0, lastMove := none, gate := [] }

def Tenancy.reset : Tenancy :=
  { cfg := List.replicate 16 0#64, nslot := 0, slotsz := 0, bands := List.replicate 8 [], winAccepted := 0#64,
    winDropped := 0#64, fqNext := 1, fqLost := 0#64, fqDropped := 0#64, fqWait := [], fqDone := [], xDone := 0#64,
    xDropped := 0#64, shoots := [], joinWait := [] }

def Die.reset : Die :=
  { walkCache := [], pend := [], walking := [], ats := [], counters := [], missed := 0#64, l2 := [], msc := [],
    errs := List.replicate 9 0#64, poison := [], faulty := [] }

def Stack.reset : Stack :=
  { offl := 0#32, owner := false, refx2 := false, trnd := false, temp := 0#12, refreshes := 0, perBank := 0, missed := 0, selfRef := false,
    trainFails := 0, tripSamples := 0, cap := 255, crc := [], recentring := [] }

def Boot.reset : Boot :=
  { step := 0, hold := false, failc := 0, hbmf := 0#12, rpt := false, rcv := false, building := false,
    meas := List.replicate 8 0#512, nonce := 0#256, report := List.replicate 768 0#8, bootcnt := 0#64, svn := 0,
    bundleSvn := 0,
    cfg := { routes := [], ports := [], imports := [], windows := [], carve := [0, 0], device := 0 },
    calAt := none, deadBase := [], link := (0, 0), measured := [] }

/-- The machine at the release of reset (18 R380-R392, 21 R455, 22 R461, 23 R471; log 1, 13). -/
def State.reset : State :=
  { clock := 0, mem := [], hostMem := [], groups := [], teams := [], launches := [],
    tens := List.replicate Config.nTenancies Tenancy.reset, rotation := List.replicate 8 15, orders := 0, admits := 0,
    cores := List.replicate Config.nCores Core.reset, ctlb := List.replicate 16 [],
    dies := List.replicate 2 Die.reset, hbm := List.replicate Config.nStacks Stack.reset, pseudo := [],
    optics := [], deadpeer := List.replicate 4 0#64, srcto := Config.srctoReset, csrviol := 0#32, sent := [], nextId := 0,
    flits := [], peers := [], atsReqs := [], priOn := true, invals := [], purges := [], boot := Boot.reset,
    ports := [false, false], pcie := false, power := true, tripped := false, inputs := [], cur := none, free := 0,
    outbox := [] }

end Sys2Proof.Machine
end

