-- ==== Sys2Proof/Machine/Mem.lean ====
section
/-! DEFINITION. Mem.lean: access to the parts of the state, home memory (04 R114-R116), the poisoned lists (21 R454),
depth classes (04 R104) and the L1 (04 R98-R102, 05 R132). -/

namespace Sys2Proof.Machine

/-! ## Parts of the state -/

/-- Apply `f` to entry `i` of a list; nothing where there is none. -/
def modAt {α : Type} : List α → Nat → (α → α) → List α
  | [], _, _ => []
  | x :: xs, 0, f => f x :: xs
  | x :: xs, n + 1, f => x :: modAt xs n f

def State.modGroup (s : State) (g : Nat) (f : Group → Group) : State := { s with groups := modAt s.groups g f }
def State.modTeam (s : State) (t : Nat) (f : Team → Team) : State := { s with teams := modAt s.teams t f }
def State.modLaunch (s : State) (l : Nat) (f : Launch → Launch) : State := { s with launches := modAt s.launches l f }
def State.modTen (s : State) (t : Nat) (f : Tenancy → Tenancy) : State := { s with tens := modAt s.tens t f }
def State.modCore (s : State) (c : Nat) (f : Core → Core) : State := { s with cores := modAt s.cores c f }
def State.modDie (s : State) (d : Bool) (f : Die → Die) : State := { s with dies := modAt s.dies d.toNat f }
def State.modStack (s : State) (k : Nat) (f : Stack → Stack) : State := { s with hbm := modAt s.hbm k f }
def State.emit (s : State) (o : Out) : State := { s with outbox := s.outbox ++ [o] }

def State.core (s : State) (c : Nat) : Core := s.cores.getD c Core.reset
def State.ten (s : State) (t : Nat) : Tenancy := s.tens.getD t Tenancy.reset
def State.die (s : State) (d : Bool) : Die := s.dies.getD d.toNat Die.reset
def State.stack (s : State) (k : Nat) : Stack := s.hbm.getD k Stack.reset

/-- The cluster and the die of a core (00 R4, 01 R15); cores are numbered 16 × CLUSTER + CORE. -/
def clusterOf (core : Nat) : Nat := core / 16
def dieOfCluster (cl : Nat) : Bool := 8 ≤ cl
def dieOf (core : Nat) : Bool := dieOfCluster (clusterOf core)

/-- The smallest free value of the model's counter, and the state that has drawn it (log 12). -/
def State.draw (s : State) : BitVec 64 × State := (Config.freeValue s.free, { s with free := s.free + 1 })

/-- `n` free bytes: what comes back where a peer's answer is not known to the device (log 12). -/
def State.freeBytes (s : State) : Nat → List Byte × State
  | 0 => ([], s)
  | n + 1 =>
    let (w, s) := s.draw
    let (bs, s) := s.freeBytes n
    (w.setWidth 8 :: bs, s)

/-- Count an event of an error block, saturating (21 R455). Indices: 0 ECCCOR, 1 ECCUNC, 2 LCRCERR, 3 LREPLAY,
4 SRAMCOR, 5 SRAMUNC, 6 PARITY, 7 RESIDUE, 8 UNCONT. -/
def State.countErr (s : State) (d : Bool) (i : Nat) : State :=
  s.modDie d fun x => { x with errs := modAt x.errs i fun c => if c = (-1#64) then c else c + 1#64 }

/-! ## TNCFG fields (18 R382) -/

/-- Record bits `lo + len - 1 : lo` of a tenancy record. -/
def Tenancy.field (t : Tenancy) (lo len : Nat) : Nat := bitsOf (t.cfg.getD (lo / 64) 0#64).toNat (lo % 64) len

def Tenancy.en (t : Tenancy) : Bool := t.field 63 1 == 1
def Tenancy.secure (t : Tenancy) : Bool := t.field 62 1 == 1
def Tenancy.slnch (t : Tenancy) : Bool := t.field 61 1 == 1
def Tenancy.froz (t : Tenancy) : Bool := t.field 60 1 == 1
def Tenancy.bandMask (t : Tenancy) : Nat := t.field 40 8
def Tenancy.hbmw (t : Tenancy) : Nat := t.field 32 8
def Tenancy.clmask (t : Tenancy) : Nat := t.field 16 16
def Tenancy.lquota (t : Tenancy) : Nat := t.field 0 13
def Tenancy.pasid (t : Tenancy) : Nat := t.field 64 20
def Tenancy.chtn (t : Tenancy) : Nat := t.field 84 16
/-- The fields that hold bits 51:12 of an address; each lies within one word. -/
def Tenancy.ptroot (t : Tenancy) : Nat := t.field 140 40 * 4096
def Tenancy.sptroot (t : Tenancy) : Nat := t.field 204 40 * 4096
def Tenancy.fqlog (t : Tenancy) : Nat := t.field 256 4
def Tenancy.fqbase (t : Tenancy) : Nat := t.field 268 40 * 4096
def Tenancy.chtbase (t : Tenancy) : Nat := t.field 332 40 * 4096
def Tenancy.rtbase (t : Tenancy) : Nat := t.field 396 40 * 4096
def Tenancy.ctxbase (t : Tenancy) : Nat := t.field 460 40 * 4096
def Tenancy.lwoff (t : Tenancy) : Nat := t.field 524 20
def Tenancy.epbase (t : Tenancy) : Nat := t.field 576 40 * 4096

/-! ## Home memory -/

/-- First address of the carve-out region of a die and the region's size (20 R414). -/
def carveBase (d : Bool) : Nat := 0xFE00000000000 + d.toNat * 0x20000000
def carveRegion : Nat := 0x20000000
def State.carved (s : State) (d : Bool) : Nat := s.boot.cfg.carve.getD d.toNat 0

def inCarve (pa : Nat) : Bool := carveBase false ≤ pa && pa < carveBase true + carveRegion

/-- The die that a stack attaches to (22 R457). -/
def stackDie (k : Nat) : Bool := 6 ≤ k

/-- The die whose home slices own a physical address: the die of its stack, or of its carve-out (04 R114, R116; 20 R414). -/
def homeDieOf (pa : Nat) : Bool := if inCarve pa then carveBase true ≤ pa else stackDie (Config.stackOf (pa / 128))

/-- What a tenancy keeps in memory in its own world (18 R377): context images, fault queue, channel tables, routine table. -/
def Tenancy.regions (t : Tenancy) : List (Nat × Nat) :=
  [(t.ctxbase, 0x100000 + t.nslot * t.slotsz * 2 ^ 20), (t.fqbase, 64 * 2 ^ t.fqlog), (t.chtbase, 32768 * t.chtn), (t.rtbase, 4096)]

/-- Whether `n` bytes at `x` and `m` bytes at `y` share a byte. -/
def overlaps (x n y m : Nat) : Bool := x < y + m && y < x + n

/-- Some of `n` bytes at a physical address belong to a secure tenancy: an agent that is not secure has no effect there (18 R378). -/
def State.secureAt (s : State) (pa n : Nat) : Bool := s.tens.any fun t => t.secure && t.regions.any fun r => overlaps r.1 r.2 pa n

/-- Reads of a line of the device's own memory are refused: it is listed as poisoned (21 R454), or its data cannot be corrected
(21 R453). -/
def State.poisoned (s : State) (pa : Nat) : Bool :=
  s.dies.any fun d => d.poison.any (fun e => e.2 == pa / 128) || d.faulty.contains (pa / 128)

/-- Some line of `n` bytes at `pa` is such a line. -/
def State.listed (s : State) (pa n : Nat) : Bool :=
  s.dies.any fun d => d.poison.any (fun e => overlaps (e.2 * 128) 128 pa n) || d.faulty.any fun l => overlaps (l * 128) 128 pa n

/-- The line maps to an offline channel (22 R459). -/
def State.offline (s : State) (pa : Nat) : Bool :=
  !inCarve pa && s.hbm.zipIdx.any fun x =>
    x.1.offl != 0#32 && Config.stackOf (pa / 128) == x.2 && x.1.offl.getLsbD (Config.channelOf (pa / 128))

/-- The pseudo-channel of a line: 64 × stack + its number there. -/
def pseudoKey (line : Nat) : Nat := 64 * Config.stackOf line + Config.pseudoOf line

/-- The pseudo-channel of a line replays a burst: it holds every later one, and delivers nothing that has not passed (22 R459). -/
def State.replaying (s : State) (line : Nat) : Bool := s.pseudo.any fun p => p.key == pseudoKey line && p.replays != 0

/-- A request for a line waits for its stack: the channel re-centres its eyes, or the pseudo-channel replays (22 R458, R459). One that L2
or the MSC holds, or that stands in a carve-out, asks no stack. -/
def State.hbmWaits (s : State) (pa : Nat) : Bool :=
  (s.replaying (pa / 128) || (s.hbm.zipIdx.any fun x => x.1.recentring != [] &&
    x.2 == Config.stackOf (pa / 128) && x.1.recentring.contains (Config.channelOf (pa / 128)))) && !(inCarve pa) &&
  !((s.die (homeDieOf pa)).l2.any fun l => l.line == pa / 128) && !((s.die (homeDieOf pa)).msc.any fun l => l.line == pa / 128)

/-- The line of a set that L2 or the MSC gives up: the least recently used of the highest depth class present (04 R104). -/
def depthVictim (ls : List DepthLine) : Option DepthLine :=
  ls.foldl (fun b l => match b with
    | none => some l
    | some m => if m.cls < l.cls || (m.cls == l.cls && l.used ≤ m.used) then some l else some m) none

/-- What a line shares with others in a cache: its set of at most `ways` lines, and its bank of at most `cap`. -/
structure CacheShape where
  set : Nat → Nat
  ways : Nat
  bank : Nat → Nat
  cap : Nat

def l2Shape : CacheShape := ⟨Config.l2Set, Config.l2Ways, fun n => (Config.l2Slice n).val, Config.sliceLines⟩
def mscShape : CacheShape := ⟨Config.mscSet, Config.mscWays, fun _ => 0, Config.mscLines⟩

/-- A line is accessed in a cache: a hit takes the class and the time; a miss fills it, and where its set or its bank is full the
victim, which is another line, leaves. The answer is the cache and the victim (04 R104, 00 R4). -/
def cacheAccess (h : CacheShape) (ls : List DepthLine) (l : DepthLine) : List DepthLine × Option DepthLine :=
  let rest := ls.filter fun x => x.line != l.line
  match ls.find? fun x => x.line == l.line with
  | some x => ({ l with dirty := l.dirty || x.dirty } :: rest, none)
  | none =>
    let mates := rest.filter fun x => h.set x.line == h.set l.line
    let bank := rest.filter fun x => h.bank x.line == h.bank l.line
    match if h.ways ≤ mates.length then depthVictim mates else if h.cap ≤ bank.length then depthVictim bank else none with
    | some v => (l :: rest.filter (fun x => x.line != v.line), some v)
    | none => (l :: rest, none)

/-- The MSC takes an access; a dirty victim goes back to its stack, whose bytes `mem` holds (04 R104, R114). -/
def mscAccess (ls : List DepthLine) (l : DepthLine) : List DepthLine := (cacheAccess mscShape ls l).1

/-- The MSC after an access at a home slice: it is asked on a miss in L2, unless the line stands in the carve-out, and takes a dirty
victim of L2. -/
def Die.mscAfter (d : Die) (carve : Bool) (l : DepthLine) : List DepthLine :=
  let asked := if carve || d.l2.any (fun x => x.line == l.line) then d.msc else mscAccess d.msc { l with dirty := false }
  match (cacheAccess l2Shape d.l2 l).2 with
  | some v => if v.dirty && !(inCarve (v.line * 128)) then mscAccess asked v else asked
  | none => asked

/-- An access at a home slice, of the die if `mine`: L2, and the MSC behind it. Nothing else of the die changes. -/
def Die.homeAccess (d : Die) (mine carve : Bool) (l : DepthLine) : Die :=
  { d with l2 := if mine then (cacheAccess l2Shape d.l2 l).1 else d.l2, msc := if mine then d.mscAfter carve l else d.msc }

/-- An access of depth class `cls` to a line at its home (04 R104). -/
def State.touch (s : State) (pa cls : Nat) (wr : Bool) : State :=
  { s with dies := s.dies.zipIdx.map fun x => x.1.homeAccess ((homeDieOf pa).toNat == x.2) (inCarve pa) ⟨pa / 128, cls, s.clock, wr⟩ }

/-- The lines of `n` bytes at `pa` are accessed at their homes. -/
def State.touchAll (s : State) (pa n : Nat) (wr : Bool) : State :=
  if n = 0 then s else (List.range ((pa + n - 1) / 128 - pa / 128 + 1)).foldl (fun s i => s.touch (pa + 128 * i) 0 wr) s

/-- Lines that are written hold good data again (DESIGN CHOICE, log 25). -/
def State.mended (s : State) (pa n : Nat) : State :=
  if s.dies.all (·.faulty.isEmpty) then s
  else { s with dies := s.dies.map fun d => { d with faulty := d.faulty.filter fun l => !(pa / 128 ≤ l && l * 128 < pa + n) } }

/-- Bytes as the home slice, or the host, holds them. Every physical address of this device that no rule gives to a carve-out
is ordinary memory, also beyond the 576 GiB of the stacks (DESIGN CHOICE, log 1). -/
def State.homeRead (s : State) (own : Owner) (pa n : Nat) : List Byte :=
  match own with
  | .here => Cells.readN s.mem pa n
  | .host => Cells.readN s.hostMem pa n
  | .peer _ => List.replicate n 0#8

/-- Bytes written at the home slice, or in host memory. Writes to a poisoned line are performed (21 R454). -/
def State.homeWrite (s : State) (own : Owner) (pa : Nat) (bs : List Byte) : State :=
  match own with
  | .here => ({ s with mem := Cells.writeN s.mem pa bs } : State).mended pa bs.length
  | .host => { s with hostMem := Cells.writeN s.hostMem pa bs }
  | .peer _ => s

/-- Bytes of which a store writes the bits that the masks select; no masks: all bits (10 R260). -/
def maskInto (old : List Byte) (masks bs : List Byte) : List Byte :=
  if masks.isEmpty then bs
  else (old.zip (masks.zip bs)).map fun (o, m, b) => (o &&& ~~~m) ||| (b &&& m)

/-- Physical memory as Sward, the pager, the walkers and the MC use it. -/
def State.rdMem (s : State) (pa n : Nat) : Nat := Cells.readLE s.mem pa n
def State.wrMem (s : State) (pa n v : Nat) : State := { s with mem := Cells.writeLE s.mem pa n v }
def State.wrBytes (s : State) (pa : Nat) (bs : List Byte) : State := { s with mem := Cells.writeN s.mem pa bs }

/-! ## The L1 -/

/-- Bytes that may cross lines: a piece for each line. -/
def linePieces (va n : Nat) : List (Nat × Nat) :=
  if n = 0 then [] else (List.range ((va + n - 1) / 128 - va / 128 + 1)).map fun i =>
    let lo := max va ((va / 128 + i) * 128)
    let hi := min (va + n) ((va / 128 + i + 1) * 128)
    (lo, hi - lo)

/-- Whether pages of this kind and owner stand in an L1 (04 R101, 05 R120, R137). -/
def cacheable (own : Owner) (kind : Kind) (ros : Bool) : Bool :=
  kind != .so && (match own with | .here => true | .peer _ => ros | .host => false)

/-- Key of a line of an owner: peers' lines stand above this device's. -/
def lineKey (own : Owner) (pa : Nat) : Nat :=
  match own with
  | .here => pa / 128
  | .host => pa / 128 + 2 ^ 60
  | .peer n => pa / 128 + 2 ^ 61 + n * 2 ^ 50

/-- Key of a byte of an owner: its physical address where this device owns it. -/
def byteKey (own : Owner) (pa : Nat) : Nat := lineKey own pa * 128 + pa % 128

/-- Bytes with every bit below position 8 − k cleared. -/
def cutPlanes (k : Nat) (bytes : List Byte) : List Byte := bytes.map fun b => BitVec.ofNat 8 (b.toNat / 2 ^ (8 - k) * 2 ^ (8 - k))

/-- Planes that an assembled line holds (04 R98). -/
def AsmLine.planes (l : AsmLine) : Nat := if l.pln == 8 then l.mw else l.pln

/-- Bytes of the L1 in use: raw lines, and per assembled line 16 bytes a plane and its exponents (04 R98). -/
def Core.l1Used (c : Core) : Nat := 128 * c.l1.length + (c.asm.map fun l => 16 * l.planes + 4).sum

/-- An assembled line gives up its bottom plane (04 R105). -/
def AsmLine.trim (l : AsmLine) : AsmLine :=
  let p := l.planes - 1
  { l with pln := p, bytes := cutPlanes p l.bytes }

/-- The oldest assembled line that holds more than one plane gives up its bottom plane; none where there is no such line. -/
def trimOldest : List AsmLine → Option (List AsmLine)
  | [] => none
  | l :: ls => match trimOldest ls with
    | some ls' => some (l :: ls')
    | none => if 1 < l.planes then some (l.trim :: ls) else none

/-- One step of reclaiming space: a plane of an assembled line, else the oldest raw line, else the oldest assembled line. -/
def Core.l1Reclaim (c : Core) : Core :=
  match trimOldest c.asm with
  | some ls => { c with asm := ls }
  | none => if c.l1.isEmpty then { c with asm := c.asm.dropLast } else { c with l1 := c.l1.dropLast }

/-- Space is reclaimed until the L1 fits; a fill adds at most 132 bytes, nine planes. -/
def Core.l1Fit : Nat → Core → Core
  | 0, c => c
  | n + 1, c => if c.l1Used ≤ Config.l1Bytes then c else Core.l1Fit n c.l1Reclaim

/-- The L1 under pressure (04 R105: it lowers planes from the bottom plane up and never below 1, and may evict whole lines;
which lines is the model's choice, log 4). -/
def Core.l1Trim (c : Core) : Core := c.l1Fit 16

/-- Put bytes at an offset of a line. -/
def putAt (old : List Byte) (off : Nat) (bs : List Byte) : List Byte := old.take off ++ bs ++ old.drop (off + bs.length)

/-- The value of a plain or `.fresh` read by a group of core `c` (05 R124, R125, R136): an L1 hit, or the home slice
with a fill. `outside` holds the 128-byte line of a peer. -/
def State.l1Read (s : State) (c : Nat) (a : Acc) (fresh : Bool) (outside : List Byte) : List Byte × State :=
  let key := lineKey a.own a.pa
  let off := a.pa % 128
  let line := match a.own with
    | .peer _ => (outside ++ List.replicate 128 0#8).take 128
    | own => s.homeRead own (a.pa - off) 128
  let far : State := match a.own with | .here => s.touch a.pa 0 false | _ => s
  if !cacheable a.own a.kind a.ros then ((line.drop off).take a.size, far)
  else match (s.core c).l1.find? (fun l => l.line == key) with
    | some l =>
      if fresh then
        let v := (line.drop off).take a.size
        (v, far.modCore c fun k => { k with l1 := k.l1.map fun x =>
          if x.line == key then { x with bytes := putAt x.bytes off v } else x })
      else ((l.bytes.drop off).take a.size, s)
    | none =>
      ((line.drop off).take a.size,
        far.modCore c fun k => ({ k with l1 := ⟨key, a.kind, a.ros, line⟩ :: k.l1 } : Core).l1Trim)

/-- Assembled lines whose chunks the bytes overlap are dropped (04 R102). -/
def Core.dropAsm (c : Core) (pa n : Nat) : Core :=
  { c with asm := c.asm.filter fun l => !(overlaps pa n l.exp 4) && !(l.pieces.any fun p => overlaps pa n p 16) }

/-- A store of this core is acknowledged: raw copies take the bytes, assembled copies go (04 R102, 05 R124). -/
def State.l1Store (s : State) (c : Nat) (own : Owner) (pa : Nat) (bs : List Byte) : State :=
  match own with
  | .here => s.modCore c fun k =>
      Core.dropAsm { k with l1 := k.l1.map fun x =>
        if x.line == pa / 128 then { x with bytes := putAt x.bytes (pa % 128) bs } else x } pa bs.length
  | _ => s

/-- An atomic of this core drops its raw and assembled copies (04 R102, R116). -/
def State.l1Atomic (s : State) (c : Nat) (own : Owner) (pa n : Nat) : State :=
  match own with
  | .here => s.modCore c fun k => Core.dropAsm { k with l1 := k.l1.filter fun x => x.line != pa / 128 } pa n
  | _ => s

/-- An acquire at `.team` or wider drops the lines that hold data of RC pages (05 R132). -/
def State.l1Acquire (s : State) (c scope : Nat) : State :=
  if scope < 2 then s
  else s.modCore c fun k =>
    { k with l1 := k.l1.filter fun x => x.kind != .rc || x.ros, asm := k.asm.filter fun x => !x.rc }

/-- `fence.sys.all` drops every line that holds RC or UN data (05 R135, R138). -/
def State.l1All (s : State) (c : Nat) : State := s.modCore c fun k => { k with l1 := [], asm := [] }

end Sys2Proof.Machine
end

