-- ==== Sys2Proof/Machine/Scratch.lean ====
section
/-! DEFINITION. Scratch.lean: the scratchpad page tables, the STBs, the pager and the port cores (04 R106-R112,
20 R431-R437). Addresses are addresses of the team space. -/

namespace Sys2Proof.Machine

def Group.zero : Group :=
  { team := 0, gidx := 0, gw := 32, core := 0, quarter := 0, sliceOff := 0, levelS := false, lanes := [], v := [],
    s := [], b := [], d := [], w := List.replicate 6 0, ufc := 0#32, chk := false, refill := none, fairness := 0,
    rphase := 0#16, rvalid := 0#16, t := 0, stall := 0, issued := false, readyAt := 0, seq := 0, fixed := [], ftoks := [],
    outst := [], suspend := none, since := 0, blocked := [], waits := [], sticky := [], forced := [], lastIssue := 0,
    readySince := none, promoted := false, missing := [], fills := [], want := [], paid := none, fence := none, stage := .retired, faults := [], answer := none, advance := [],
    stopAt := 0, hadToken := false }

def CRec.zero : CRec :=
  { code := 0, frame := 0, join := 0, cmpl := 0, teams := 0, prog := 1, slvl := false, band := 0, iqs := 0, chtix := 0,
    rsvOk := true }
def Header.zero : Header :=
  { magic := 0x31435246, gw := 32, cores := 1, regs := 32, acc := 0, teamSz := 32, scr := 0, queues := 0, prog := 1, chan := 0,
    doff := 0, dlen := 0, dalign := 0, rsvOk := true }

def Launch.zero : Launch :=
  { ten := 0, crec := CRec.zero, hdr := Header.zero, crva := 0, origin := .mc, band := 0, order := 0, started := [],
    tfin := 0, tstart := 0, tend := 0, abort := none, completed := true, halted := false, picks := [], phase := 0, final := (0, 0), written := false }

def Team.zero : Team :=
  { launch := 0, idx := 0, ten := 0, slot := 0, life := .finished, cluster := 0, cores := [], groups := [], bars := [],
    queues := [], items := [], tmap := [], leases := [], nextLease := 1, startAt := 0, admitNo := 0,
    firstAdmit := 0, masked := false, hot := false, pins := [], barred := [], barAll := false }

def State.group (s : State) (g : Nat) : Group := s.groups.getD g Group.zero
def State.team (s : State) (t : Nat) : Team := s.teams.getD t Team.zero
def State.launch (s : State) (l : Nat) : Launch := s.launches.getD l Launch.zero
def State.hdrOf (s : State) (t : Team) : Header := (s.launch t.launch).hdr

/-- Bytes of scratchpad per core slot, and of the whole space (04 R106). -/
def State.slotLen (s : State) (t : Team) : Nat := (s.hdrOf t).scr * 4096
def State.spaceLen (s : State) (t : Team) : Nat := t.cores.length * s.slotLen t

/-- Groups of a team on each core, and the slot of a group (19 R405). -/
def State.groupsPerCore (s : State) (t : Team) : Nat :=
  let h := s.hdrOf t
  h.teamSz / h.gw / max h.cores 1
def State.slotOf (s : State) (t : Team) (G : Group) : Nat := G.gidx / max (s.groupsPerCore t) 1

/-- First team-space address of a group's own slot. -/
def State.slotBase (s : State) (t : Team) (G : Group) : Nat := s.slotOf t G * s.slotLen t

/-- The port core of an address (04 R107, R109). -/
def State.portCore (s : State) (t : Team) (addr : Nat) : Nat := t.cores.getD (addr / max (s.slotLen t) 1) 0

/-! ## L0 entries (20 R431, R432) -/

def State.sptRoot (s : State) (t : Team) : Nat := (s.ten t.ten).sptroot + 2048 * t.slot
def State.l0Block (s : State) (t : Team) (page : Nat) : Nat := bitsOf (s.rdMem (s.sptRoot t + 8 * (page / 128)) 8) 10 42 * 1024
def State.l0Addr (s : State) (t : Team) (page : Nat) : Nat := s.l0Block t page + 8 * (page % 128)
def State.hdrAddr (s : State) (t : Team) (page : Nat) : Nat := s.l0Block t page + 0x400 + 32 * (page % 128)

def l0V (e : Nat) : Bool := bitAt e 0
def l0Res (e : Nat) : Bool := bitAt e 1
def l0Tch (e : Nat) : Bool := bitAt e 2
def l0Pin (e : Nat) : Bool := bitAt e 3
def l0Dirty (e : Nat) : Bool := bitAt e 4
def l0Back (e : Nat) : Nat := bitsOf e 12 40 * 4096
def l0Core (e : Nat) : Nat := bitsOf e 60 4
def l0Frame (e : Nat) : Nat := bitsOf e 53 7

/-- A 64-bit word with `len` bits at `lo` replaced. -/
def setBits (e lo len x : Nat) : Nat := e - bitsOf e lo len * 2 ^ lo + x % 2 ^ len * 2 ^ lo

/-- The entry as a core's STB holds it, or as memory does (20 R433). -/
def State.l0Get (s : State) (core tid page : Nat) : Nat :=
  match (s.core core).stb.find? fun e => e.team == tid && e.page == page with
  | some e => e.ent.toNat
  | none => s.rdMem (s.l0Addr (s.team tid) page) 8

/-- An STB takes an entry it does not hold. -/
def State.stbFill (s : State) (core tid page : Nat) : State :=
  if (s.core core).stb.any fun e => e.team == tid && e.page == page then s
  else
    let ent := BitVec.ofNat 64 (s.rdMem (s.l0Addr (s.team tid) page) 8)
    s.modCore core fun c => { c with stb := (⟨tid, page, ent⟩ :: c.stb).take 512 }

/-- Change an entry in memory and in every STB of the cluster that holds it (20 R433). -/
def State.l0Mod (s : State) (tid page : Nat) (f : Nat → Nat) : State :=
  let t := s.team tid
  let a := s.l0Addr t page
  let s : State := s.wrMem a 8 (f (s.rdMem a 8))
  { s with cores := s.cores.zipIdx.map fun (c, i) =>
      if clusterOf i == t.cluster then
        { c with stb := c.stb.map fun e => if e.team == tid && e.page == page then { e with ent := BitVec.ofNat 64 (f e.ent.toNat) } else e }
      else c }

/-- Add to FAULTS (0), EVICTS (1) or WBACKS (2) of a team (20 R431). -/
def State.sptCount (s : State) (tid i : Nat) : State :=
  let a := s.sptRoot (s.team tid) + 0x400 + 8 * i
  s.wrMem a 8 (s.rdMem a 8 + 1)

/-! ## Frames -/

def State.frameOf (s : State) (tid page : Nat) : Option Frame :=
  let t := s.team tid
  (s.core (s.portCore t (page * 4096))).frames.find? fun f => f.team == tid && f.page == page

def State.modFrame (s : State) (tid page : Nat) (f : Frame → Frame) : State :=
  s.modCore (s.portCore (s.team tid) (page * 4096)) fun c =>
    { c with frames := c.frames.map fun x => if x.team == tid && x.page == page then f x else x }

/-- Pages of `n` bytes at `addr`. -/
def pagesOf (addr n : Nat) : List Nat :=
  if n = 0 then [] else (List.range ((addr + n - 1) / 4096 - addr / 4096 + 1)).map (· + addr / 4096)

/-- A page is the target of an unfinished drain (20 R435). -/
def State.drainTarget (s : State) (tid page : Nat) : Bool :=
  s.cores.any fun c => c.drains.any (fun d => d.team == tid && d.addr / 4096 == page) ||
    c.ops.any fun o => match o.op with
      | .drn a _ => (s.group o.g).team == tid && (pagesOf a 16384).contains page
      | _ => false

/-- Whether the pager may take a frame (20 R435, R437); `keep` are the pages of the same round. -/
def State.frameFree (s : State) (f : Frame) (keep : List (Nat × Nat)) : Bool :=
  (!(l0Pin (s.rdMem (s.l0Addr (s.team f.team) f.page) 8)) || (s.team f.team).life == .saved) &&
  !(keep.contains (f.team, f.page)) && !(s.drainTarget f.team f.page)

/-- Write a page's bytes and FE header to its backing through L2 and the MSC (20 R435); the lines of words that cannot be corrected
are refused from then on (DESIGN CHOICE, log 25). -/
def State.writeBack (s : State) (f : Frame) : State :=
  let t := s.team f.team
  let back := l0Back (s.rdMem (s.l0Addr t f.page) 8)
  let m := f.data.foldl (fun m c => Cells.write m (back + c.1) c.2) (Cells.clear s.mem back 4096)
  let s : State := ({ s with mem := m } : State).wrMem (s.hdrAddr t f.page) 32 f.fe.toNat
  let s : State := (s.touchAll back 4096 true).touchAll (s.hdrAddr t f.page) 32 true
  let s : State := f.bad.foldl (fun (s : State) k => s.modDie (homeDieOf back) fun d => { d with faulty := d.faulty ++ [(back + 4 * k) / 128] }) s
  s.sptCount f.team 2

/-- Frames of a core give up their pages; their last use is kept (20 R435). -/
def Core.free (c : Core) (gone : Frame → Bool) : Core :=
  let out := c.frames.filter gone
  { c with frames := c.frames.filter fun f => !gone f
           freed := (out.map fun f => (f.no, f.lastUse)) ++ c.freed.filter fun x => !(out.any fun f => f.no == x.1) }

/-- Release the frame of a resident page; `wb` says whether a dirty page is written back (20 R435, R440). -/
def State.dropFrame (s : State) (f : Frame) (wb : Bool) : State :=
  let t := s.team f.team
  let e := s.rdMem (s.l0Addr t f.page) 8
  let s : State := if wb && l0Dirty e then s.writeBack f else s
  let s : State := s.l0Mod f.team f.page fun e => setBits (setBits e 1 1 0) 4 1 0
  let s : State := s.sptCount f.team 1
  s.modCore (s.portCore t (f.page * 4096)) fun c => c.free fun x => x.team == f.team && x.page == f.page

/-- The frame number the pager uses next, with the page it must drop first: of the frames that are free or whose page may go, the
one least recently used, the lowest number among equals (20 R435). -/
def State.victim (s : State) (core : Nat) (keep : List (Nat × Nat)) : Option (Nat × Option Frame) :=
  let c := s.core core
  ((List.range Config.framesPerCore).foldl (fun (b : Option (Nat × Nat × Option Frame)) n =>
    let cand := match c.frames.find? fun f => f.no == n with
      | none => some (n, (c.freed.lookup n).getD 0, none)
      | some f => if s.frameFree f keep then some (n, f.lastUse, some f) else none
    match b, cand with
    | some x, some y => if y.2.1 < x.2.1 then some y else some x
    | none, y => y
    | x, none => x) none).map fun x => (x.1, x.2.2)

/-- The first line of a touched page's backing, L0 entry or header whose read is refused (21 R454): its offset in the page. -/
def State.badBacking (s : State) (tid page : Nat) : Option Nat :=
  let t := s.team tid
  if s.poisoned (s.l0Addr t page) then some 0
  else
    let e := s.rdMem (s.l0Addr t page) 8
    if !l0Tch e then none
    else if s.poisoned (s.hdrAddr t page) then some 0
    else ((List.range 32).find? fun i => s.poisoned (l0Back e + 128 * i)).map (128 * ·)

/-- Make a page resident in its port core through L2 and the MSC (20 R434, R435). Errors: 0x21 where no frame qualifies, 0x60 where
the backing page is refused. -/
def State.fillPage (s : State) (tid page : Nat) (keep : List (Nat × Nat)) : Except Nat State :=
  let t := s.team tid
  let core := s.portCore t (page * 4096)
  let s : State := s.stbFill core tid page
  let e := s.l0Get core tid page
  match s.frameOf tid page with
  | some _ => .ok (s.modFrame tid page fun f => { f with lastUse := s.clock })
  | none =>
    let back := l0Back e
    if (s.badBacking tid page).isSome then .error 0x60
    else match s.victim core keep with
      | none => .error 0x21
      | some (n, old) =>
        let s := match old with | some f => s.dropFrame f true | none => s
        let s : State := if l0Tch e then (s.touchAll back 4096 false).touchAll (s.hdrAddr t page) 32 false else s
        let data := if l0Tch e then (s.mem.filter fun c => back ≤ c.1 && c.1 < back + 4096).map fun c => (c.1 - back, c.2) else []
        let fe := if l0Tch e then BitVec.ofNat 256 (s.rdMem (s.hdrAddr t page) 32) else 0#256
        let s := s.modCore core fun c => { c with frames := c.frames ++ [⟨n, tid, page, data, fe, s.clock, []⟩] }
        let s := s.l0Mod tid page fun e =>
          let e := setBits (setBits e 60 4 (core % 16)) 53 7 n
          let e := if l0Tch e then setBits e 4 1 0 else setBits (setBits e 2 1 1) 4 1 1
          setBits e 1 1 1
        .ok (s.sptCount tid 0)

/-! ## Accesses at the port core; the pages are resident -/

def State.spRead1 (s : State) (tid addr : Nat) : Byte :=
  match s.frameOf tid (addr / 4096) with
  | some f => Cells.read f.data (addr % 4096)
  | none => 0#8

def State.spRead (s : State) (tid addr n : Nat) : List Byte := (List.range n).map fun i => s.spRead1 tid (addr + i)
/-- The first of `n` bytes at an address that lies in a word that cannot be corrected (21 R453). -/
def State.spBad (s : State) (tid addr n : Nat) : Option Nat :=
  ((List.range n).map (addr + ·)).find? fun a => match s.frameOf tid (a / 4096) with
    | some f => f.bad.contains (a % 4096 / 4)
    | none => false

def State.spReadLE (s : State) (tid addr n : Nat) : Nat := leNat (s.spRead tid addr n)

/-- Mark a page changed (20 R434). -/
def State.markDirty (s : State) (tid page : Nat) : State :=
  if l0Dirty (s.rdMem (s.l0Addr (s.team tid) page) 8) then s else s.l0Mod tid page fun e => setBits e 4 1 1

def State.spWrite1 (s : State) (tid addr : Nat) (b : Byte) : State :=
  (s.modFrame tid (addr / 4096) fun f => { f with data := Cells.write f.data (addr % 4096) b, lastUse := s.clock }).markDirty tid
    (addr / 4096)

/-- Words of a frame that a write covers whole hold good data again. -/
def Frame.mend (f : Frame) (addr n : Nat) : Frame :=
  { f with bad := f.bad.filter fun k => !(addr ≤ f.page * 4096 + 4 * k && f.page * 4096 + 4 * k + 4 ≤ addr + n) }

def State.spWrite (s : State) (tid addr : Nat) (bs : List Byte) : State :=
  (pagesOf addr bs.length).foldl (fun s p => if (s.frameOf tid p).all (·.bad.isEmpty) then s else s.modFrame tid p fun f => f.mend addr bs.length)
    (bs.zipIdx.foldl (fun s b => s.spWrite1 tid (addr + b.2) b.1) s)

/-- FE bit of the granule that holds an address (04 R110): in its frame, or, while its page is not resident, in the header of the
backing page, which is empty where nothing has touched the page (04 R108, 20 R434). -/
def State.feGet (s : State) (tid addr : Nat) : Bool :=
  let page := addr / 4096
  match s.frameOf tid page with
  | some f => f.fe.getLsbD (addr % 4096 / 16)
  | none =>
    let t := s.team tid
    l0Tch (s.rdMem (s.l0Addr t page) 8) && bitAt (s.rdMem (s.hdrAddr t page) 32) (addr % 4096 / 16)

def setBit {n : Nat} (x : BitVec n) (i : Nat) (b : Bool) : BitVec n :=
  if b then x ||| (1#n <<< i) else x &&& ~~~(1#n <<< i)

def State.feSet (s : State) (tid addr : Nat) (full : Bool) : State :=
  (s.modFrame tid (addr / 4096) fun f => { f with fe := setBit f.fe (addr % 4096 / 16) full, lastUse := s.clock }).markDirty tid
    (addr / 4096)

/-- First addresses of the granules that `n` bytes at `addr` touch. -/
def granules (addr n : Nat) : List Nat :=
  if n = 0 then [] else (List.range ((addr + n - 1) / 16 - addr / 16 + 1)).map fun i => (addr / 16 + i) * 16

/-- Bytes written by an engine, a drain or an arrival: the granules they touch become full (04 R110). -/
def State.spWriteFull (s : State) (tid addr : Nat) (bs : List Byte) : State :=
  (granules addr bs.length).foldl (fun s a => s.feSet tid a true) (s.spWrite tid addr bs)

end Sys2Proof.Machine
end

