-- ==== Sys2Proof/Machine/Image.lean ====
section
/-! DEFINITION. Image.lean: the context slot of a team (21 R448, R449), the group image (21 R450), the wait reason
(21 R500) and spill compression (21 R451). PEND stays in the state (log 7). -/

namespace Sys2Proof.Machine

def up4k (n : Nat) : Nat := (n + 4095) / 4096 * 4096

/-- Sizes of the slot's regions TCB, TILES, IQ, SPT0, GRP and BACK (21 R449). -/
def slotSizes (h : Header) (iqs : Nat) : List Nat :=
  let k := if h.gw = 64 then 2 else 1
  [16384, h.cores * h.acc * 16384, h.cores * iqs * 2048, (h.cores * h.scr + 127) / 128 * 5120,
   h.teamSz / max h.gw 1 * (8192 + h.regs * k * 128), h.cores * h.scr * 4096]

/-- Offset of region `i`: the regions follow one another, each rounded up to 4 KiB. -/
def slotOff (h : Header) (iqs i : Nat) : Nat := ((slotSizes h iqs).take i).foldl (fun a n => a + up4k n) 0

/-- Bytes a team needs of its slot. -/
def slotNeed (h : Header) (iqs : Nat) : Nat := slotOff h iqs 5 + h.cores * h.scr * 4096

def State.slotAddr (s : State) (t : Team) : Nat := (s.ten t.ten).ctxbase + 0x100000 + t.slot * (s.ten t.ten).slotsz * 2 ^ 20

/-- Physical address of region `i` of a team's slot. -/
def State.region (s : State) (t : Team) (i : Nat) : Nat :=
  s.slotAddr t + slotOff (s.hdrOf t) (s.launch t.launch).crec.iqs i

/-- Physical address of a group's image (21 R449). -/
def State.imageAddr (s : State) (G : Group) : Nat :=
  let t := s.team G.team
  let h := s.hdrOf t
  s.region t 4 + G.gidx * (8192 + h.regs * (if h.gw = 64 then 2 else 1) * 128)

/-! ## The wait reason -/

def Wait.code : Wait → Nat
  | .hostPage => 0x18 | .barrier => 0x80 | .fullEmpty => 0x81 | .arr => 0x82 | .queue => 0x83 | .token => 0x84
  | .room => 0x85 | .itemRoom => 0x86 | .bandRoom => 0x87 | .frame => 0x88 | .walkSlot => 0x89 | .acks => 0x8A | .other => 0

def OKind.wait : OKind → Nat
  | .barWait .. => 0x80
  | .feLoad .. | .accLdFe .. | .feWait .. => 0x81
  | .arrWait .. => 0x82
  | .qWait .. => 0x83
  | .tokWait => 0x84
  | .spawn => 0x87
  | _ => 0

def Group.heldLanes (G : Group) : List Nat := G.outst.flatMap (·.held)

/-- Active lanes that no waiting word holds. -/
def Group.freeLanes (G : Group) : List Nat :=
  (List.range G.gw).filter fun l => (match G.lanes[l]? with | some x => x.st == .active | none => false) && !(G.heldLanes.contains l)

/-- What the fragment of a lane waits for: the word that holds it, the suspended word, or the word it stands at. None where the
lane waits for nothing of its own. -/
def Group.waitOf (G : Group) (l : Nat) : Option Nat :=
  match G.outst.find? fun o => o.held.contains l with
  | some o => some o.kind.wait
  | none =>
    let pc := (G.lanes.map (·.pc)).getD l 0#64
    match G.suspend with
    | some (p, w) => if p == pc then some w.code else none
    | none => (G.waits.lookup pc).map Wait.code

/-- FLAGS bits 15:8 (21 R500): none when some fragment is ready, else the wait of the waiting fragment with the lowest active
lane. While the group's fetch is suspended no fragment is ready. -/
def Group.waitCode (G : Group) : Nat :=
  let active := (List.range G.gw).filter fun l => match G.lanes[l]? with | some x => x.st == .active | none => false
  if G.suspend.isNone && G.freeLanes.any (fun l => (G.waitOf l).getD 0 == 0) then 0
  else (active.findSome? G.waitOf).getD 0

/-! ## Register lines (21 R451) -/

/-- The encoding of a line of 32 lane values: map byte and the bytes written. -/
def encLine (xs : List Lane32) : Nat × List Byte :=
  let x0 := xs.headD 0#32
  let ds := xs.tail.map fun x => (x - x0).toInt
  if xs.all (· == 0#32) then (1, [])
  else if ds.all (· == 0) then (2, leBytes 4 x0.toNat ++ List.replicate 12 0#8)
  else if ds.all (fun d => -128 ≤ d && d ≤ 127) then
    (3, leBytes 4 x0.toNat ++ ds.map (fun d => BitVec.ofInt 8 d) ++ List.replicate 13 0#8)
  else if ds.all (fun d => -32768 ≤ d && d ≤ 32767) then
    (4, leBytes 4 x0.toNat ++ ds.flatMap (fun d => leBytes 2 (wrapTo 16 d)) ++ List.replicate 14 0#8)
  else (0, xs.flatMap fun x => leBytes 4 x.toNat)

/-- The lane values of a stored line. Map bytes the table does not list read as RAW (log 13). -/
def decLine (map : Nat) (bs : List Byte) : List Lane32 :=
  let at4 := fun i => BitVec.ofNat 32 (leNat ((bs.drop i).take 4))
  let x0 := at4 0
  if map = 1 then List.replicate 32 0#32
  else if map = 2 then List.replicate 32 x0
  else if map = 3 then x0 :: (List.range 31).map fun i => x0 + (bs.getD (4 + i) 0#8).signExtend 32
  else if map = 4 then x0 :: (List.range 31).map fun i =>
    x0 + (BitVec.ofNat 16 (leNat ((bs.drop (4 + 2 * i)).take 2))).signExtend 32
  else (List.range 32).map fun i => at4 (4 * i)

/-- Line `j` of a register: lanes 32j to 32j + 31, zero beyond the group's width (02 R47). -/
def lineOf (v : VReg) (j : Nat) : List Lane32 :=
  let xs := (v.lanes.drop (32 * j)).take 32
  xs ++ List.replicate (32 - xs.length) 0#32

/-! ## The control block (21 R450) -/

def LaneState.code : LaneState → Nat
  | .active => 0 | .heldMeet => 1 | .done => 2 | .exited => 3 | .heldW => 4
/-- Codes that the table does not list read as exited (log 13). -/
def LaneState.ofCode (n : Nat) : LaneState :=
  if n = 0 then .active else if n = 1 then .heldMeet else if n = 2 then .done else if n = 4 then .heldW else .exited

/-- Count of a wait token: words outstanding, and fixed-latency words whose pipe has not finished (02 R49). -/
def Group.tokCount (G : Group) (clock i : Nat) : Nat :=
  G.w.getD i 0 + (G.ftoks.filter fun t => t.tok == i && clock < t.cyc && G.t < t.due).length

/-- Offset, length and value of every field of the control block that is not zero by rule. -/
def Group.fields (G : Group) (clock : Nat) : List (Nat × Nat × Nat) :=
  (G.s.zipIdx.map fun (x, i) => (8 * i, 8, x.toNat)) ++
  (G.b.zipIdx.map fun (x, i) => (0x200 + 32 * i, 32, x.toNat)) ++
  (G.d.zipIdx.map fun (x, i) => (0x400 + 4 * i, 4, x.toNat)) ++
  ((List.range 6).map fun i => (0x420 + i, 1, G.tokCount clock i)) ++
  [(0x428, 4, G.ufc.toNat),
   (0x42C, 4, G.chk.toNat + 2 * G.hadToken.toNat + 256 * G.waitCode + 65536 * (G.stage == .awaiting || G.stage == .stopping).toNat)] ++
  (match G.refill with
   | some r => [(0x430, 8, r.addr.toNat), (0x438, 8, r.exit.toNat), (0x440, 1, r.dest), (0x441, 1, 1)]
   | none => []) ++
  [(0x448, 2, G.fairness), (0x44A, 2, G.rphase.toNat), (0x44C, 2, G.rvalid.toNat)] ++
  (G.lanes.zipIdx.flatMap fun (x, i) =>
    [(0x500 + 8 * i, 8, x.pc.toNat), (0x700 + 8 * i, 8, x.mt.toNat), (0x900 + i, 1, x.preds.toNat),
     (0x940 + i, 1, x.st.code)]) ++
  (G.v.zipIdx.flatMap fun (x, i) => [(0xA00 + 16 * i, 8, x.tag.exps.toNat), (0xA08 + 16 * i, 2, x.tag.field.toNat)]) ++
  [(0x1200, 8, G.t), (0x1208, 1, G.stall), (0x1209, 1, G.issued.toNat)] ++
  G.fixed.zipIdx.map fun (f, i) => (0x1210 + i, 1, f.due - G.t)

/-- The lines of register `r` of a group whose image stands at `a`, `k` lines a register, with their map bytes (21 R451). -/
def putLines (m : List Host.Cell) (a k r : Nat) (v : VReg) : List Host.Cell :=
  (List.range k).foldl (fun m j =>
    let e := encLine (lineOf v j)
    let n := k * r + j
    Cells.writeN (Cells.write m (a + 0x1A00 + n) (BitVec.ofNat 8 e.1)) (a + 0x2000 + 128 * n) e.2) m

/-- Lines of a register of a group (02 R47). -/
def State.linesPer (s : State) (G : Group) : Nat := if (s.hdrOf (s.team G.team)).gw = 64 then 2 else 1

/-- A register's lines leave the register cache by eviction (21 R451). -/
def State.evictReg (s : State) (g r : Nat) : State :=
  let G := s.group g
  match G.v[r]? with
  | none => s
  | some v => ({ s with mem := putLines s.mem (s.imageAddr G) (s.linesPer G) r v } : State).modGroup g fun G =>
      { G with missing := G.missing ++ [r] }

/-- Register lines of a group in its core's register cache. -/
def State.linesIn (s : State) (G : Group) : Nat :=
  if G.stage == .running || G.stage == .stopping then ((s.hdrOf (s.team G.team)).regs - G.missing.length) * s.linesPer G else 0

/-- The group of a core, other than `g`, that issued longest ago and has lines in the register cache. -/
def State.coldest (s : State) (core g : Nat) : Option Nat :=
  (s.groups.zipIdx.foldl (fun (b : Option (Nat × Nat)) (y : Group × Nat) =>
    if y.2 == g || y.1.core != core || s.linesIn y.1 == 0 then b
    else match b with
      | none => some (y.2, y.1.lastIssue)
      | some (i, n) => if y.1.lastIssue < n then some (y.2, y.1.lastIssue) else some (i, n)) none).map (·.1)

/-- The register cache of a core of 1 MiB (00 R4) gives up registers of other groups than `g` until its lines fit; which ones
is the model's choice (log 37). -/
def State.fitLines (core g : Nat) : Nat → State → State
  | 0, s => s
  | n + 1, s =>
    if (s.groups.map fun G => if G.core == core then s.linesIn G else 0).sum ≤ Config.regCacheLines then s
    else match s.coldest core g with
      | none => s
      | some h =>
        match (List.range (s.hdrOf (s.team (s.group h).team)).regs).find? fun r => !((s.group h).missing.contains r) with
        | some r => State.fitLines core g n (s.evictReg h r)
        | none => s

/-- Write a group's image: the control block, then the declared register lines (21 R443, R450). -/
def State.writeImage (s : State) (g : Nat) : State :=
  let G := s.group g
  let a := s.imageAddr G
  let h := s.hdrOf (s.team G.team)
  let k := if h.gw = 64 then 2 else 1
  let m := (G.fields s.clock).foldl (fun m f => Cells.writeLE m (a + f.1) f.2.1 f.2.2) (Cells.clear s.mem a 0x2000)
  let m := ((G.v.take h.regs).zipIdx).foldl (fun m v => putLines m a k v.2 v.1) m
  ({ s with mem := m } : State).modGroup g fun G => { G with stopAt := s.clock }

/-- Read a group's image back (21 R447): every field of the control block, the declared lines, and T, STALL and the remaining distance
of each fixed-latency write from PEND (06 R165). The values of results on their way, and waiting words, stay in the state (log 7); a
fixed-latency word's token keeps the distance that it had when the image was written. -/
def State.readImage (s : State) (g : Nat) : State :=
  let G := s.group g
  let a := s.imageAddr G
  let h := s.hdrOf (s.team G.team)
  let k := if h.gw = 64 then 2 else 1
  let rd := fun o n => s.rdMem (a + o) n
  let line := fun (r j : Nat) =>
    decLine (rd (0x1A00 + k * r + j) 1) (Cells.readN s.mem (a + 0x2000 + 128 * (k * r + j)) 128)
  let v := G.v.zipIdx.map fun (x, r) =>
    let tag : Tag := ⟨BitVec.ofNat 64 (rd (0xA00 + 16 * r) 8), BitVec.ofNat 16 (rd (0xA08 + 16 * r) 2)⟩
    if r < h.regs then ⟨((List.range k).flatMap fun j => line r j).take G.gw, tag⟩ else { x with tag := tag }
  let toks := G.ftoks.map fun f => { f with cyc := f.cyc + (s.clock - G.stopAt) }
  let t := G.t - G.t % 2 ^ 64 + rd 0x1200 8
  let fix := fun i => (toks.filter fun t => t.tok == i && s.clock < t.cyc && G.t < t.due).length
  s.modGroup g fun G =>
    { G with
      s := (List.range 64).map fun i => BitVec.ofNat 64 (rd (8 * i) 8)
      b := (List.range 16).map fun i => BitVec.ofNat 256 (rd (0x200 + 32 * i) 32)
      d := (List.range 8).map fun i => BitVec.ofNat 32 (rd (0x400 + 4 * i) 4)
      w := (List.range 6).map fun i => rd (0x420 + i) 1 % 16 - fix i
      ufc := BitVec.ofNat 32 (rd 0x428 4)
      chk := rd 0x42C 4 % 2 == 1
      refill := if rd 0x441 1 == 0 then none
        else some ⟨BitVec.ofNat 64 (rd 0x430 8), BitVec.ofNat 64 (rd 0x438 8), rd 0x440 1 % 128⟩
      fairness := rd 0x448 2
      rphase := BitVec.ofNat 16 (rd 0x44A 2)
      rvalid := BitVec.ofNat 16 (rd 0x44C 2)
      lanes := G.lanes.zipIdx.map fun (x, i) =>
        { x with pc := BitVec.ofNat 64 (rd (0x500 + 8 * i) 8), mt := BitVec.ofNat 64 (rd (0x700 + 8 * i) 8),
                 preds := BitVec.ofNat 7 (rd (0x900 + i) 1), st := .ofCode (rd (0x940 + i) 1) }
      v := v
      ftoks := toks
      fixed := G.fixed.zipIdx.map fun (f, i) => { f with due := t + rd (0x1210 + i) 1 }
      t := t
      stall := rd 0x1208 1
      issued := rd 0x1209 1 != 0
      missing := List.range h.regs
      fills := [] }

/-- A lane's program counter changed by software moves a word that waits there with it: the words are kept (log 7). -/
def State.setLanePc (s : State) (g : Nat) (lanes : List Nat) (pc : Word) : State :=
  s.modGroup g fun G => { G with lanes := G.lanes.zipIdx.map fun (x, i) => if lanes.contains i then { x with pc := pc } else x }

/-! ## The team control block (21 R449) -/

/-- A team holds a context slot, and is neither finished nor discarded (19 R408). -/
def Life.live : Life → Bool
  | .running | .stopping | .saved | .halted => true
  | _ => false

/-- A finished team whose queues still have commands to carry out keeps its pages and its context slot until they have completed
(log 30). -/
def Team.lingers (t : Team) : Bool := t.life == .finished && t.queues.any fun q => !q.halted && !q.pending.isEmpty

def Life.code : Life → Nat
  | .queued => 0 | .running => 1 | .stopping => 2 | .saved => 3 | .halted => 4 | .finished => 1 | .discarded => 4

/-- Write the TCB, the tiles and the item shares of a team being saved (19 R408); `tiles` are its tiles on each core. -/
def State.writeTeam (s : State) (tid : Nat) (tiles : List (List (List Lane32))) : State :=
  let t := s.team tid
  let l := s.launch t.launch
  let h := l.hdr
  let a := s.slotAddr t
  let put := fun (m : List Host.Cell) (f : Nat × Nat × Nat) => Cells.writeLE m (a + f.1) f.2.1 f.2.2
  let bars := t.bars.zipIdx.flatMap fun (b, i) =>
    [(0x100 + 16 * i, 4, b.count), (0x104 + 16 * i, 4, b.target), (0x108 + 16 * i, 4, b.phase.toNat), (0x10C + 16 * i, 4, b.form)]
  let qs := t.queues.zipIdx.flatMap fun (q, i) =>
    [(0x200 + 64 * i, 8, q.accepted), (0x208 + 64 * i, 4, q.halted.toNat), (0x20C + 64 * i, 8, q.seq)]
  let iq := t.items.zipIdx.map fun (x, i) => (0x400 + 4 * i, 4, x.length)
  let ls := t.leases.zipIdx.map fun (x, i) => (0x440 + 2 * i, 2, x.id)
  let m := ([(0, 8, l.crva), (8, 4, t.idx), (12, 4, t.life.code)] ++ bars ++ qs ++ iq ++ ls).foldl put (Cells.clear s.mem a 0x4000)
  let m := tiles.zipIdx.foldl (fun m c => c.1.zipIdx.foldl (fun m x =>
    Cells.writeN (Cells.clear m (s.region t 1 + (c.2 * h.acc + x.2) * 16384) 16384) (s.region t 1 + (c.2 * h.acc + x.2) * 16384)
      (x.1.flatMap fun e => leBytes 4 e.toNat)) m) m
  let m := t.items.zipIdx.foldl (fun m c =>
    Cells.writeN m (s.region t 2 + c.2 * l.crec.iqs * 2048) (c.1.flatMap fun e => leBytes 8 e.toNat)) m
  { s with mem := m }

/-- A team that holds a slot takes a life state, which its TCB shows (21 R449). -/
def State.setLife (s : State) (tid : Nat) (life : Life) : State :=
  let s : State := s.modTeam tid fun t => { t with life := life }
  s.wrMem (s.slotAddr (s.team tid) + 12) 4 life.code

/-- The TCB shows a queue's accepted count, whether it is halted, and the SEQ of its record (21 R449). -/
def State.putQueue (s : State) (tid q : Nat) : State :=
  let t := s.team tid
  match t.queues[q]? with
  | some e =>
    if t.life.live || t.lingers then
      [(0, 8, e.accepted), (8, 4, e.halted.toNat), (12, 8, e.seq)].foldl (fun (s : State) (f : Nat × Nat × Nat) =>
        s.wrMem (s.slotAddr t + 0x200 + 64 * q + f.1) f.2.1 f.2.2) s
    else s
  | none => s

/-- A team that is being pre-empted runs on, and with it every team of a concurrent launch (19 R408, 01 R30). -/
def State.runOn (s : State) (tid : Nat) : State :=
  let t := s.team tid
  if t.life != .stopping then s
  else (List.range s.teams.length).foldl (fun (s : State) i =>
    let u := s.team i
    if u.life == .stopping && (i == tid || (u.launch == t.launch && (s.launch u.launch).crec.prog == 0)) then
      (s.setLife i .running).modTeam i fun t => { t with masked := false, hot := false, barred := [], barAll := false }
    else s) s

/-- Every team of a launch that runs, or is being pre-empted, halts (13 R328, 19 R408). -/
def State.haltLaunch (s : State) (l : Nat) : State :=
  (List.range s.teams.length).foldl (fun (s : State) i =>
    if (s.team i).launch == l && ((s.team i).life == .running || (s.team i).life == .stopping) then s.setLife i .halted else s)
    (s.modLaunch l fun x => { x with halted := true })

/-- Read a saved team's barriers, queue counts and item shares back (02 R66, 19 R407, 21 R449). Commands that wait in its queues,
and the groups that a barrier has counted, stay in the state (log 7). -/
def State.readTeam (s : State) (tid : Nat) : State :=
  let t := s.team tid
  let iqs := (s.launch t.launch).crec.iqs
  let a := s.slotAddr t
  let rd := fun o n => s.rdMem (a + o) n
  s.modTeam tid fun t => { t with
    bars := t.bars.zipIdx.map fun (b, i) =>
      { b with count := rd (0x100 + 16 * i) 4, target := rd (0x104 + 16 * i) 4, phase := rd (0x108 + 16 * i) 4 % 2 == 1, form := rd (0x10C + 16 * i) 4 }
    queues := t.queues.zipIdx.map fun (q, i) =>
      let n := rd (0x200 + 64 * i) 8
      { q with accepted := n, completed := n - q.pending.length, halted := rd (0x208 + 64 * i) 4 % 2 == 1, seq := rd (0x20C + 64 * i) 8 }
    items := (List.range t.items.length).map fun j =>
      (List.range (min (rd (0x400 + 4 * j) 4) (256 * iqs))).map fun e => BitVec.ofNat 64 (s.rdMem (s.region t 2 + j * iqs * 2048 + 8 * e) 8) }

/-- The tiles of a saved team on each of its cores (21 R449). -/
def State.readTiles (s : State) (tid : Nat) : List (List (List Lane32)) :=
  let t := s.team tid
  let h := s.hdrOf t
  (List.range t.cores.length).map fun j => (List.range h.acc).map fun i =>
    (List.range 4096).map fun e => BitVec.ofNat 32 (s.rdMem (s.region t 1 + (j * h.acc + i) * 16384 + 4 * e) 4)

end Sys2Proof.Machine
end

