-- ==== Sys2Proof/WellFormed.lean ====
section
/-! DEFINITION. WellFormed.lean: row 7 of 06 R172 as far as the word alone decides it. A word that fails a check here
raises RESERVED_FIELD; what depends on GWIDTH, `.regs` or the run is checked when the word issues. -/

namespace Sys2Proof

/-- Values of the register kinds (06 R158). -/
def isS (x : BitVec 7) : Bool := x.toNat < 64
def isP (x : BitVec 7) : Bool := x.toNat < 8
def isB (x : BitVec 7) : Bool := x.toNat < 16
def isD (x : BitVec 7) : Bool := x.toNat < 8
def isZ (x : BitVec 7) : Bool := x.toNat == 0
def mulOf (n : Nat) (x : BitVec 7) : Bool := x.toNat % n == 0
/-- Bits `lo + len - 1 : lo` of a 7-bit field. -/
def fld (x : BitVec 7) (lo len : Nat) : Nat := bitsOf x.toNat lo len

/-- The control field's reserved bits and SETW = 6 (06 R155, R172 row 7). -/
def Ctl.wf (c : Ctl) : Bool := c.rsv.toNat == 0 && c.setw.toNat != 6

def F64.zeros (f : F64) : Bool := isZ f.d && isZ f.a && isZ f.b && isZ f.c && f.mod.toNat == 0

/-- `sD, sA, sB | imm` where `imm` says that C carries imm7 and B must be zero (07 R199). -/
def F64.scalar2 (f : F64) (imm : Bool) : Bool :=
  isS f.d && isS f.a && (if imm then isZ f.b else isS f.b && isZ f.c)

/-- Form T of 08 R206 with the accepted bits of Q below `lim`. -/
def F64.formT (f : F64) (lim : Nat) : Bool := f.mod.toNat < 3 && f.c.toNat < lim

/-- Form T accepting only I (08 R204, R206). -/
def F64.formTI (f : F64) : Bool := f.mod.toNat < 3 && (f.c.toNat == 0 || f.c.toNat == 2)

/-- Elements per lane of a float format code (09 R230, R231). -/
def fmtElems (code : Nat) : Nat := if code == 1 then 1 else if code ≤ 3 then 2 else 4
/-- Elements per lane of an integer code (09 R231). -/
def intElems (code : Nat) : Nat := if code < 2 then 1 else if code < 4 then 2 else 4

/-- Set bases of a conversion from `es` to `ed` elements per lane (09 R230). -/
def setBases (f : F64) (es ed : Nat) : Bool :=
  mulOf (max es ed / es) f.a && mulOf (max es ed / ed) f.d

/-- The scope field B[6:4] is not 7 and the buffer field is free (10 R245). -/
def scopeOk (b : BitVec 7) : Bool := fld b 4 3 != 7

/-- The offset register of a memory form (10 R245, R246). -/
def offsetOk (mod : BitVec 2) (a : BitVec 7) : Bool := mod.toNat < 3 && (mod.toNat == 0 || isS a)

/-- The data set of size code `sz` from `d` (10 R247). -/
def dataSetOk (sz : Nat) (d : BitVec 7) : Bool :=
  if sz == 5 then mulOf 2 d else if sz == 6 then mulOf 4 d else true

/-- A load's or a store's size code (10 R247). -/
def loadSz (sz : Nat) : Bool := sz < 7
def storeSz (sz : Nat) : Bool := sz < 7 && sz != 1 && sz != 3

/-- IMM32 of `atom`, `atoms` (10 R264, R265); `scope` is the scope field. -/
def atomOk (f : M96) (scope : Nat) : Bool :=
  let i := f.imm.toNat
  let op := bitsOf i 16 4
  let sem := bitsOf i 22 2
  let ret := bitAt i 24
  bitsOf i 25 7 == 0 && op < 9 && (op < 7 || ret) && (ret || isZ f.d) &&
  (if sem == 0 then scope == 0 else 1 ≤ scope && scope ≤ 6) &&
  (!bitAt i 21 || (mulOf 2 f.c && mulOf 2 f.d))

/-- The fields the five data commands share (13 R312). -/
def W128.cmd (f : W128) : Bool :=
  f.d.toNat < 32 && isS f.a && fld f.b 4 3 == 0 && isS f.c && f.x.toNat != 0

/-- The queue mask of `qfence` and `qwait` (13 R322). -/
def F64.qmask (f : F64) : Bool :=
  isZ f.d && isZ f.a && f.mod.toNat == 0 && fld f.c 0 6 == 0 && (f.b.toNat != 0 || fld f.c 6 1 != 0)

/-- The 64-bit instruction that a pairable opcode stands for (06 R168); none for the others. -/
def pairable (pop : Nat) : Option (Ctl → F64 → Instr) :=
  ([(0x00, Instr.sadd), (0x01, .ssub), (0x02, .smul), (0x03, .smulh), (0x06, .sand), (0x07, .sor), (0x08, .sxor),
    (0x09, .sshl), (0x0A, .sshr), (0x0B, .ssar), (0x0C, .smin), (0x0D, .smax), (0x0E, .scmp), (0x0F, .ssel),
    (0x10, .smov), (0x12, .slea), (0x13, .spopc), (0x14, .sclz), (0x15, .sffs)] ++
   [(0x20, Instr.add), (0x21, .sub), (0x22, .mul), (0x23, .mulh), (0x24, .mad), (0x25, .abs), (0x26, .neg),
    (0x27, .min), (0x28, .max), (0x29, .and), (0x2A, .or), (0x2B, .xor), (0x2C, .andn), (0x2D, .not), (0x2E, .shl),
    (0x2F, .shr), (0x30, .sar), (0x31, .rot), (0x32, .bfe), (0x33, .bfi)] ++
   [(0x34, Instr.popc), (0x35, .clz), (0x36, .ffs), (0x37, .brev), (0x38, .cmp), (0x39, .sel), (0x3A, .mov),
    (0x3C, .cvti), (0x3D, .addsat), (0x3E, .subsat), (0x3F, .avg), (0x40, .sad), (0x41, .dp4)] ++
   [(0x60, Instr.fadd), (0x61, .fsub), (0x62, .fmul), (0x63, .ffma), (0x64, .fmin), (0x65, .fmax), (0x66, .fcmp),
    (0x67, .fclass), (0x68, .frcp), (0x69, .frsq), (0x6A, .fexp2), (0x6B, .flog2), (0x6C, .fsqrt), (0x6D, .frnd)]
  ).lookup pop

def Pair.slot0 (p : Pair) : F64 := ⟨p.d0, p.a0, p.b0, p.c0, 0#2⟩
def Pair.slot1 (p : Pair) : F64 := ⟨p.d1, p.a1, p.b1, p.c1, 0#2⟩

/-- Row 7 of 06 R172 for the forms of layout F64, J64, M96 and W128, as far as the word decides it. Events have no
encoding and are well formed. A paired word's slots are checked by `WellFormed`. -/
def fieldsOk : Instr → Bool
  | .nop _ f | .exit _ f | .meetw _ f | .done _ f | .yield _ f | .tokwait _ f | .chkOn _ f | .chkOff _ f => f.zeros
  | .bra _ j | .call _ j | .meet _ j => j.mod.toNat == 0
  | .brc _ j => j.mod.toNat < 3
  | .brx _ f => isZ f.d && isZ f.b && isZ f.c &&
      (if f.mod.toNat == 0 then mulOf 2 f.a else f.mod.toNat == 1 && isS f.a)
  | .callx _ f => mulOf 2 f.d && isZ f.b && isZ f.c &&
      (if f.mod.toNat == 0 then mulOf 2 f.a && f.a != f.d else f.mod.toNat == 1 && isS f.a)
  | .ret _ f => isZ f.d && mulOf 2 f.a && isZ f.b && isZ f.c && f.mod.toNat == 0
  | .vote _ f => isP f.d && isP f.a && isZ f.b && isZ f.c && f.mod.toNat < 3
  | .ballot _ f => isS f.d && isP f.a && isZ f.b && isZ f.c && f.mod.toNat == 0
  | .elect _ f => isP f.d && isZ f.a && isZ f.b && isZ f.c && f.mod.toNat == 0
  | .refill _ f => mulOf 2 f.d && f.mod.toNat == 0
  | .tokpass _ f => isZ f.d && isZ f.b &&
      (if f.mod.toNat == 0 then isS f.a && isZ f.c else f.mod.toNat == 1 && isZ f.a)
  | .spawn _ f => isZ f.d && isB f.a && isS f.b && isZ f.c && f.mod.toNat == 0
  | .joinc _ f => isS f.d && isB f.a && isS f.b && isZ f.c && f.mod.toNat == 0
  | .iqPush _ f => isZ f.d && isZ f.b && isZ f.c &&
      (if f.mod.toNat == 0 then mulOf 2 f.a else f.mod.toNat == 1 && isS f.a)
  | .iqLoad _ f => mulOf 2 f.d && isZ f.a && isP f.b && isZ f.c && f.mod.toNat == 0
  | .iqCount _ f => isS f.d && isZ f.a && isZ f.b && isZ f.c && f.mod.toNat == 0
  | .sadd _ f | .ssub _ f => f.scalar2 (f.mod.toNat % 2 == 1)
  | .smul _ f | .sand _ f | .sor _ f | .sxor _ f | .sshl _ f | .sshr _ f | .ssar _ f =>
      f.mod.toNat < 2 && f.scalar2 (f.mod.toNat == 1)
  | .smulh _ f | .sdiv _ f | .srem _ f => f.mod.toNat < 2 && f.scalar2 false
  | .smin _ f | .smax _ f => f.scalar2 (2 ≤ f.mod.toNat)
  | .scmp _ f => isP f.d && isS f.a && isS f.b && f.c.toNat < 6 && f.mod.toNat < 2
  | .ssel _ f => isS f.d && isS f.a && isS f.b && isP f.c && f.mod.toNat == 0
  | .smov _ f => isS f.d && isZ f.b &&
      (if f.mod.toNat == 0 then isS f.a && isZ f.c else f.mod.toNat == 1 && f.c.toNat < 64)
  | .smovi _ w => isS w.d && isZ w.a && isZ w.b && isZ w.c && w.mod.toNat < 2
  | .slea _ f => isS f.d && isS f.a && isS f.b && isS f.c && f.mod.toNat == 0
  | .spopc _ f | .sclz _ f | .sffs _ f => isS f.d && isS f.a && isZ f.b && isZ f.c && f.mod.toNat == 0
  | .sr _ f => isZ f.a && isZ f.b &&
      (if f.mod.toNat == 0 then isS f.d else f.mod.toNat == 1 && (f.c.toNat != 9 || mulOf 2 f.d))
  | .add _ f | .sub _ f | .mul _ f | .and _ f | .or _ f | .xor _ f | .andn _ f | .shl _ f | .shr _ f | .sar _ f
  | .rot _ f => f.formTI
  | .mulh _ f | .min _ f | .max _ f | .addsat _ f | .subsat _ f | .avg _ f => f.formT 4
  | .bfe _ f => f.mod.toNat == 0 && f.c.toNat < 2
  | .cmp _ f => isP f.d && f.mod.toNat < 3 && f.c.toNat < 64 && fld f.c 2 3 < 6
  | .abs _ f | .neg _ f => isZ f.b && f.mod.toNat < 3 && (f.c.toNat == 0 || f.c.toNat == 4)
  | .not _ f | .popc _ f | .clz _ f | .ffs _ f | .brev _ f => isZ f.b && isZ f.c && f.mod.toNat < 3
  | .mov _ f => isZ f.b && isZ f.c && f.mod.toNat == 0
  | .mad _ f | .sad _ f => f.mod.toNat < 3
  | .bfi _ f => f.mod.toNat == 0
  | .sel _ f => f.mod.toNat == 0 && isP f.c
  | .dp4 _ _ => true
  | .cvti _ f => isZ f.b && f.mod.toNat < 3 && fld f.c 0 2 < 3 &&
      (let wd := 32 / 2 ^ f.mod.toNat; let ws := 32 / 2 ^ fld f.c 0 2
       fld f.c 5 2 < max (wd / ws) (max (ws / wd) 1))
  | .movi _ w => isZ w.a && isZ w.b && isZ w.c &&
      (let i := w.x.toNat + 2 ^ 32 * w.y.toNat
       match w.mod.toNat with
       | 0 => i < 2 ^ 32
       | 1 => i < 2 ^ 16
       | 2 => i < 2 ^ 8
       | _ => mulOf 2 w.d)
  | .fadd _ f | .fsub _ f | .fmul _ f => isZ f.c
  | .ffma _ _ => true
  | .fmin _ f | .fmax _ f => isZ f.c && f.mod.toNat == 0
  | .fcmp _ f => isP f.d && f.c.toNat < 8 && f.mod.toNat == 0
  | .fclass _ f => isZ f.b && isZ f.c && f.mod.toNat == 0
  | .frcp _ f | .frsq _ f | .fexp2 _ f | .flog2 _ f | .fsqrt _ f | .frnd _ f => isZ f.b && isZ f.c
  | .fcvt _ f => let df := fld f.c 3 3; let sf := fld f.c 0 3
      1 ≤ df && df ≤ 5 && 1 ≤ sf && sf ≤ 6 && sf != df && setBases f (fmtElems sf) (fmtElems df)
  | .f2i _ f => let dt := fld f.c 3 3; let sf := fld f.c 0 3
      dt < 6 && 1 ≤ sf && sf ≤ 3 && setBases f (fmtElems sf) (intElems dt)
  | .i2f _ f => let df := fld f.c 3 3; let st := fld f.c 0 3
      1 ≤ df && df ≤ 3 && st < 6 && setBases f (intElems st) (fmtElems df)
  | .fpack _ f => let df := fld f.c 3 3; 2 ≤ df && df ≤ 5 && fld f.c 2 1 == 0 && fld f.c 0 2 < fmtElems df
  | .funpk _ f => let sf := fld f.c 3 3; 2 ≤ sf && sf ≤ 6 && fld f.c 2 1 == 0 && fld f.c 0 2 < fmtElems sf
  | .bfpcvt _ f => let sf := fld f.c 3 3
      1 ≤ sf && sf ≤ 3 && fld f.c 0 3 != 0 && mulOf (4 / fmtElems sf) f.a
  | .shfl _ f => fld f.c 4 3 < 5
  | .bcast _ f => if f.mod.toNat == 0 then isZ f.b else f.mod.toNat == 1 && isS f.b && isZ f.c
  | .red _ f => isS f.d && isP f.b && fld f.c 4 3 == 0 && f.mod.toNat == 0 &&
      fld f.c 0 3 < 6 && (fld f.c 3 1 == 0 || fld f.c 0 3 < 3)
  | .scan _ f => isZ f.b && fld f.c 5 2 == 0 && f.mod.toNat == 0 &&
      fld f.c 0 3 < 6 && (fld f.c 3 1 == 0 || fld f.c 0 3 < 3)
  | .matchLanes _ f => mulOf 2 f.d && isP f.b && isZ f.c && f.mod.toNat == 0
  | .compact _ f => isP f.b && isS f.c && f.mod.toNat == 0
  | .bfpexpGet _ f => isZ f.b && isZ f.c && f.mod.toNat == 0
  | .bfpexpSet _ f => isZ f.c && f.mod.toNat == 1
  | .plpack _ f => isZ f.b && isZ f.c && f.mod.toNat == 0
  | .plunpk _ f => 1 ≤ f.c.toNat && f.c.toNat ≤ 8 && f.mod.toNat == 0
  | .prec _ f => isS f.d && isZ f.b && isZ f.c && f.mod.toNat == 0
  | .precExp _ f => isS f.d && isZ f.b && isZ f.c && f.mod.toNat == 1
  | .ptrunc _ f => isZ f.b && 1 ≤ f.c.toNat && f.c.toNat ≤ 8 && f.mod.toNat < 3
  | .ufc _ f => isS f.d && isZ f.a && isZ f.b && isZ f.c && f.mod.toNat == 0
  | .ufcClr _ f => isZ f.d && isZ f.a && isZ f.b && isZ f.c && f.mod.toNat == 1
  | .brecSet _ f => isB f.d && isB f.a && isS f.b && f.c.toNat ≤ 10 && f.mod.toNat == 0
  | .brecGet _ f => isS f.d && isB f.a && isZ f.b && f.c.toNat < 10 && f.mod.toNat == 1
  | .brecx _ w => isB w.d && isB w.a && isZ w.b && w.c.toNat ≤ 10 && w.mod.toNat == 0
  | .bchk _ f => isP f.d && scopeOk f.b && offsetOk f.mod f.a
  | .ld _ f => scopeOk f.b && offsetOk f.mod f.a && loadSz (fld f.c 4 3) && fld f.c 0 3 == 0 &&
      dataSetOk (fld f.c 4 3) f.d
  | .st _ f => scopeOk f.b && offsetOk f.mod f.a && storeSz (fld f.c 4 3) && fld f.c 0 4 == 0 &&
      dataSetOk (fld f.c 4 3) f.d
  | .ldpl _ f | .ldrf _ f => scopeOk f.b && isS f.a && f.mod.toNat == 0 && fld f.c 6 1 == 0 &&
      1 ≤ fld f.c 0 4 && fld f.c 0 4 ≤ 8
  | .stpl _ f => scopeOk f.b && isS f.a && f.mod.toNat == 0 && fld f.c 4 3 == 0 &&
      1 ≤ fld f.c 0 4 && fld f.c 0 4 ≤ 8
  | .lds _ f | .ldsr _ f => scopeOk f.b && fld f.b 0 4 == 0 && offsetOk f.mod f.a && loadSz (fld f.c 4 3) &&
      fld f.c 0 2 == 0 && fld f.c 2 2 < 3 && dataSetOk (fld f.c 4 3) f.d
  | .sts _ f | .stsr _ f => scopeOk f.b && fld f.b 0 4 == 0 && offsetOk f.mod f.a && storeSz (fld f.c 4 3) &&
      fld f.c 0 2 == 0 && fld f.c 2 2 < 2 && dataSetOk (fld f.c 4 3) f.d
  | .atom _ f => scopeOk f.b && offsetOk f.mod f.a && atomOk f (fld f.b 4 3)
  | .atoms _ f => scopeOk f.b && fld f.b 0 4 == 0 && offsetOk f.mod f.a && atomOk f (fld f.b 4 3)
  | .fenceAr _ f => isZ f.d && isZ f.a && isZ f.b && 1 ≤ f.c.toNat && f.c.toNat ≤ 6 && f.mod.toNat == 0
  | .fenceAcq _ f => isZ f.d && isZ f.a && isZ f.b && 1 ≤ f.c.toNat && f.c.toNat ≤ 6 && f.mod.toNat == 1
  | .fenceRel _ f => isZ f.d && isZ f.a && isZ f.b && 1 ≤ f.c.toNat && f.c.toNat ≤ 6 && f.mod.toNat == 2
  | .fenceSysAll _ f => isZ f.d && isZ f.a && isZ f.b && isZ f.c && f.mod.toNat == 3
  | .pref _ f => isZ f.d && fld f.b 4 3 == 0 && offsetOk f.mod f.a && fld f.c 4 2 == 0 && fld f.c 0 4 ≤ 8
  | .spin _ f => isS f.d && isS f.a && isS f.b && isZ f.c && f.mod.toNat == 0
  | .sunpin _ f => isZ f.d && isS f.a && isS f.b && isZ f.c && f.mod.toNat == 0
  | .fmtset _ f => isD f.d && isZ f.b && isZ f.c &&
      (if f.mod.toNat == 0 then isZ f.a else f.mod.toNat == 1 && isS f.a && f.imm.toNat == 0)
  | .mma _ f => isS f.d && mulOf 8 f.a && mulOf 8 f.b && fld f.c 6 1 == 0 && fld f.c 3 3 < 5 && f.mod.toNat == 0
  | .accZero _ f => isS f.d && isZ f.a && isZ f.b && isZ f.c && f.mod.toNat < 3
  | .accRd _ f | .accRdx _ f => isS f.a && isS f.b && fld f.c 3 4 == 0 && f.mod.toNat == 0
  | .accMax _ f => isS f.a && isZ f.b && f.c.toNat < 2 && f.mod.toNat < 2
  | .accScl _ f => isS f.d && isZ f.c && f.mod.toNat == 0
  | .accLd _ f => isS f.d && isS f.a && isZ f.b && fld f.c 3 4 == 0 && fld f.c 0 2 < 2 && f.mod.toNat == 0
  | .accDrn _ f => isZ f.d && isS f.a && isS f.b && fld f.c 4 3 == 0 && fld f.c 0 2 == 0 && f.mod.toNat == 0
  | .kvslot _ f => fld f.c 3 4 == 0 && scopeOk f.b && mulOf 4 f.d && (f.mod.toNat % 2 == 1 || mulOf 2 f.a)
  | .hamd _ f => fld f.c 2 5 == 0 && fld f.c 0 2 < 3 && f.mod.toNat < 2
  | .gwalk _ f => isS f.d && isS f.a && 1 ≤ fld f.b 4 3 && fld f.b 4 3 ≤ 6 && 1 ≤ fld f.c 0 4 &&
      fld f.c 4 3 == 0 && f.mod.toNat == 0
  | .cqInit _ f => isZ f.d && isS f.a && isS f.b && isZ f.c && f.mod.toNat < 2
  | .cqPush _ f => isP f.d && isS f.a && f.mod.toNat < 2
  | .cqPop _ f => mulOf 2 f.d && isS f.a && isP f.b && isZ f.c && f.mod.toNat < 2
  | .cqTop _ f => isS f.d && isS f.a && isZ f.b && f.c.toNat < 4 && f.mod.toNat < 2
  | .vfTest _ f => isP f.d && isS f.a && 10 ≤ f.c.toNat && f.c.toNat ≤ 24
  | .pcopy _ w | .pstore _ w => w.cmd && w.mod.toNat == 0 && w.y.toNat ≤ 8
  | .pcopyRf _ w => w.cmd && w.mod.toNat == 0 && 1 ≤ w.y.toNat && w.y.toNat ≤ 8
  | .pfill _ w => w.cmd && isZ w.b && w.y.toNat == 0 && w.mod.toNat < 3 && w.x.toNat % 16 == 0
  | .pxform _ w => w.cmd && w.mod.toNat < 3 && w.y.toNat < 2 ^ 24 && (w.mod.toNat != 2 || isZ w.b)
  | .qfence _ f | .qwait _ f => f.qmask
  | .qmark _ f => f.d.toNat < 8 && isS f.a && isS f.b && f.c.toNat < 2 && f.mod.toNat == 0
  | .csend _ f => isS f.d && isS f.a && isS f.b && fld f.c 5 2 == 0 && f.a.toNat + f.c.toNat ≤ 63 &&
      f.mod.toNat == 0 && bitsOf f.imm.toNat 24 8 == 0
  | .cput _ w | .cget _ w => isS w.d && isS w.a && isS w.b && isS w.c && w.mod.toNat == 0 &&
      w.x.toNat % 16 == 0 && 16 ≤ w.x.toNat && w.x.toNat ≤ 2 ^ 24 && w.y.toNat < 4
  | .catom _ f => isS f.d && isS f.a && isS f.b && isS f.c && f.mod.toNat == 0 &&
      (let i := f.imm.toNat
       bitsOf i 25 7 == 0 && bitsOf i 16 4 < 9 && (bitsOf i 16 4 < 7 || bitAt i 24) && (bitAt i 24 || isZ f.d))
  | .arrset _ f => isZ f.d && isS f.a && isS f.b && isS f.c
  | .arrwait _ f => isS f.d && isS f.a && isZ f.b && f.c.toNat ≤ 24 && f.mod.toNat < 2
  | .lease _ f => isS f.d && isZ f.a && isS f.b && isS f.c && f.mod.toNat < 2
  | .lrel _ f => isZ f.d && isS f.a && isZ f.b && isZ f.c && f.mod.toNat == 0
  | .lqry _ f => isS f.d && isZ f.a && isS f.b && f.c.toNat ≤ 4 && f.mod.toNat == 0
  | .barArv _ f | .barSync _ f => isZ f.d && isZ f.a && f.c.toNat < 16 &&
      (if f.mod.toNat == 0 then isZ f.b else f.mod.toNat == 1 && isS f.b)
  | .barWt _ f => isZ f.d && isZ f.a && isZ f.b && f.c.toNat < 16 && f.mod.toNat == 0
  | .feWait _ f => isZ f.d && isZ f.b && isS f.a && f.mod.toNat < 2
  | .assert _ f => isZ f.d && isZ f.c && isP f.a && isB f.b && f.mod.toNat < 2
  | .brk _ f => isZ f.d && isZ f.a && isZ f.b && f.mod.toNat == 0
  | .csrrd _ f => isS f.d && isZ f.a && f.mod.toNat == 0
  | .csrwr _ f => isZ f.d && isS f.a && f.mod.toNat == 0
  | .sret _ f | .stbinv _ f => isZ f.d && isS f.a && isS f.b && isZ f.c && f.mod.toNat == 0
  | .spmap _ f => isZ f.d && isS f.a && isS f.b && isZ f.c && f.mod.toNat < 3
  | .spunmap _ f => isZ f.d && isS f.a && isZ f.b && isZ f.c && f.mod.toNat == 0
  | _ => true

/-- The control field of a word; events have none. -/
def Instr.ctl? : Instr → Option Ctl
  | .nop c _ | .bra c _ | .brc c _ | .brx c _ | .call c _ | .callx c _
  | .ret c _ | .exit c _ | .meet c _ | .meetw c _ | .vote c _ | .ballot c _
  | .elect c _ | .refill c _ | .done c _ | .yield c _ | .tokpass c _ | .tokwait c _
  | .spawn c _ | .joinc c _ | .iqPush c _ | .iqLoad c _ | .iqCount c _ | .sadd c _
  | .ssub c _ | .smul c _ | .smulh c _ | .sdiv c _ | .srem c _ | .sand c _
  | .sor c _ | .sxor c _ | .sshl c _ | .sshr c _ | .ssar c _ | .smin c _
  | .smax c _ | .scmp c _ | .ssel c _ | .smov c _ | .smovi c _ | .slea c _
  | .spopc c _ | .sclz c _ | .sffs c _ | .sr c _ | .add c _ | .sub c _
  | .mul c _ | .mulh c _ | .mad c _ | .abs c _ | .neg c _ | .min c _
  | .max c _ | .and c _ | .or c _ | .xor c _ | .andn c _ | .not c _
  | .shl c _ | .shr c _ | .sar c _ | .rot c _ | .bfe c _ | .bfi c _
  | .popc c _ | .clz c _ | .ffs c _ | .brev c _ | .cmp c _ | .sel c _
  | .mov c _ | .movi c _ | .cvti c _ | .addsat c _ | .subsat c _ | .avg c _
  | .sad c _ | .dp4 c _ | .fadd c _ | .fsub c _ | .fmul c _ | .ffma c _
  | .fmin c _ | .fmax c _ | .fcmp c _ | .fclass c _ | .frcp c _ | .frsq c _
  | .fexp2 c _ | .flog2 c _ | .fsqrt c _ | .frnd c _ | .fcvt c _ | .f2i c _
  | .i2f c _ | .fpack c _ | .funpk c _ | .shfl c _ | .bcast c _ | .red c _
  | .scan c _ | .matchLanes c _ | .compact c _ | .bfpcvt c _ | .bfpexpGet c _ | .bfpexpSet c _
  | .plpack c _ | .plunpk c _ | .prec c _ | .precExp c _ | .ptrunc c _ | .ufc c _
  | .ufcClr c _ | .brecSet c _ | .brecGet c _ | .brecx c _ | .bchk c _ | .ld c _
  | .st c _ | .ldpl c _ | .ldrf c _ | .stpl c _ | .lds c _ | .sts c _
  | .ldsr c _ | .stsr c _ | .atom c _ | .atoms c _ | .fenceAr c _ | .fenceAcq c _
  | .fenceRel c _ | .fenceSysAll c _ | .pref c _ | .spin c _ | .sunpin c _ | .fmtset c _
  | .mma c _ | .accZero c _ | .accRd c _ | .accRdx c _ | .accMax c _ | .accScl c _
  | .accLd c _ | .accDrn c _ | .kvslot c _ | .hamd c _ | .gwalk c _ | .cqInit c _
  | .cqPush c _ | .cqPop c _ | .cqTop c _ | .vfTest c _ | .pcopy c _ | .pcopyRf c _
  | .pstore c _ | .pfill c _ | .pxform c _ | .qfence c _ | .qmark c _ | .qwait c _
  | .csend c _ | .cput c _ | .cget c _ | .catom c _ | .arrset c _ | .arrwait c _
  | .lease c _ | .lrel c _ | .lqry c _ | .barArv c _ | .barWt c _ | .barSync c _
  | .feWait c _ | .assert c _ | .brk c _ | .csrrd c _ | .csrwr c _ | .sret c _
  | .stbinv c _ | .spmap c _ | .spunmap c _ | .chkOn c _ | .chkOff c _ | .paired c _ => some c
  | _ => none

/-- A word is well formed when no check of 06 R172 row 7 that the word alone decides fails. In a paired word each slot
is checked as its 64-bit form with MOD 00 (06 R170). -/
def WellFormed (i : Instr) : Bool :=
  (match i.ctl? with | some c => c.wf | none => true) &&
  match i with
  | .paired c p =>
    (match pairable p.pop0.toNat with | some k => fieldsOk (k c p.slot0) | none => false) &&
    (match pairable p.pop1.toNat with | some k => fieldsOk (k c p.slot1) | none => false)
  | i => fieldsOk i

end Sys2Proof
end

