-- ==== Sys2Proof/Decode.lean ====
section
/-! DEFINITION. Decode.lean: from the bits of an instruction to `Instr`, rejecting by name under rows 2 to 5 of 06 R172,
and the encoder written from the same tables (06 R152-R159, R167-R171). Row 7 is `WellFormed`; row 1 needs the address
and is checked at fetch. -/

namespace Sys2Proof

/-- Why a word is no instruction; each is ILLEGAL_INSTR (06 R172 rows 2 to 5). -/
inductive DecodeError where
  /-- LEN = 11 (row 2). -/
  | lenReserved
  /-- OPC unassigned (row 3). -/
  | opcUnassigned
  /-- An assigned OPC with a LEN other than its length (row 4). -/
  | lenMismatch
  /-- A paired word that breaks R168 or R169 (row 5). -/
  | pairBroken
  deriving DecidableEq, Repr

/-- The fields above OPC, by layout (06 R157, R167). -/
inductive Body where
  | f64 (f : F64) | j64 (f : J64) | m96 (f : M96) | w128 (f : W128)
  deriving DecidableEq, Repr

/-- The opcode map of 06 R171, one table per layout. -/
def opsF64 : List (Nat × (Ctl → F64 → Instr)) :=
  List.flatten [
   [(0x000, Instr.nop), (0x003, Instr.brx), (0x005, Instr.callx), (0x006, Instr.ret), (0x007, Instr.exit), (0x009, Instr.meetw), (0x00A, Instr.vote), (0x00B, Instr.ballot), (0x00C, Instr.elect), (0x00D, Instr.refill), (0x00E, Instr.done), (0x00F, Instr.yield), (0x010, Instr.tokpass), (0x011, Instr.tokwait), (0x012, Instr.spawn), (0x013, Instr.joinc)],
   [(0x014, Instr.iqPush), (0x015, Instr.iqLoad), (0x016, Instr.iqCount), (0x040, Instr.sadd), (0x041, Instr.ssub), (0x042, Instr.smul), (0x043, Instr.smulh), (0x044, Instr.sdiv), (0x045, Instr.srem), (0x046, Instr.sand), (0x047, Instr.sor), (0x048, Instr.sxor), (0x049, Instr.sshl), (0x04A, Instr.sshr), (0x04B, Instr.ssar), (0x04C, Instr.smin)],
   [(0x04D, Instr.smax), (0x04E, Instr.scmp), (0x04F, Instr.ssel), (0x050, Instr.smov), (0x052, Instr.slea), (0x053, Instr.spopc), (0x054, Instr.sclz), (0x055, Instr.sffs), (0x056, Instr.sr), (0x080, Instr.add), (0x081, Instr.sub), (0x082, Instr.mul), (0x083, Instr.mulh), (0x084, Instr.mad), (0x085, Instr.abs), (0x086, Instr.neg)],
   [(0x087, Instr.min), (0x088, Instr.max), (0x089, Instr.and), (0x08A, Instr.or), (0x08B, Instr.xor), (0x08C, Instr.andn), (0x08D, Instr.not), (0x08E, Instr.shl), (0x08F, Instr.shr), (0x090, Instr.sar), (0x091, Instr.rot), (0x092, Instr.bfe), (0x093, Instr.bfi), (0x094, Instr.popc), (0x095, Instr.clz), (0x096, Instr.ffs)],
   [(0x097, Instr.brev), (0x098, Instr.cmp), (0x099, Instr.sel), (0x09A, Instr.mov), (0x09C, Instr.cvti), (0x09D, Instr.addsat), (0x09E, Instr.subsat), (0x09F, Instr.avg), (0x0A0, Instr.sad), (0x0A1, Instr.dp4), (0x140, Instr.fadd), (0x141, Instr.fsub), (0x142, Instr.fmul), (0x143, Instr.ffma), (0x144, Instr.fmin), (0x145, Instr.fmax)],
   [(0x146, Instr.fcmp), (0x147, Instr.fclass), (0x148, Instr.frcp), (0x149, Instr.frsq), (0x14A, Instr.fexp2), (0x14B, Instr.flog2), (0x14C, Instr.fsqrt), (0x14D, Instr.frnd), (0x14E, Instr.fcvt), (0x14F, Instr.f2i), (0x150, Instr.i2f), (0x151, Instr.fpack), (0x152, Instr.funpk), (0x1C0, Instr.shfl), (0x1C1, Instr.bcast), (0x1C2, Instr.red)],
   [(0x1C3, Instr.scan), (0x1C4, Instr.matchLanes), (0x1C5, Instr.compact), (0x1E0, Instr.bfpcvt), (0x1E1, fun c f => if f.mod.toNat == 1 then .bfpexpSet c f else .bfpexpGet c f), (0x1E2, Instr.plpack), (0x1E3, Instr.plunpk), (0x1E4, fun c f => if f.mod.toNat == 1 then .precExp c f else .prec c f), (0x1E5, Instr.ptrunc), (0x1E6, fun c f => if f.mod.toNat == 1 then .ufcClr c f else .ufc c f), (0x200, fun c f => if f.mod.toNat == 1 then .brecGet c f else .brecSet c f), (0x202, Instr.bchk), (0x20E, fun c f => match f.mod.toNat with | 0 => .fenceAr c f | 1 => .fenceAcq c f | 2 => .fenceRel c f | _ => .fenceSysAll c f), (0x210, Instr.spin), (0x211, Instr.sunpin), (0x281, Instr.mma)],
   [(0x282, Instr.accZero), (0x283, Instr.accRd), (0x284, Instr.accRdx), (0x285, Instr.accMax), (0x286, Instr.accScl), (0x2C0, Instr.kvslot), (0x2C1, Instr.hamd), (0x2C3, Instr.cqInit), (0x2C4, Instr.cqPush), (0x2C5, Instr.cqPop), (0x2C6, Instr.cqTop), (0x2C7, Instr.vfTest), (0x2E5, Instr.qfence), (0x2E6, Instr.qmark), (0x2E7, Instr.qwait), (0x304, Instr.arrset)],
   [(0x305, Instr.arrwait), (0x306, Instr.lease), (0x307, Instr.lrel), (0x308, Instr.lqry), (0x340, Instr.barArv), (0x341, Instr.barWt), (0x342, Instr.barSync), (0x361, Instr.brk), (0x362, Instr.csrrd), (0x363, Instr.csrwr), (0x364, Instr.sret), (0x365, Instr.stbinv), (0x366, Instr.spmap), (0x367, Instr.spunmap), (0x368, Instr.chkOn), (0x369, Instr.chkOff)]]

def opsJ64 : List (Nat × (Ctl → J64 → Instr)) :=
  List.flatten [
   [(0x001, Instr.bra), (0x002, Instr.brc), (0x004, Instr.call), (0x008, Instr.meet)]]

def opsM96 : List (Nat × (Ctl → M96 → Instr)) :=
  List.flatten [
   [(0x203, Instr.ld), (0x204, Instr.st), (0x205, Instr.ldpl), (0x206, Instr.ldrf), (0x207, Instr.stpl), (0x208, Instr.lds), (0x209, Instr.sts), (0x20A, Instr.ldsr), (0x20B, Instr.stsr), (0x20C, Instr.atom), (0x20D, Instr.atoms), (0x20F, Instr.pref), (0x280, Instr.fmtset), (0x287, Instr.accLd), (0x288, Instr.accDrn), (0x2C2, Instr.gwalk)],
   [(0x300, Instr.csend), (0x303, Instr.catom), (0x343, Instr.feWait), (0x360, Instr.assert)]]

def opsW128 : List (Nat × (Ctl → W128 → Instr)) :=
  List.flatten [
   [(0x051, Instr.smovi), (0x09B, Instr.movi), (0x201, Instr.brecx), (0x2E0, Instr.pcopy), (0x2E1, Instr.pcopyRf), (0x2E2, Instr.pstore), (0x2E3, Instr.pfill), (0x2E4, Instr.pxform), (0x301, Instr.cput), (0x302, Instr.cget)]]

/-- The opcode, control field and body of a word that is not paired; none for paired words and events. -/
def Instr.parts : Instr → Option (Nat × Ctl × Body)
  | .nop c f => some (0x000, c, .f64 f)
  | .bra c f => some (0x001, c, .j64 f)
  | .brc c f => some (0x002, c, .j64 f)
  | .brx c f => some (0x003, c, .f64 f)
  | .call c f => some (0x004, c, .j64 f)
  | .callx c f => some (0x005, c, .f64 f)
  | .ret c f => some (0x006, c, .f64 f)
  | .exit c f => some (0x007, c, .f64 f)
  | .meet c f => some (0x008, c, .j64 f)
  | .meetw c f => some (0x009, c, .f64 f)
  | .vote c f => some (0x00A, c, .f64 f)
  | .ballot c f => some (0x00B, c, .f64 f)
  | .elect c f => some (0x00C, c, .f64 f)
  | .refill c f => some (0x00D, c, .f64 f)
  | .done c f => some (0x00E, c, .f64 f)
  | .yield c f => some (0x00F, c, .f64 f)
  | .tokpass c f => some (0x010, c, .f64 f)
  | .tokwait c f => some (0x011, c, .f64 f)
  | .spawn c f => some (0x012, c, .f64 f)
  | .joinc c f => some (0x013, c, .f64 f)
  | .iqPush c f => some (0x014, c, .f64 f)
  | .iqLoad c f => some (0x015, c, .f64 f)
  | .iqCount c f => some (0x016, c, .f64 f)
  | .sadd c f => some (0x040, c, .f64 f)
  | .ssub c f => some (0x041, c, .f64 f)
  | .smul c f => some (0x042, c, .f64 f)
  | .smulh c f => some (0x043, c, .f64 f)
  | .sdiv c f => some (0x044, c, .f64 f)
  | .srem c f => some (0x045, c, .f64 f)
  | .sand c f => some (0x046, c, .f64 f)
  | .sor c f => some (0x047, c, .f64 f)
  | .sxor c f => some (0x048, c, .f64 f)
  | .sshl c f => some (0x049, c, .f64 f)
  | .sshr c f => some (0x04A, c, .f64 f)
  | .ssar c f => some (0x04B, c, .f64 f)
  | .smin c f => some (0x04C, c, .f64 f)
  | .smax c f => some (0x04D, c, .f64 f)
  | .scmp c f => some (0x04E, c, .f64 f)
  | .ssel c f => some (0x04F, c, .f64 f)
  | .smov c f => some (0x050, c, .f64 f)
  | .smovi c f => some (0x051, c, .w128 f)
  | .slea c f => some (0x052, c, .f64 f)
  | .spopc c f => some (0x053, c, .f64 f)
  | .sclz c f => some (0x054, c, .f64 f)
  | .sffs c f => some (0x055, c, .f64 f)
  | .sr c f => some (0x056, c, .f64 f)
  | .add c f => some (0x080, c, .f64 f)
  | .sub c f => some (0x081, c, .f64 f)
  | .mul c f => some (0x082, c, .f64 f)
  | .mulh c f => some (0x083, c, .f64 f)
  | .mad c f => some (0x084, c, .f64 f)
  | .abs c f => some (0x085, c, .f64 f)
  | .neg c f => some (0x086, c, .f64 f)
  | .min c f => some (0x087, c, .f64 f)
  | .max c f => some (0x088, c, .f64 f)
  | .and c f => some (0x089, c, .f64 f)
  | .or c f => some (0x08A, c, .f64 f)
  | .xor c f => some (0x08B, c, .f64 f)
  | .andn c f => some (0x08C, c, .f64 f)
  | .not c f => some (0x08D, c, .f64 f)
  | .shl c f => some (0x08E, c, .f64 f)
  | .shr c f => some (0x08F, c, .f64 f)
  | .sar c f => some (0x090, c, .f64 f)
  | .rot c f => some (0x091, c, .f64 f)
  | .bfe c f => some (0x092, c, .f64 f)
  | .bfi c f => some (0x093, c, .f64 f)
  | .popc c f => some (0x094, c, .f64 f)
  | .clz c f => some (0x095, c, .f64 f)
  | .ffs c f => some (0x096, c, .f64 f)
  | .brev c f => some (0x097, c, .f64 f)
  | .cmp c f => some (0x098, c, .f64 f)
  | .sel c f => some (0x099, c, .f64 f)
  | .mov c f => some (0x09A, c, .f64 f)
  | .movi c f => some (0x09B, c, .w128 f)
  | .cvti c f => some (0x09C, c, .f64 f)
  | .addsat c f => some (0x09D, c, .f64 f)
  | .subsat c f => some (0x09E, c, .f64 f)
  | .avg c f => some (0x09F, c, .f64 f)
  | .sad c f => some (0x0A0, c, .f64 f)
  | .dp4 c f => some (0x0A1, c, .f64 f)
  | .fadd c f => some (0x140, c, .f64 f)
  | .fsub c f => some (0x141, c, .f64 f)
  | .fmul c f => some (0x142, c, .f64 f)
  | .ffma c f => some (0x143, c, .f64 f)
  | .fmin c f => some (0x144, c, .f64 f)
  | .fmax c f => some (0x145, c, .f64 f)
  | .fcmp c f => some (0x146, c, .f64 f)
  | .fclass c f => some (0x147, c, .f64 f)
  | .frcp c f => some (0x148, c, .f64 f)
  | .frsq c f => some (0x149, c, .f64 f)
  | .fexp2 c f => some (0x14A, c, .f64 f)
  | .flog2 c f => some (0x14B, c, .f64 f)
  | .fsqrt c f => some (0x14C, c, .f64 f)
  | .frnd c f => some (0x14D, c, .f64 f)
  | .fcvt c f => some (0x14E, c, .f64 f)
  | .f2i c f => some (0x14F, c, .f64 f)
  | .i2f c f => some (0x150, c, .f64 f)
  | .fpack c f => some (0x151, c, .f64 f)
  | .funpk c f => some (0x152, c, .f64 f)
  | .shfl c f => some (0x1C0, c, .f64 f)
  | .bcast c f => some (0x1C1, c, .f64 f)
  | .red c f => some (0x1C2, c, .f64 f)
  | .scan c f => some (0x1C3, c, .f64 f)
  | .matchLanes c f => some (0x1C4, c, .f64 f)
  | .compact c f => some (0x1C5, c, .f64 f)
  | .bfpcvt c f => some (0x1E0, c, .f64 f)
  | .bfpexpGet c f => some (0x1E1, c, .f64 f)
  | .bfpexpSet c f => some (0x1E1, c, .f64 f)
  | .plpack c f => some (0x1E2, c, .f64 f)
  | .plunpk c f => some (0x1E3, c, .f64 f)
  | .prec c f => some (0x1E4, c, .f64 f)
  | .precExp c f => some (0x1E4, c, .f64 f)
  | .ptrunc c f => some (0x1E5, c, .f64 f)
  | .ufc c f => some (0x1E6, c, .f64 f)
  | .ufcClr c f => some (0x1E6, c, .f64 f)
  | .brecSet c f => some (0x200, c, .f64 f)
  | .brecGet c f => some (0x200, c, .f64 f)
  | .brecx c f => some (0x201, c, .w128 f)
  | .bchk c f => some (0x202, c, .f64 f)
  | .ld c f => some (0x203, c, .m96 f)
  | .st c f => some (0x204, c, .m96 f)
  | .ldpl c f => some (0x205, c, .m96 f)
  | .ldrf c f => some (0x206, c, .m96 f)
  | .stpl c f => some (0x207, c, .m96 f)
  | .lds c f => some (0x208, c, .m96 f)
  | .sts c f => some (0x209, c, .m96 f)
  | .ldsr c f => some (0x20A, c, .m96 f)
  | .stsr c f => some (0x20B, c, .m96 f)
  | .atom c f => some (0x20C, c, .m96 f)
  | .atoms c f => some (0x20D, c, .m96 f)
  | .fenceAr c f => some (0x20E, c, .f64 f)
  | .fenceAcq c f => some (0x20E, c, .f64 f)
  | .fenceRel c f => some (0x20E, c, .f64 f)
  | .fenceSysAll c f => some (0x20E, c, .f64 f)
  | .pref c f => some (0x20F, c, .m96 f)
  | .spin c f => some (0x210, c, .f64 f)
  | .sunpin c f => some (0x211, c, .f64 f)
  | .fmtset c f => some (0x280, c, .m96 f)
  | .mma c f => some (0x281, c, .f64 f)
  | .accZero c f => some (0x282, c, .f64 f)
  | .accRd c f => some (0x283, c, .f64 f)
  | .accRdx c f => some (0x284, c, .f64 f)
  | .accMax c f => some (0x285, c, .f64 f)
  | .accScl c f => some (0x286, c, .f64 f)
  | .accLd c f => some (0x287, c, .m96 f)
  | .accDrn c f => some (0x288, c, .m96 f)
  | .kvslot c f => some (0x2C0, c, .f64 f)
  | .hamd c f => some (0x2C1, c, .f64 f)
  | .gwalk c f => some (0x2C2, c, .m96 f)
  | .cqInit c f => some (0x2C3, c, .f64 f)
  | .cqPush c f => some (0x2C4, c, .f64 f)
  | .cqPop c f => some (0x2C5, c, .f64 f)
  | .cqTop c f => some (0x2C6, c, .f64 f)
  | .vfTest c f => some (0x2C7, c, .f64 f)
  | .pcopy c f => some (0x2E0, c, .w128 f)
  | .pcopyRf c f => some (0x2E1, c, .w128 f)
  | .pstore c f => some (0x2E2, c, .w128 f)
  | .pfill c f => some (0x2E3, c, .w128 f)
  | .pxform c f => some (0x2E4, c, .w128 f)
  | .qfence c f => some (0x2E5, c, .f64 f)
  | .qmark c f => some (0x2E6, c, .f64 f)
  | .qwait c f => some (0x2E7, c, .f64 f)
  | .csend c f => some (0x300, c, .m96 f)
  | .cput c f => some (0x301, c, .w128 f)
  | .cget c f => some (0x302, c, .w128 f)
  | .catom c f => some (0x303, c, .m96 f)
  | .arrset c f => some (0x304, c, .f64 f)
  | .arrwait c f => some (0x305, c, .f64 f)
  | .lease c f => some (0x306, c, .f64 f)
  | .lrel c f => some (0x307, c, .f64 f)
  | .lqry c f => some (0x308, c, .f64 f)
  | .barArv c f => some (0x340, c, .f64 f)
  | .barWt c f => some (0x341, c, .f64 f)
  | .barSync c f => some (0x342, c, .f64 f)
  | .feWait c f => some (0x343, c, .m96 f)
  | .assert c f => some (0x360, c, .m96 f)
  | .brk c f => some (0x361, c, .f64 f)
  | .csrrd c f => some (0x362, c, .f64 f)
  | .csrwr c f => some (0x363, c, .f64 f)
  | .sret c f => some (0x364, c, .f64 f)
  | .stbinv c f => some (0x365, c, .f64 f)
  | .spmap c f => some (0x366, c, .f64 f)
  | .spunmap c f => some (0x367, c, .f64 f)
  | .chkOn c f => some (0x368, c, .f64 f)
  | .chkOff c f => some (0x369, c, .f64 f)
  | _ => none

/-- The length code of 06 R152 as a number of bytes; none for 11. -/
def lenBytes (len : Nat) : Option Nat :=
  if len == 0 then some 8 else if len == 1 then some 12 else if len == 2 then some 16 else none

def Body.len : Body → Nat
  | .f64 _ | .j64 _ => 0
  | .m96 _ => 1
  | .w128 _ => 2

/-- The length code of an instruction (06 R171); events have none and count as 0. -/
def Instr.len (i : Instr) : Nat :=
  match i with
  | .paired _ _ => 1
  | i => match i.parts with | some (_, _, b) => b.len | none => 0

/-- The bytes of an instruction. -/
def Instr.size (i : Instr) : Nat := if i.len == 0 then 8 else if i.len == 1 then 12 else 16

/-! ## The control field -/

def decodeCtl (w : Nat) : Ctl :=
  { stall := BitVec.ofNat 4 (bitsOf w 2 4), waitm := BitVec.ofNat 6 (bitsOf w 6 6),
    setw := BitVec.ofNat 3 (bitsOf w 12 3), pred := BitVec.ofNat 3 (bitsOf w 15 3),
    pneg := bitAt w 18, yld := bitAt w 19, rsv := BitVec.ofNat 4 (bitsOf w 20 4) }

def encodeCtl (c : Ctl) (len : Nat) : Nat :=
  len + c.stall.toNat * 2 ^ 2 + c.waitm.toNat * 2 ^ 6 + c.setw.toNat * 2 ^ 12 + c.pred.toNat * 2 ^ 15 +
    c.pneg.toNat * 2 ^ 18 + c.yld.toNat * 2 ^ 19 + c.rsv.toNat * 2 ^ 20

/-! ## Bodies -/

def decodeF64 (w : Nat) : F64 :=
  { d := BitVec.ofNat 7 (bitsOf w 34 7), a := BitVec.ofNat 7 (bitsOf w 41 7), b := BitVec.ofNat 7 (bitsOf w 48 7),
    c := BitVec.ofNat 7 (bitsOf w 55 7), mod := BitVec.ofNat 2 (bitsOf w 62 2) }

def decodeJ64 (w : Nat) : J64 :=
  { off := BitVec.ofNat 28 (bitsOf w 34 28), mod := BitVec.ofNat 2 (bitsOf w 62 2) }

def decodeM96 (w : Nat) : M96 :=
  { d := BitVec.ofNat 7 (bitsOf w 34 7), a := BitVec.ofNat 7 (bitsOf w 41 7), b := BitVec.ofNat 7 (bitsOf w 48 7),
    c := BitVec.ofNat 7 (bitsOf w 55 7), mod := BitVec.ofNat 2 (bitsOf w 62 2),
    imm := BitVec.ofNat 32 (bitsOf w 64 32) }

def decodeW128 (w : Nat) : W128 :=
  { d := BitVec.ofNat 7 (bitsOf w 34 7), a := BitVec.ofNat 7 (bitsOf w 41 7), b := BitVec.ofNat 7 (bitsOf w 48 7),
    c := BitVec.ofNat 7 (bitsOf w 55 7), mod := BitVec.ofNat 2 (bitsOf w 62 2),
    x := BitVec.ofNat 32 (bitsOf w 64 32), y := BitVec.ofNat 32 (bitsOf w 96 32) }

/-- The slots of a paired word (06 R167): POP1 has its high bits in 25:24 and its low bits in 67:62. -/
def decodePair (w : Nat) : Pair :=
  { pop0 := BitVec.ofNat 8 (bitsOf w 26 8), d0 := BitVec.ofNat 7 (bitsOf w 34 7), a0 := BitVec.ofNat 7 (bitsOf w 41 7),
    b0 := BitVec.ofNat 7 (bitsOf w 48 7), c0 := BitVec.ofNat 7 (bitsOf w 55 7),
    pop1 := BitVec.ofNat 8 (bitsOf w 62 6 + 2 ^ 6 * bitsOf w 24 2), d1 := BitVec.ofNat 7 (bitsOf w 68 7),
    a1 := BitVec.ofNat 7 (bitsOf w 75 7), b1 := BitVec.ofNat 7 (bitsOf w 82 7), c1 := BitVec.ofNat 7 (bitsOf w 89 7) }

def encodeBody : Body → Nat
  | .f64 f => f.d.toNat * 2 ^ 34 + f.a.toNat * 2 ^ 41 + f.b.toNat * 2 ^ 48 + f.c.toNat * 2 ^ 55 + f.mod.toNat * 2 ^ 62
  | .j64 f => f.off.toNat * 2 ^ 34 + f.mod.toNat * 2 ^ 62
  | .m96 f => f.d.toNat * 2 ^ 34 + f.a.toNat * 2 ^ 41 + f.b.toNat * 2 ^ 48 + f.c.toNat * 2 ^ 55 + f.mod.toNat * 2 ^ 62 +
      f.imm.toNat * 2 ^ 64
  | .w128 f => f.d.toNat * 2 ^ 34 + f.a.toNat * 2 ^ 41 + f.b.toNat * 2 ^ 48 + f.c.toNat * 2 ^ 55 + f.mod.toNat * 2 ^ 62 +
      f.x.toNat * 2 ^ 64 + f.y.toNat * 2 ^ 96

def encodePair (p : Pair) : Nat :=
  (p.pop1.toNat / 2 ^ 6) * 2 ^ 24 + p.pop0.toNat * 2 ^ 26 + p.d0.toNat * 2 ^ 34 + p.a0.toNat * 2 ^ 41 +
    p.b0.toNat * 2 ^ 48 + p.c0.toNat * 2 ^ 55 + (p.pop1.toNat % 2 ^ 6) * 2 ^ 62 + p.d1.toNat * 2 ^ 68 +
    p.a1.toNat * 2 ^ 75 + p.b1.toNat * 2 ^ 82 + p.c1.toNat * 2 ^ 89

/-! ## The restrictions on paired words (06 R169) -/

/-- The vector source registers of a pairable instruction. -/
def slotVSrcs : Instr → List Nat
  | .add _ f | .sub _ f | .mul _ f | .mulh _ f | .min _ f | .max _ f | .and _ f | .or _ f | .xor _ f | .andn _ f
  | .shl _ f | .shr _ f | .sar _ f | .rot _ f | .cmp _ f | .addsat _ f | .subsat _ f | .avg _ f =>
      if fld f.c 1 1 == 1 then [f.a.toNat] else [f.a.toNat, f.b.toNat]
  | .bfe _ f | .sel _ f | .fadd _ f | .fsub _ f | .fmul _ f | .fmin _ f | .fmax _ f | .fcmp _ f => [f.a.toNat, f.b.toNat]
  | .mad _ f | .bfi _ f | .sad _ f | .dp4 _ f | .ffma _ f => [f.a.toNat, f.b.toNat, f.c.toNat]
  | .abs _ f | .neg _ f | .not _ f | .popc _ f | .clz _ f | .ffs _ f | .brev _ f | .mov _ f
  | .fclass _ f | .frcp _ f | .frsq _ f | .fexp2 _ f | .flog2 _ f | .fsqrt _ f | .frnd _ f => [f.a.toNat]
  | .cvti _ f => [f.a.toNat]
  | _ => []

/-- The kinds of register a pairable instruction can write. -/
inductive DestKind where
  | v | s | p
  deriving DecidableEq, Repr

/-- The register a pairable instruction writes. -/
def slotDest : Instr → Option (DestKind × Nat)
  | .sadd _ f | .ssub _ f | .smul _ f | .smulh _ f | .sand _ f | .sor _ f | .sxor _ f | .sshl _ f | .sshr _ f | .ssar _ f
  | .smin _ f | .smax _ f | .ssel _ f | .smov _ f | .slea _ f | .spopc _ f | .sclz _ f | .sffs _ f => some (.s, f.d.toNat)
  | .scmp _ f | .cmp _ f | .fcmp _ f => some (.p, f.d.toNat)
  | .add _ f | .sub _ f | .mul _ f | .mulh _ f | .mad _ f | .abs _ f | .neg _ f | .min _ f | .max _ f | .and _ f | .or _ f
  | .xor _ f | .andn _ f | .not _ f | .shl _ f | .shr _ f | .sar _ f | .rot _ f | .bfe _ f | .bfi _ f | .popc _ f | .clz _ f
  | .ffs _ f | .brev _ f | .sel _ f | .mov _ f | .cvti _ f | .addsat _ f | .subsat _ f | .avg _ f | .sad _ f | .dp4 _ f
  | .fadd _ f | .fsub _ f | .fmul _ f | .ffma _ f | .fmin _ f | .fmax _ f | .fclass _ f | .frcp _ f | .frsq _ f
  | .fexp2 _ f | .flog2 _ f | .fsqrt _ f | .frnd _ f => some (.v, f.d.toNat)
  | _ => none

def mulAddClass : Instr → Bool
  | .smul .. | .smulh .. | .mul .. | .mulh .. | .mad .. | .sad .. | .dp4 .. | .fmul .. | .ffma .. => true
  | _ => false

def transcClass : Instr → Bool
  | .frcp .. | .frsq .. | .fexp2 .. | .flog2 .. | .fsqrt .. => true
  | _ => false

/-- Banks (index mod 4) that a set of vector registers falls in, each counted once (06 R169). -/
def bankCount (rs : List Nat) : Nat := ((List.range 4).filter fun k => rs.any fun r => r % 4 == k).length

/-- 06 R168 and R169. -/
def pairOk (c : Ctl) (p : Pair) : Bool :=
  match pairable p.pop0.toNat, pairable p.pop1.toNat with
  | some k0, some k1 =>
    let i0 := k0 c p.slot0
    let i1 := k1 c p.slot1
    slotDest i0 != slotDest i1 &&
    bankCount (slotVSrcs i0 ++ slotVSrcs i1) ≤ 3 &&
    !(mulAddClass i0 && mulAddClass i1) && !(transcClass i0 && transcClass i1)
  | _, _ => false

/-! ## Decoding and encoding -/

/-- Whether any layout assigns the opcode (06 R171). -/
def opcAssigned (opc : Nat) : Bool :=
  (opsF64.lookup opc).isSome || (opsJ64.lookup opc).isSome || (opsM96.lookup opc).isSome || (opsW128.lookup opc).isSome

/-- The instruction whose bits are `w`, bits above its length ignored; rows 2 to 5 of 06 R172 in order. -/
def decodeBits (w : Nat) : Except DecodeError Instr :=
  let len := bitsOf w 0 2
  let opc := bitsOf w 24 10
  let c := decodeCtl w
  if len == 3 then .error .lenReserved
  else if len == 1 && !bitAt w 33 then
    let p := decodePair w
    if pairOk c p then .ok (.paired c p) else .error .pairBroken
  else if !opcAssigned opc then .error .opcUnassigned
  else if len == 0 then
    match opsF64.lookup opc with
    | some k => .ok (k c (decodeF64 w))
    | none => match opsJ64.lookup opc with
      | some k => .ok (k c (decodeJ64 w))
      | none => .error .lenMismatch
  else if len == 1 then
    match opsM96.lookup opc with
    | some k => .ok (k c (decodeM96 w))
    | none => .error .lenMismatch
  else
    match opsW128.lookup opc with
    | some k => .ok (k c (decodeW128 w))
    | none => .error .lenMismatch

/-- The number whose little-endian bytes are given (00 R7, 06 R152). -/
def bytesToNat : List Byte → Nat
  | [] => 0
  | b :: bs => b.toNat + 256 * bytesToNat bs

/-- The first `n` little-endian bytes of a number. -/
def natToBytes : Nat → Nat → List Byte
  | 0, _ => []
  | n + 1, x => BitVec.ofNat 8 (x % 256) :: natToBytes n (x / 256)

/-- Decode the bytes that stand at an instruction's address. -/
def decode (bs : List Byte) : Except DecodeError Instr := decodeBits (bytesToNat bs)

/-- The bits of an instruction word; events have none. -/
def encodeBits (i : Instr) : Option Nat :=
  match i with
  | .paired c p => some (encodeCtl c 1 + encodePair p)
  | i => match i.parts with
    | some (opc, c, b) => some (encodeCtl c b.len + opc * 2 ^ 24 + encodeBody b)
    | none => none

/-- The bytes of an instruction word in memory (06 R152). -/
def encode (i : Instr) : List Byte :=
  match encodeBits i with
  | some w => natToBytes i.size w
  | none => []

/-- The instruction that the decoder reads from the table's word `w`; none where it refuses, RESERVED_FIELD of row 7
included. Words are stored little-endian from the first byte, so bit 0 of `w` is bit 0 of the lowest byte. -/
def decodeTableWord (nbits w : Nat) : Option Instr :=
  match decode (natToBytes 16 (w % 2 ^ nbits)) with
  | .ok i => if WellFormed i then some i else none
  | .error _ => none

end Sys2Proof
end

