-- ==== Sys2Proof/Machine/Operands.lean ====
section
/-! DEFINITION. Operands.lean: which registers and tiles each word reads and writes, its latency (06 R161), the checks
of 06 R172 row 7 that depend on GWIDTH, and row 8 (18 R376). -/

namespace Sys2Proof

open Machine (RegName)

/-- The registers and tiles that a word names. `fixed` pairs each fixed-latency destination with its latency. -/
structure Uses where
  reads : List RegName := []
  fixed : List (RegName × Nat) := []
  var : List RegName := []
  tiles : List Nat := []

/-- `n` vector registers from a base. -/
def vset (x : BitVec 7) (n : Nat) : List RegName := (List.range n).map fun i => .v (x.toNat + i)
def v1 (x : BitVec 7) : List RegName := [.v x.toNat]
def s1 (x : BitVec 7) : List RegName := [.s x.toNat]
def p1 (x : BitVec 7) : List RegName := [.p x.toNat]
def b1 (x : BitVec 7) : List RegName := [.b (fld x 0 4)]

/-- Registers of a fragment and of a row vector (11 R274). -/
def fragRegs (gw : Nat) : Nat := 512 / gw
def rowRegs (gw : Nat) : Nat := 64 / gw

/-- Registers that hold data of size code `sz` (10 R247). -/
def dataRegs (sz : Nat) : Nat := if sz == 5 then 2 else if sz == 6 then 4 else 1

/-- The offset register of a memory form (10 R245). -/
def offReads (mod : BitVec 2) (a : BitVec 7) : List RegName := if mod.toNat == 0 then v1 a else s1 a

/-- Registers of a row set of `acc.rd` (11 R284). -/
def accRdRegs (f : F64) (gw : Nat) : Nat := 2 ^ fld f.c 0 2 * 64 / gw

/-- The latency of a fixed-latency word (06 R161); none for a variable-latency word. -/
def latency : Instr → Option Nat
  | .sadd .. | .ssub .. | .sand .. | .sor .. | .sxor .. | .sshl .. | .sshr .. | .ssar .. | .smin .. | .smax .. | .scmp ..
  | .ssel .. | .smov .. | .smovi .. | .slea .. | .spopc .. | .sclz .. | .sffs .. => some 2
  | .smul .. | .smulh .. | .sr .. => some 4
  | .sdiv .. | .srem .. => some 24
  | .add .. | .sub .. | .abs .. | .neg .. | .min .. | .max .. | .and .. | .or .. | .xor .. | .andn .. | .not .. | .shl ..
  | .shr .. | .sar .. | .rot .. | .bfe .. | .bfi .. | .popc .. | .clz .. | .ffs .. | .brev .. | .cmp .. | .sel .. | .mov ..
  | .movi .. | .addsat .. | .subsat .. | .avg .. => some 4
  | .mul .. | .mulh .. | .mad .. | .sad .. | .dp4 .. => some 5
  | .cvti .. | .fcvt .. | .f2i .. | .i2f .. | .fpack .. | .funpk .. => some 6
  | .fadd .. | .fsub .. | .fmin .. | .fmax .. | .fcmp .. | .fclass .. | .frnd .. => some 4
  | .fmul .. | .ffma .. => some 5
  | .frcp .. | .frsq .. | .fexp2 .. | .flog2 .. | .fsqrt .. => some 12
  | .shfl .. | .bcast .. | .plpack .. | .plunpk .. => some 6
  | .matchLanes .. | .compact .. => some 8
  | .red .. | .scan .. | .bfpcvt .. => some 10
  | .bfpexpGet .. | .bfpexpSet .. | .prec .. | .precExp .. | .ptrunc .. | .ufc .. | .ufcClr .. => some 4
  | .vote .. | .ballot .. | .elect .. => some 4
  | _ => none

/-- The operation of an atomic takes vD or sD as its operand `b`: `cas` and `addbnd` (10 R264, R265). -/
def usesB (imm : BitVec 32) : Bool := bitsOf imm.toNat 16 4 == 7 || bitsOf imm.toNat 16 4 == 8

/-- Registers read and written by the 64-bit and longer words, without the guard predicate; the writes of a
fixed-latency word are all its destinations. A paired word's slots are joined by `uses`. Where a field of the word has a
reserved code, or `smov` an unassigned MOD, the registers are those of the code read as it stands, so that row 6 of 06 R172 can
come before row 7 (log 36). -/
def slotUses (gw : Nat) : Instr → List RegName × List RegName × List Nat
  | .brx _ f => (if f.mod.toNat == 0 then vset f.a 2 else s1 f.a, [], [])
  | .call _ _ => ([], [.v 0, .v 1], [])
  | .callx _ f => (if f.mod.toNat == 0 then vset f.a 2 else s1 f.a, vset f.d 2, [])
  | .ret _ f => (vset f.a 2, [], [])
  | .vote _ f => (p1 f.a, p1 f.d, [])
  | .ballot _ f => (p1 f.a, s1 f.d, [])
  | .elect _ f => ([], p1 f.d, [])
  | .refill _ f => ([], vset f.d 2, [])
  | .tokpass _ f => (if f.mod.toNat == 0 then s1 f.a else [], [], [])
  | .spawn _ f => (b1 f.a ++ s1 f.b, [], [])
  | .joinc _ f => (b1 f.a ++ s1 f.b, s1 f.d, [])
  | .iqPush _ f => (if f.mod.toNat == 0 then vset f.a 2 else s1 f.a, [], [])
  | .iqLoad _ f => ([], vset f.d 2 ++ p1 f.b, [])
  | .iqCount _ f => ([], s1 f.d, [])
  | .sadd _ f | .ssub _ f => (s1 f.a ++ (if f.mod.toNat % 2 == 1 then [] else s1 f.b), s1 f.d, [])
  | .smul _ f | .sand _ f | .sor _ f | .sxor _ f | .sshl _ f | .sshr _ f | .ssar _ f =>
      (s1 f.a ++ (if f.mod.toNat == 1 then [] else s1 f.b), s1 f.d, [])
  | .smulh _ f | .sdiv _ f | .srem _ f => (s1 f.a ++ s1 f.b, s1 f.d, [])
  | .smin _ f | .smax _ f => (s1 f.a ++ (if 2 ≤ f.mod.toNat then [] else s1 f.b), s1 f.d, [])
  | .scmp _ f => (s1 f.a ++ s1 f.b, p1 f.d, [])
  | .ssel _ f => (s1 f.a ++ s1 f.b ++ p1 f.c, s1 f.d, [])
  | .smov _ f => (if f.mod.toNat == 0 then s1 f.a else v1 f.a, s1 f.d, [])
  | .smovi _ w => ([], s1 w.d, [])
  | .slea _ f => (s1 f.a ++ s1 f.b, s1 f.d, [])
  | .spopc _ f | .sclz _ f | .sffs _ f => (s1 f.a, s1 f.d, [])
  | .sr _ f => (if f.c.toNat == 8 then [.ufc] else [],
      if f.mod.toNat == 0 then s1 f.d else if f.c.toNat == 9 then vset f.d 2 else v1 f.d, [])
  | .add _ f | .sub _ f | .mul _ f | .mulh _ f | .min _ f | .max _ f | .and _ f | .or _ f | .xor _ f | .andn _ f
  | .shl _ f | .shr _ f | .sar _ f | .rot _ f | .addsat _ f | .subsat _ f | .avg _ f =>
      (v1 f.a ++ (if fld f.c 1 1 == 1 then [] else v1 f.b), v1 f.d, [])
  | .cmp _ f => (v1 f.a ++ (if fld f.c 1 1 == 1 then [] else v1 f.b), p1 f.d, [])
  | .abs _ f | .neg _ f | .not _ f | .popc _ f | .clz _ f | .ffs _ f | .brev _ f | .mov _ f => (v1 f.a, v1 f.d, [])
  -- a narrowing `cvti` keeps elements of vD (08 R212)
  | .cvti _ f => (v1 f.a ++ (if fld f.c 0 2 < f.mod.toNat then v1 f.d else []), v1 f.d, [])
  | .bfe _ f => (v1 f.a ++ v1 f.b, v1 f.d, [])
  | .sel _ f => (v1 f.a ++ v1 f.b ++ p1 f.c, v1 f.d, [])
  | .mad _ f | .bfi _ f | .sad _ f | .dp4 _ f | .ffma _ f => (v1 f.a ++ v1 f.b ++ v1 f.c, v1 f.d, [])
  | .movi _ w => ([], if w.mod.toNat == 3 then vset w.d 2 else v1 w.d, [])
  | .fadd _ f | .fsub _ f | .fmul _ f | .fmin _ f | .fmax _ f => (v1 f.a ++ v1 f.b, v1 f.d, [])
  | .fcmp _ f => (v1 f.a ++ v1 f.b, p1 f.d, [])
  | .fclass _ f | .frcp _ f | .frsq _ f | .fexp2 _ f | .flog2 _ f | .fsqrt _ f | .frnd _ f => (v1 f.a, v1 f.d, [])
  | .fcvt _ f => let es := fmtElems (fld f.c 0 3); let ed := fmtElems (fld f.c 3 3)
      (vset f.a (max es ed / es), vset f.d (max es ed / ed), [])
  | .f2i _ f => let es := fmtElems (fld f.c 0 3); let ed := intElems (fld f.c 3 3)
      (vset f.a (max es ed / es), vset f.d (max es ed / ed), [])
  | .i2f _ f => let es := intElems (fld f.c 0 3); let ed := fmtElems (fld f.c 3 3)
      (vset f.a (max es ed / es), vset f.d (max es ed / ed), [])
  | .fpack _ f => (v1 f.a ++ v1 f.d, v1 f.d, [])
  | .funpk _ f => (v1 f.a, v1 f.d, [])
  | .bfpcvt _ f => (vset f.a (4 / fmtElems (fld f.c 3 3)), v1 f.d ++ [.ufc], [])
  | .shfl _ f => (v1 f.a ++ (if fld f.c 3 1 == 1 then [] else v1 f.b), v1 f.d ++ [.p (fld f.c 0 3)], [])
  | .bcast _ f => (v1 f.a ++ (if f.mod.toNat == 1 then s1 f.b else []), v1 f.d, [])
  | .red _ f => (v1 f.a, s1 f.d ++ p1 f.b, [])
  | .scan _ f => (v1 f.a, v1 f.d, [])
  | .matchLanes _ f => (v1 f.a, vset f.d 2 ++ p1 f.b, [])
  | .compact _ f => (v1 f.a ++ p1 f.b, v1 f.d ++ s1 f.c, [])
  | .bfpexpGet _ f => (v1 f.a, v1 f.d, [])
  | .bfpexpSet _ f => (v1 f.a ++ v1 f.b, v1 f.d, [])
  | .plpack _ f | .ptrunc _ f => (v1 f.a, v1 f.d, [])
  | .plunpk _ f => (v1 f.a ++ v1 f.b, v1 f.d, [])
  | .prec _ f | .precExp _ f => (v1 f.a, s1 f.d, [])
  | .ufc _ f => ([.ufc], s1 f.d, [])
  | .ufcClr _ _ => ([.ufc], [], [])
  | .brecSet _ f => (b1 f.a ++ s1 f.b, b1 f.d, [])
  | .brecGet _ f => (b1 f.a, s1 f.d, [])
  | .brecx _ w => (b1 w.a, b1 w.d, [])
  | .bchk _ f => (b1 f.b ++ offReads f.mod f.a, p1 f.d, [])
  | .ld _ f => (b1 f.b ++ offReads f.mod f.a, vset f.d (dataRegs (fld f.c 4 3)), [])
  | .st _ f => (b1 f.b ++ offReads f.mod f.a ++ vset f.d (dataRegs (fld f.c 4 3)), [], [])
  | .ldpl _ f => (b1 f.b ++ s1 f.a, v1 f.d, [])
  | .ldrf _ f => (b1 f.b ++ s1 f.a ++ v1 f.d, v1 f.d, [])
  | .stpl _ f => (b1 f.b ++ s1 f.a ++ v1 f.d, [], [])
  | .lds _ f | .ldsr _ f => (offReads f.mod f.a, vset f.d (dataRegs (fld f.c 4 3)), [])
  | .sts _ f | .stsr _ f => (offReads f.mod f.a ++ vset f.d (dataRegs (fld f.c 4 3)), [], [])
  | .atom _ f => let n := if bitAt f.imm.toNat 21 then 2 else 1
      (b1 f.b ++ offReads f.mod f.a ++ vset f.c n ++ (if usesB f.imm then vset f.d n else []),
        if bitAt f.imm.toNat 24 then vset f.d n else [], [])
  | .atoms _ f => let n := if bitAt f.imm.toNat 21 then 2 else 1
      (offReads f.mod f.a ++ vset f.c n ++ (if usesB f.imm then vset f.d n else []),
        if bitAt f.imm.toNat 24 then vset f.d n else [], [])
  | .pref _ f => (b1 f.b ++ offReads f.mod f.a, [], [])
  | .spin _ f => (s1 f.a ++ s1 f.b, s1 f.d, [])
  | .sunpin _ f => (s1 f.a ++ s1 f.b, [], [])
  | .fmtset _ f => (if f.mod.toNat == 1 then s1 f.a else [], [.d f.d.toNat], [])
  | .mma _ f => (vset f.a (fragRegs gw) ++ vset f.b (fragRegs gw) ++ [.d (fld f.c 0 3)], [], [f.d.toNat])
  | .accZero _ f => ([], [], [f.d.toNat])
  | .accRd _ f | .accRdx _ f => (if fld f.c 2 1 == 1 then [] else s1 f.b, vset f.d (accRdRegs f gw), [f.a.toNat])
  | .accMax _ f => (if fld f.c 0 1 == 1 then vset f.d (rowRegs gw) else [], vset f.d (rowRegs gw), [f.a.toNat])
  | .accScl _ f => (vset f.a (rowRegs gw) ++ vset f.b (rowRegs gw), [], [f.d.toNat])
  | .accLd _ f => (s1 f.a, [], [f.d.toNat])
  | .accDrn _ f => (s1 f.a, [], [f.b.toNat])
  | .kvslot _ f => (b1 f.b ++ vset f.a (if f.mod.toNat % 2 == 1 then 1 else 2), vset f.d 4 ++ [.p (fld f.c 0 3)], [])
  | .hamd _ f => (v1 f.a ++ v1 f.b, v1 f.d, [])
  | .gwalk _ f => (b1 f.b ++ s1 f.a, s1 f.d, [])
  | .cqInit _ f => (s1 f.a ++ s1 f.b, [], [])
  | .cqPush _ f => (s1 f.a ++ v1 f.b ++ v1 f.c, p1 f.d, [])
  | .cqPop _ f => (s1 f.a, vset f.d 2 ++ p1 f.b, [])
  | .cqTop _ f => (s1 f.a, s1 f.d, [])
  | .vfTest _ f => (s1 f.a ++ v1 f.b, p1 f.d, [])
  | .pcopy _ w | .pcopyRf _ w | .pstore _ w | .pxform _ w => (b1 w.b ++ s1 w.a ++ s1 w.c, [], [])
  | .pfill _ w => (s1 w.a ++ s1 w.c, [], [])
  | .qmark _ f => (s1 f.a ++ s1 f.b, [], [])
  | .csend _ f => (s1 f.d ++ s1 f.b ++ (List.range (fld f.c 0 5 + 1)).map (fun i => .s (f.a.toNat + i)), [], [])
  | .cput _ w | .cget _ w => (s1 w.d ++ s1 w.a ++ s1 w.b ++ s1 w.c, [], [])
  | .catom _ f => (s1 f.a ++ s1 f.b ++ s1 f.c ++ (if usesB f.imm then s1 f.d else []),
      if bitAt f.imm.toNat 24 then s1 f.d else [], [])
  | .arrset _ f => (s1 f.a ++ s1 f.b ++ s1 f.c, [], [])
  | .arrwait _ f => (s1 f.a, s1 f.d, [])
  | .lease _ f => (s1 f.b ++ s1 f.c, s1 f.d, [])
  | .lrel _ f => (s1 f.a, [], [])
  | .lqry _ f => (s1 f.b, s1 f.d, [])
  | .barArv _ f | .barSync _ f => (if f.mod.toNat == 1 then s1 f.b else [], [], [])
  | .feWait _ f => (s1 f.a, [], [])
  | .assert _ f => (p1 f.a ++ b1 f.b, [], [])
  | .csrrd _ f => ([], s1 f.d, [])
  | .csrwr _ f => (s1 f.a, [], [])
  | .sret _ f | .stbinv _ f | .spmap _ f => (s1 f.a ++ s1 f.b, [], [])
  | .spunmap _ f => (s1 f.a, [], [])
  | _ => ([], [], [])

/-- The guard predicate is a source (06 R162); p7, which is no register, is none as a guard (log 36). -/
def guardReads (c : Ctl) : List RegName := if c.pred.toNat == 7 then [] else [.p c.pred.toNat]

/-- The 64-bit instruction of a slot (06 R168, R170). -/
def slotInstr (c : Ctl) (pop : BitVec 8) (f : F64) : Instr :=
  match pairable pop.toNat with
  | some k => k c f
  | none => .nop c f

/-- What a word names (06 R163, R164). -/
def uses (gw : Nat) (i : Instr) : Uses :=
  let one := fun (j : Instr) =>
    let (r, w, t) := slotUses gw j
    match latency j with
    | some l => ({ reads := r, fixed := w.map fun x => (x, l), tiles := t } : Uses)
    | none => { reads := r, var := w, tiles := t }
  let g := match i.ctl? with | some c => guardReads c | none => []
  match i with
  | .paired c p =>
    let a := one (slotInstr c p.pop0 p.slot0)
    let b := one (slotInstr c p.pop1 p.slot1)
    { reads := g ++ a.reads ++ b.reads, fixed := a.fixed ++ b.fixed }
  | i => let u := one i; { u with reads := g ++ u.reads }

/-- Row 6 of 06 R172: a vector register at or above `.regs`, or a tile at or above `.acc`, also one beyond 63 (log 36). -/
def namesOk (u : Uses) (regs acc : Nat) : Bool :=
  (u.reads ++ u.fixed.map (·.1) ++ u.var).all (fun r => match r with | .v n => n < regs | _ => true) &&
  u.tiles.all (· < acc)

/-- Row 6 for `sr` (log 36): a reserved selector, and LANE read into a scalar register (02 R64, 07 R202). -/
def selectorOk : Instr → Bool
  | .sr _ f => f.c.toNat ≤ 9 && !(f.c.toNat == 0 && f.mod.toNat == 0)
  | _ => true

/-- Row 7 of 06 R172 where it depends on GWIDTH (07 R199, 08 R215, 11 R275, R284, 12 R298). -/
def widthOk (gw : Nat) : Instr → Bool
  | .shfl _ f => fld f.c 4 3 == 0 || 2 ^ (fld f.c 4 3 + 1) ≤ gw
  | .hamd _ f => 256 * 2 ^ fld f.c 0 2 ≤ 32 * gw
  | .accRd _ f | .accRdx _ f => mulOf (min 8 (accRdRegs f gw)) f.d
  | .accMax _ f => mulOf (rowRegs gw) f.d
  | .accScl _ f => mulOf (rowRegs gw) f.a && mulOf (rowRegs gw) f.b
  | .smov _ f => f.mod.toNat == 0 || f.c.toNat < gw
  | _ => true

/-- Row 8 (18 R376). -/
def privileged : Instr → Bool
  | .csrrd .. | .csrwr .. | .sret .. | .stbinv .. | .spmap .. | .spunmap .. => true
  | _ => false

end Sys2Proof
end

