-- ==== Sys2Proof/Machine/Optics.lean ====
section
/-! DEFINITION. Optics.lean: optical lanes and the route table (22 R464, R465), and the end of a lease (14 R348, R349). -/

namespace Sys2Proof.Machine

/-- A lane's row and base word (22 R465). -/
def State.route (s : State) (lane : Nat) : LaneRoute := s.boot.cfg.routes.getD lane ⟨[], 0#16⟩
def routeBase (r : LaneRoute) : Bool := r.base.getLsbD 15
def routeHome (r : LaneRoute) : Nat := r.base.toNat % 64
/-- The peer a channel of the row reaches. -/
def routePeer (r : LaneRoute) (n : Nat) : Option Nat :=
  let e := r.row.getD n 0#16
  if e.getLsbD 15 then some (e.toNat % 256) else none

/-- The peer of whose base allotment a lane is part; none for a pool lane. -/
def State.basePeer (s : State) (lane : Nat) : Option Nat :=
  let r := s.route lane
  if routeBase r then routePeer r (routeHome r) else none

/-- Lanes that a route table describes. -/
def State.laneNos (s : State) : List Nat := List.range (min s.boot.cfg.routes.length Config.nOpticalLanes)

/-- The base allotment of a peer (22 R465). -/
def State.allotment (s : State) (peer : Nat) : List Nat := s.laneNos.filter fun l => s.basePeer l == some peer

/-- A lane's state; a lane that has not left its reset state is DARK. -/
def State.lane (s : State) (l : Nat) : OLane :=
  match s.optics.find? fun o => o.lane == l with
  | some o => o
  | none => ⟨l, .dark, 0, 0, none, none⟩

/-- Lanes that carry traffic to a peer now. -/
def State.liveTo (s : State) (peer : Nat) : List Nat :=
  (s.optics.filter fun o => o.st == .live && o.peer == some peer).map (·.lane)

/-- Bookkeeping of a peer. -/
def State.peerUse (s : State) (p : Nat) : PeerUse :=
  match s.peers.find? fun x => x.peer == p with
  | some x => x
  | none => ⟨p, [], 0, 0, none, none⟩
def State.modPeer (s : State) (p : Nat) (f : PeerUse → PeerUse) : State :=
  { s with peers := f (s.peerUse p) :: s.peers.filter fun x => x.peer != p }

/-- What is queued to a peer that had `k` LIVE lanes goes on at the pace of those it has now (14 R349). -/
def State.repace (s : State) (p k : Nat) : State :=
  let f := (s.peerUse p).freeAt
  if f ≤ s.clock then s
  else s.modPeer p fun x => { x with freeAt := s.clock + (f - s.clock) * max k 1 / max (s.liveTo p).length 1 }

/-- A lane takes a state; what is queued to the peers it leaves and serves changes its pace. -/
def State.setLane (s : State) (o : OLane) : State :=
  let s1 : State := { s with optics := o :: s.optics.filter fun x => x.lane != o.lane }
  let ps := (s.lane o.lane).peer.toList ++ o.peer.toList.filter fun p => (s.lane o.lane).peer != some p
  ps.foldl (fun s' p => s'.repace p (s.liveTo p).length) s1

/-- A channel on which a lane reaches a peer without sharing a channel with another lane of its fibre (22 R464, R465). -/
def State.chanTo (s : State) (lane peer : Nat) : Option Nat :=
  let r := s.route lane
  let used := (List.range 4).filterMap fun i =>
    let o := s.lane (lane / 4 * 4 + i)
    if o.lane == lane || o.st == .dark then none else some o.chan
  (List.range 64).find? fun n => routePeer r n == some peer && !(used.contains n)

/-- Cycles, times 1000, that a flit takes on one lane: 10.88 ns (22 R466). -/
def flitMilli : Nat := 13056
/-- `n` bytes of payload go to a peer on its LIVE lanes, behind what is queued; when they have all been sent is kept for 14 R347 and
R348 (log 26). -/
def PeerUse.queue (p : PeerUse) (clock lanes n : Nat) : PeerUse :=
  let f := max clock p.freeAt + ((n + 255) / 256 * flitMilli / max lanes 1 + 999) / 1000
  { p with sent := (f, n) :: p.sent, queuedSince := if clock < p.freeAt then p.queuedSince else clock, freeAt := f }
def State.queueTo (s : State) (peer n : Nat) : State :=
  let k := (s.liveTo peer).length
  s.modPeer peer fun p => p.queue s.clock k n

/-- The lane leaves LIVE: when it was the last LIVE lane to its peer, the 20 µs of 14 R345 start (22 R466). -/
def State.leaveLive (s : State) (l : Nat) : State :=
  let o := s.lane l
  match o.st, o.peer with
  | .live, some p =>
    if (s.liveTo p).all (· == l) then s.modPeer p fun x => { x with darkSince := some s.clock } else s
  | _, _ => s

/-- When a lane may leave LIVE, and the peer of the flit that it sends until then: at once, or, while traffic to its peer is being sent,
when its current flit has been (14 R349). -/
def State.flitOf (s : State) (l : Nat) : Nat × Option Nat :=
  let o := s.lane l
  if s.clock < o.since && o.flit.isSome then (o.since, o.flit)
  else match o.st, o.peer with
    | .live, some p => if s.clock < (s.peerUse p).freeAt then (s.clock + (flitMilli + 999) / 1000, some p) else (s.clock, none)
    | _, _ => (s.clock, none)

/-- Send a lane towards a peer (14 R349), or to the pool, where lanes stay DARK (22 R466). Where no channel reaches the peer, the lane
goes dark. A FAILED lane leaves that state by relocking only (22 R464): it keeps it, and relocks on its new channel. -/
def State.retune (s : State) (l : Nat) (peer : Option Nat) : State :=
  let o := s.lane l
  let f := s.flitOf l
  let n := peer.bind fun p => (s.chanTo l p).map fun n => (n, p)
  let s : State := s.leaveLive l
  if o.st == .failed then s.setLane { o with chan := (n.map (·.1)).getD o.chan, peer := n.map (·.2) }
  else match n with
    | some (n, p) => s.setLane ⟨l, .tuning, n, f.1, some p, f.2⟩
    | none => s.setLane ⟨l, .dark, 0, f.1, none, f.2⟩

/-- A lane leaves a lease: it returns to its donor, or to the pool (14 R348). -/
def State.giveBack (s : State) (x : LeaseLane) : State := s.retune x.lane x.donor

/-- The lease `id` of a team ends (14 R348). -/
def State.endLease (s : State) (tid id : Nat) : State :=
  match (s.team tid).leases.find? fun l => l.id == id with
  | none => s
  | some l =>
    let s : State := l.lanes.foldl (fun s x => s.giveBack x) s
    s.modTeam tid fun t => { t with leases := t.leases.filter fun x => x.id != id }

/-- Lanes that a tenancy's live leases hold (18 R388). -/
def State.leased (s : State) (ten : Nat) : Nat :=
  s.teams.foldl (fun n t => if t.ten == ten then t.leases.foldl (fun n l => n + l.lanes.length) n else n) 0

/-- The dead-peer bit of a peer is set: its packets are discarded and its leases end (14 R345, R348). -/
def State.setDead (s : State) (peer : Nat) : State :=
  let s : State := { s with peers := s.peers.map fun x => if x.peer == peer then { x with freeAt := min x.freeAt s.clock } else x }
  let s : State := { s with deadpeer := modAt s.deadpeer (peer / 64) fun w => setBit w (peer % 64) true }
  s.teams.zipIdx.foldl (fun (s : State) ((t, i) : Team × Nat) => (t.leases.filter fun l => l.peer == peer).foldl (fun s l => s.endLease i l.id) s) s

end Sys2Proof.Machine
end

