-- ==== Sys2Proof/Machine/Translate.lean ====
section
/-! DEFINITION. Translate.lean: page tables, TLBs and the walk (20 R412-R419), the permission checks of step 5 (20 R416),
peer-owned pages (20 R425), and host pages by ATS (20 R427, R428). -/

namespace Sys2Proof.Machine

/-- What an access wants (20 R416); `atomic hostOk` says whether 10 R265 lets the operation go to a host page. -/
inductive How where
  | load | prefetch | store | atomic (hostOk : Bool) | fetch
  deriving DecidableEq, Repr

def How.needR : How → Bool
  | .load | .prefetch | .atomic _ => true
  | _ => false
def How.needW : How → Bool
  | .store | .atomic _ => true
  | _ => false

/-! ## Leaves (20 R414) -/

def leafPa (e : Nat) : Nat := bitsOf e 16 36 * 65536
def leafPeer (e : Nat) : Nat := bitsOf e 56 8
def leafOwn (e : Nat) : Nat := bitsOf e 54 2
def leafRos (e : Nat) : Bool := bitAt e 53
def leafMsc (e : Nat) : Bool := bitAt e 52
def leafCnt (e : Nat) : Bool := bitAt e 8
def leafKind (e : Nat) : Kind := if bitsOf e 14 2 == 1 then .so else if bitsOf e 14 2 == 2 then .un else .rc
def leafOwner (e : Nat) : Owner := if leafOwn e == 0 then .here else if leafOwn e == 1 then .peer (leafPeer e) else .host

/-- The conditions of 20 R415 on a leaf for a page of `size` bytes. -/
def State.leafOk (s : State) (e size : Nat) : Bool :=
  let pa := leafPa e
  let inside := fun d => carveBase d ≤ pa && pa + size ≤ carveBase d + s.carved d
  bitsOf e 2 6 == 0 && leafOwn e != 3 && bitsOf e 14 2 != 3 && pa % size == 0 &&
  !(leafOwn e == 2 && (pa != 0 || leafPeer e != 0)) &&
  (if leafMsc e then leafOwn e == 0 && (inside false || inside true)
   else !(overlaps pa size (carveBase false) carveRegion) && !(overlaps pa size (carveBase true) carveRegion))

/-- Lowest virtual-address bit and index width of a level (20 R412). -/
def lvlLo : Nat → Nat
  | 0 => 16 | 1 => 21 | 2 => 30 | 3 => 39 | _ => 48
def lvlW : Nat → Nat
  | 0 => 5 | 4 => 8 | _ => 9

/-- A table entry's reserved bits are zero (20 R413); bits 11:8 may be set only where the next table is an L0 table. -/
def tableOk (e lvl : Nat) : Bool := bitsOf e 52 12 == 0 && bitsOf e 2 6 == 0 && (lvl == 1 || bitsOf e 8 4 == 0)

/-- The walk from the table of level `lvl` at `tbl` (20 R412, R415). `rd lvl addr` gives the entry, or none where its
line is refused. The answer is the leaf, its page size and the table entries passed, or a fault code. -/
def walkFrom (ok : Nat → Nat → Bool) (rd : Nat → Nat → Option Nat) (va : Nat) :
    Nat → Nat → Except Nat (Nat × Nat × List (Nat × Nat))
  | lvl, tbl =>
    match rd lvl (tbl + 8 * bitsOf va (lvlLo lvl) (lvlW lvl)) with
    | none => .error 0x60
    | some e =>
      if !bitAt e 0 then .error 0x14
      else if bitAt e 1 then
        if 3 ≤ lvl || !ok e (2 ^ lvlLo lvl) then .error 0x14 else .ok (e, 2 ^ lvlLo lvl, [])
      else match lvl with
        | 0 => .error 0x14
        | l + 1 =>
          if !tableOk e (l + 1) then .error 0x14
          else match walkFrom ok rd va l (bitsOf e 8 44 * 256) with
            | .error c => .error c
            | .ok (lf, sz, es) => .ok (lf, sz, (l + 1, e) :: es)

/-- A walk by the units of die `d`: table entries of L4 to L2 may come from the walk cache (20 R417, R418). -/
def State.walk (s : State) (d : Bool) (ten va : Nat) : Except Nat (Nat × Nat × List (Nat × Nat)) :=
  walkFrom s.leafOk (fun lvl a =>
    match (s.die d).walkCache.find? fun w => w.ten == ten && w.level == lvl && w.va == va / 2 ^ lvlLo lvl with
    | some w => some w.ent.toNat
    | none => if s.poisoned a then none else some (s.rdMem a 8)) va 4 (s.ten ten).ptroot

/-- The leaf a core's TLBs hold for an address (20 R418). -/
def tlbFind (es : List TlbEnt) (ten va : Nat) : Option TlbEnt :=
  es.find? fun e => e.ten == ten && e.va ≤ va && va < e.va + e.size
def State.tlbLook (s : State) (core ten va : Nat) : Option TlbEnt :=
  match tlbFind (s.core core).tlb ten va with
  | some e => some e
  | none => tlbFind (s.ctlb.getD (clusterOf core) []) ten va

/-- Put a leaf into the core's and the cluster's TLB; the oldest entries go (20 R418). -/
def State.tlbFill (s : State) (core : Nat) (e : TlbEnt) : State :=
  let same := fun x : TlbEnt => x.ten == e.ten && x.va == e.va && x.size == e.size
  let s : State := s.modCore core fun c => { c with tlb := (e :: c.tlb.filter fun x => !same x).take 128 }
  { s with ctlb := modAt s.ctlb (clusterOf core) fun l => (e :: l.filter fun x => !same x).take 4096 }

/-- A completed walk fills the TLBs and the walk cache (20 R418). -/
def State.walkFill (s : State) (d : Bool) (core ten va leaf size : Nat) (es : List (Nat × Nat)) : State :=
  let s : State := s.tlbFill core ⟨ten, va / size * size, size, BitVec.ofNat 64 leaf⟩
  let new := (es.filter fun e => 2 ≤ e.1).map fun e => (⟨ten, e.1, va / 2 ^ lvlLo e.1, BitVec.ofNat 64 e.2⟩ : WalkEnt)
  s.modDie d fun x =>
    { x with walkCache := (new ++ x.walkCache.filter fun w =>
        !(new.any fun n => n.ten == w.ten && n.level == w.level && n.va == w.va)).take 256 }

/-! ## Step 5 and step 6 -/

/-- WORLD, PAGE_PERM and RO_SHARED_WRITE of 20 R416, and 18 R378 for a fetch; none where the leaf permits. `guarded` says that the line
lies in what a secure tenancy keeps in memory (18 R377), `exported` that it lies in a window of its owner (20 R425). -/
def leafCheck (e : Nat) (how : How) (levelS secure guarded exported : Bool) : Option Nat :=
  let w := bitAt e 13
  if ((w || guarded) && !secure) || (how == .fetch && secure && !w) then some 0x17
  else if (!bitAt e 9 && !levelS) || (how.needR && !bitAt e 10) || (how.needW && !bitAt e 11) ||
      (how == .fetch && (!bitAt e 12 || leafOwn e != 0)) || (how == .atomic false && leafOwn e == 2) || !exported then some 0x15
  else if leafRos e && how.needW then some 0x16
  else none

/-- Some leaf below a table, of a page in the device's own memory that `n` bytes at `pa` touch, has W = 1. -/
def State.mapsSecure (s : State) (pa n : Nat) : Nat → Nat → Bool
  | lvl, tbl => (List.range (2 ^ lvlW lvl)).any fun i =>
    let e := s.rdMem (tbl + 8 * i) 8
    if !bitAt e 0 then false
    else if bitAt e 1 then lvl < 3 && bitAt e 13 && leafOwn e == 0 && overlaps (leafPa e) (2 ^ lvlLo lvl) pa n
    else match lvl with
      | 0 => false
      | l + 1 => s.mapsSecure pa n l (bitsOf e 8 44 * 256)

/-- Some of `n` bytes at a physical address lie in a secure region: what a secure tenancy keeps in memory, or a page that the page-table
entry of an enabled tenancy puts into the secure world (18 R377). -/
def State.inSecure (s : State) (pa n : Nat) : Bool := s.secureAt pa n || s.tens.any fun t => t.en && s.mapsSecure pa n 4 t.ptroot

/-- A translated address. -/
structure XLine where
  pa : Nat
  own : Owner
  kind : Kind
  ros : Bool
  cnt : Bool
  deriving DecidableEq, Repr

/-- An access at a translated address. -/
def XLine.acc (l : XLine) (lane va size : Nat) : Acc :=
  { lane := lane, va := va, pa := l.pa, size := size, own := l.own, kind := l.kind, ros := l.ros, cnt := l.cnt }

/-- The outcome of translating one address. -/
inductive XRes where
  | ok (l : XLine)
  | fault (code : Nat)
  /-- passed, but the core's TLBs miss; of a host page it is not known whether the host will grant it -/
  | miss
  | missHost
  /-- a Translation Request is needed, or one is in flight (20 R427) -/
  | ats
  /-- a page request is in flight or waiting (20 R428) -/
  | hostPage
  /-- the owner's dead-peer bit is set: step 6 -/
  | dead (peer : Nat)
  deriving DecidableEq, Repr

def State.isDead (s : State) (peer : Nat) : Bool := (s.deadpeer.getD (peer / 64) 0#64).getLsbD (peer % 64)

/-- The line lies in a window that the peer exports to this device (20 R425). -/
def State.imported (s : State) (peer pa : Nat) : Bool :=
  s.boot.cfg.imports.any fun w => w.peer == peer && w.base ≤ pa && pa < w.base + w.size

/-- The ATS-cache entry that grants an access (20 R427). -/
def State.atsFind (s : State) (d : Bool) (pasid va : Nat) (how : How) : Option AtsEnt :=
  (s.die d).ats.find? fun e => e.pasid == pasid && e.hva ≤ va && va < e.hva + e.size &&
    (!how.needR || e.r) && (!how.needW || e.w)

/-- The leaf that an address has, from the TLBs or by a walk, with its page size; or the fault of the walk. -/
def State.leafAt (s : State) (core ten va : Nat) : Except Nat (Nat × Nat) :=
  match s.tlbLook core ten va with
  | some e => .ok (e.leaf.toNat, e.size)
  | none => (s.walk (dieOf core) ten va).map fun l => (l.1, l.2.1)

/-- Steps 5 and 6 of 10 R249 for one address. `who` is the requester of ATS and page requests. -/
def State.xlate (s : State) (core ten : Nat) (levelS : Bool) (who va : Nat) (how : How) (needTlb : Bool) : XRes :=
  let t := s.ten ten
  let d := dieOf core
  let hit := s.tlbLook core ten va
  match s.leafAt core ten va with
  | .error c => .fault c
  | .ok (e, size) =>
    let pa := leafPa e + va % size
    let guarded := leafOwner e == .here && s.secureAt (pa / 128 * 128) 128
    let exported := match leafOwner e with | .peer p => s.imported p pa | _ => true
    match leafCheck e how levelS t.secure guarded exported with
    | some c => .fault c
    | none =>
      let line := fun pa => (⟨pa, leafOwner e, leafKind e, leafRos e, leafCnt e⟩ : XLine)
      let found : XRes := match leafOwner e with
        | .here => if s.offline pa then .fault 0x61 else .ok (line pa)
        | .peer p => if s.isDead p then .dead p else .ok (line pa)
        | .host =>
          match s.atsFind d t.pasid va how with
          | some a => .ok (line (a.hpa + (va - a.hva)))
          | none =>
            match s.atsReqs.find? fun r => r.g == who && r.page == va / 4096 with
            | some r => if r.phase == 4 then .fault 0x14 else if r.phase == 0 then .ats else .hostPage
            | none => .ats
      match found with
      | .fault c => .fault c
      | .hostPage => .hostPage
      | .ats => if needTlb && hit.isNone then .missHost else .ats
      | r => if needTlb && hit.isNone then .miss else r

/-- Send the Translation Request for a page unless one is in hand (20 R427: one per host page the instruction touches). -/
def State.atsAsk (s : State) (core ten who va : Nat) (how : How) : State :=
  if s.atsReqs.any fun r => r.g == who && r.page == va / 4096 then s
  else
    let r : AtsReq := { id := s.nextId, ten := ten, pasid := (s.ten ten).pasid, page := va / 4096, die := dieOf core, g := who,
                        needR := how.needR, needW := how.needW, phase := 0 }
    ({ s with atsReqs := s.atsReqs ++ [r], nextId := s.nextId + 1 } : State).emit (.translationRequest r.id r.pasid r.page)

/-- A refused request has been delivered as a fault and is forgotten. -/
def State.atsForget (s : State) (who : Nat) : State :=
  { s with atsReqs := s.atsReqs.filter fun r => !(r.g == who && r.phase == 4) }

/-- Record a pending walk; walks for one page are merged, and count for every instruction that waits for them (20 R418, R419). None
where 512 are pending. -/
def State.pendWalk (s : State) (core ten g : Nat) (pc : Word) (va : Nat) : Option State :=
  let d := dieOf core
  let x := s.die d
  if x.pend.any fun p => p.ten == ten && p.page == va / 65536 then
    some (s.modDie d fun y => { y with pend := y.pend.map fun p =>
      if p.ten == ten && p.page == va / 65536 then
        { p with cores := if p.cores.contains core then p.cores else p.cores ++ [core]
                 raisers := if p.raisers.contains (g, pc) then p.raisers else p.raisers ++ [(g, pc)] }
      else p })
  else if Config.pendingWalkMax ≤ x.pend.length then none
  else some (s.modDie d fun y => { y with pend := y.pend ++ [⟨ten, va / 65536, [(g, pc)], [core], s.clock⟩] })

/-- The outcome of translating every line of an instruction. -/
inductive XAll where
  | ok (ls : List XLine)
  | fault (s : State) (code lane va info : Nat)
  | wait (s : State) (w : Wait)
  deriving Repr

/-- The first lane, in lane and address order, that fails step 5, unless a line before it may still be refused by the host. -/
def firstFault : List (Nat × Nat × XRes) → Option (Nat × Nat × Nat)
  | [] => none
  | (_, _, .ats) :: _ => none
  | (_, _, .hostPage) :: _ => none
  | (_, _, .missHost) :: _ => none
  | (lane, va, .fault c) :: _ => some (lane, va, c)
  | _ :: rest => firstFault rest

/-- Steps 5 and 6 of 10 R249 for the lines of one instruction of a group: requests are (lane, address) in order. -/
def State.xlateAll (s : State) (g : Nat) (G : Group) (ten : Nat) (pc : Word) (how : How) (reqs : List (Nat × Nat)) : XAll :=
  let rs := reqs.map fun r => (r.1, r.2, s.xlate G.core ten G.levelS g r.2 how true)
  match firstFault rs with
  | some (lane, va, c) => .fault (s.atsForget g) c lane va 0
  | none =>
    let late := rs.any fun r => r.2.2 == .hostPage
    let s := rs.foldl (fun s r => if r.2.2 == .ats then s.atsAsk G.core ten g r.2.1 how else s) s
    let missed := rs.filter fun r => r.2.2 == .miss || r.2.2 == .missHost
    if !missed.isEmpty then
      -- the walks that find a place are pending; the others are raised when the instruction is looked at again
      let (s, full) := missed.foldl (fun (o : State × Bool) r => match o.1.pendWalk G.core ten g pc r.2.1 with
        | some s => (s, o.2)
        | none => (o.1, true)) (s, false)
      .wait s (if late then .hostPage else if full then .walkSlot else .other)
    else if late then .wait s .hostPage
    else if rs.any fun r => r.2.2 == .ats then .wait s .other
    else
      match rs.find? fun r => (match r.2.2 with | .dead _ => true | _ => false) with
      | some (lane, va, .dead p) => .fault s 0x33 lane va p
      | _ => .ok (rs.filterMap fun r => match r.2.2 with | .ok l => some l | _ => none)

end Sys2Proof.Machine
end

