-- ==== Sys2Proof/Machine/Ops.lean ====
section
/-! DEFINITION. Ops.lean: the shared operations: register writes and issue timing (06 R160-R166), completion of words,
meetings (01 R26), taking a fault and answering it (21 R443-R452), fetching an instruction, and `word`, the one
operation through which every instruction word issues. -/

namespace Sys2Proof.Machine

open Host (Outcome)

/-! ## Register writes -/

def setLaneOf (v : VReg) (lane : Nat) (x : Lane32) : VReg := { v with lanes := modAt v.lanes lane fun _ => x }

/-- Byte `k` of an exponent word replaced. -/
def putByte (w : Word) (k : Nat) (x : BitVec 8) : Word :=
  BitVec.ofNat 64 (setBits w.toNat (8 * k) 8 x.toNat)

/-- One element takes its value. A write to p7 has no effect (02 R48); UFC saturates (02 R64). -/
def Group.put (G : Group) : RegWrite → Group
  | .v r l x => { G with v := modAt G.v r fun v => setLaneOf v l x }
  | .fld r x => { G with v := modAt G.v r fun v => { v with tag := { v.tag with field := x } } }
  | .exp r k x => { G with v := modAt G.v r fun v => { v with tag := { v.tag with exps := putByte v.tag.exps k x } } }
  | .s r x => { G with s := modAt G.s r fun _ => x }
  | .p r l x => if r < 7 then { G with lanes := modAt G.lanes l fun y => { y with preds := setBit y.preds r x } } else G
  | .b r x => { G with b := modAt G.b r fun _ => x }
  | .d r x => { G with d := modAt G.d r fun _ => x }
  | .ufcAdd n => { G with ufc := BitVec.ofNat 32 (min (G.ufc.toNat + n) 0xFFFFFFFF) }
  | .ufcSet x => { G with ufc := x }

def Group.putAll (G : Group) (ws : List RegWrite) : Group := ws.foldl Group.put G

/-- Two writes name the same element. -/
def sameElem : RegWrite → RegWrite → Bool
  | .v r l _, .v r' l' _ => r == r' && l == l'
  | .fld r _, .fld r' _ => r == r'
  | .exp r k _, .exp r' k' _ => r == r' && k == k'
  | .s r _, .s r' _ => r == r'
  | .p r l _, .p r' l' _ => r == r' && l == l'
  | _, _ => false

/-- A variable-latency write lands after every earlier fixed-latency write to its element (06 R164). -/
def Group.putVar (G : Group) (ws : List RegWrite) : Group :=
  ({ G with fixed := G.fixed.map fun f => { f with writes := f.writes.filter fun x => !(ws.any (sameElem x)) } } : Group).putAll ws

/-- Insert by (due, order of issue). -/
def insDue (f : FixedWrite) : List FixedWrite → List FixedWrite
  | [] => [f]
  | x :: xs => if f.due < x.due || (f.due == x.due && f.seq < x.seq) then f :: x :: xs else x :: insDue f xs

/-- The group as a word with issue time `t` reads it: fixed-latency writes with T + L ≤ t have landed, the later-issued
last among equals (06 R162). -/
def Group.commit (G : Group) (t : Nat) : Group :=
  let now := (G.fixed.filter fun f => f.due ≤ t).foldl (fun l f => insDue f l) []
  let G := { G with fixed := G.fixed.filter fun f => t < f.due, ftoks := G.ftoks.filter fun f => t < f.due }
  now.foldl (fun G f => G.putAll f.writes) G

/-- The issue time of the next word (06 R160). -/
def Group.issueT (G : Group) (c : Ctl) : Nat :=
  let t0 := if G.issued then G.t + 1 + G.stall else 0
  G.ftoks.foldl (fun t f => if c.waitm.getLsbD f.tok && t < f.due then f.due else t) t0

/-! ## Program counters, lanes and meetings -/

/-- Where sequential fetch continues (06 R153). -/
def nextPc (pc : Word) (size : Nat) : Word :=
  let n := pc + BitVec.ofNat 64 size
  if n.toNat % 32 = 28 then n + 4#64 else n

def Group.laneAt (G : Group) (l : Nat) : Lane := G.lanes.getD l ⟨0#64, Config.noMeet, 0#7, .exited, 0⟩

/-- Lanes of the fragment at `pc` (01 R19); lanes that a waiting word holds are not in it. -/
def Group.fragment (G : Group) (pc : Word) : List Nat := G.freeLanes.filter fun l => (G.laneAt l).pc == pc

/-- The predicate as a lane reads it (02 R48). -/
def Group.pred (G : Group) (r lane : Nat) : Bool := r == 7 || (G.laneAt lane).preds.getLsbD r

/-- A guard in a lane (06 R155). -/
def Group.guard (G : Group) (c : Ctl) (lane : Nat) : Bool := (G.pred c.pred.toNat lane) != c.pneg

def Group.modLanes (G : Group) (ls : List Nat) (f : Lane → Lane) : Group :=
  { G with lanes := G.lanes.zipIdx.map fun (x, i) => if ls.contains i then f x else x }

/-- Active threads whose program counter equals their mt become held (01 R26). -/
def Group.settle (G : Group) : Group :=
  let held := G.heldLanes
  { G with lanes := G.lanes.zipIdx.map fun (x, i) =>
      if x.st == .active && x.pc == x.mt && !(held.contains i) then { x with st := .heldMeet } else x }

/-- Two lane sets use a common slice (01 R17). -/
def slicesMeet (a b : List Nat) : Bool := a.any fun i => b.any fun j => i / 4 == j / 4

/-- The fragments of a group, each with the clock of its last issue, in order of lowest lane (01 R19). -/
def Group.fragments (G : Group) : List (Word × List Nat × Nat) :=
  G.freeLanes.foldl (fun fs l =>
    let x := G.laneAt l
    if fs.any fun f => f.1 == x.pc then fs.map fun f => if f.1 == x.pc then (f.1, f.2.1 ++ [l], max f.2.2 x.lastIss) else f
    else fs ++ [(x.pc, [l], x.lastIss)]) []

/-- The fragment of a list that has waited longest; the one with the lowest lane among equals. -/
def longestOf (fs : List (Word × List Nat × Nat)) : Option Word :=
  (fs.foldl (fun (b : Option (Word × Nat)) f => match b with
    | none => some (f.1, f.2.2)
    | some (p, n) => if f.2.2 < n then some (f.1, f.2.2) else some (p, n)) none).map (·.1)

/-! ## Drained groups -/

def OKind.isWait : OKind → Bool
  | .barWait .. | .feLoad .. | .accLdFe .. | .feWait .. | .arrWait .. | .qWait .. | .tokWait | .spawn => true
  | _ => false

/-- A word that keeps its group's fetch suspended: a `gwalk` that has not ended (12 R308), a `spawn` whose record Sward has not
accepted (01 R39), a `cget` or `catom` whose owner has not reported that every line passed translation (14 R337; its lanes are then
held). -/
def OWord.suspends (o : OWord) : Bool :=
  match o.kind with
  | .gwalk .. | .spawn => true
  | .cget .. | .catom .. => !o.held.isEmpty
  | _ => false

/-- Every word the group issued has completed, waiting words apart (05 R138), with its tile operations and drains
(11 R272). -/
def State.drained (s : State) (g : Nat) : Bool :=
  (s.group g).outst.all (fun o => o.kind.isWait) &&
  !(s.cores.any fun c => c.ops.any (fun o => o.g == g) || c.drains.any fun d => d.g == g)

/-! ## Fault records (21 R445) -/

/-- The physical address of the slot of record `n`. -/
def State.fqSlot (s : State) (ten n : Nat) : Nat :=
  let t := s.ten ten
  t.fqbase + (n - 1) % 2 ^ t.fqlog * 64

/-- A slot may be written: it is empty, or its record's STATE is not 0. -/
def State.slotFree (s : State) (ten n : Nat) : Bool :=
  let a := s.fqSlot ten n
  s.rdMem a 8 == 0 || s.rdMem (a + 10) 1 != 0

/-- Write a record with the next SEQ: bytes 63:8 first, then SEQ. -/
def State.writeRec (s : State) (ten : Nat) (r : FRec) : State :=
  let n := (s.ten ten).fqNext
  let a := s.fqSlot ten n
  let put := fun (s : State) (f : Nat × Nat × Nat) => s.wrMem (a + f.1) f.2.1 f.2.2
  let s : State := [(8, 1, r.flt.code), (9, 1, r.flt.cls), (10, 1, if r.void then 3 else if 3 ≤ r.flt.cls then 2 else 0), (11, 1, r.flt.lane),
    (12, 4, r.flt.info), (16, 8, r.flt.pc.toNat), (24, 8, r.flt.vaddr), (32, 4, r.team), (36, 2, r.gidx),
    (38, 1, r.cluster), (39, 1, r.cslot), (40, 8, r.cr), (48, 8, r.cslot), (56, 8, r.flt.time), (0, 8, n)].foldl put s
  let s : State := s.modTen ten fun t => { t with
    fqNext := n + 1
    fqDone := if 3 ≤ r.flt.cls || r.void then t.fqDone else t.fqDone ++ [{ r with seq := n }] }
  match r.target with
  | .group g | .launch _ g => s.modGroup g fun G => { G with answer := some n }
  | .queue tid q => (s.modTeam tid fun t => { t with queues := modAt t.queues q fun x => { x with seq := n } }).putQueue tid q
  | .nobody => s

/-- Records that wait inside the device are written while the next slot is free. The fuel is their number. -/
def State.fqFlushN (s : State) (ten : Nat) : Nat → State
  | 0 => s
  | k + 1 =>
    let t := s.ten ten
    match t.fqWait with
    | [] => s
    | r :: rs => if s.slotFree ten t.fqNext then
        ((s.modTen ten fun t => { t with fqWait := rs }).writeRec ten r).fqFlushN ten k else s
def State.fqFlush (s : State) (ten : Nat) : State := s.fqFlushN ten (s.ten ten).fqWait.length

/-- Post a record: it is written, or waits, or (a NOTE) is dropped and counted. -/
def State.post (s : State) (ten : Nat) (r : FRec) : State :=
  let t := s.ten ten
  if t.fqWait.isEmpty && s.slotFree ten t.fqNext then s.writeRec ten r
  else if r.flt.cls == 3 then s.modTen ten fun t => { t with fqLost := t.fqLost + 1#64 }
  else s.modTen ten fun t => { t with fqWait := t.fqWait ++ [r] }

/-- A NOTE record (19 R410, R499). -/
def State.note (s : State) (ten code info vaddr : Nat) (team cr cslot : Nat) : State :=
  s.post ten { flt := ⟨code, 3, 0, info, 0#64, vaddr, false, [], 0#64, false, s.clock⟩, team := team, gidx := 0xFFFF, cluster := 0,
               cr := cr, cslot := cslot, target := .nobody, seq := 0 }

/-- Where a lane that is not free goes on: after the word that holds it, at its meeting address, after its `meetw`, or at the
exit target of the refill point (01 R26, R27, R36). -/
def Group.goesOnAt (G : Group) (l : Nat) : Option Word :=
  let x := G.laneAt l
  match x.st with
  | .active => (G.outst.find? fun o => o.held.contains l).map (·.next)
  | .heldMeet => some x.pc
  | .heldW => some (nextPc x.pc 8)
  | .done => G.refill.map (·.exit)
  | .exited => none

/-- The address of the word a group would issue next, 0 when there is none (21 R497): that of a free lane, a sticky one first; else
where its lowest lane with a next word goes on (DEDUCED, log 39). -/
def Group.nextWord (G : Group) : Word :=
  match (G.freeLanes.find? G.sticky.contains).orElse fun _ => G.freeLanes.head? with
  | some l => (G.laneAt l).pc
  | none => ((List.range G.gw).findSome? G.goesOnAt).getD 0#64

def State.recOf (s : State) (g : Nat) (f : Flt) : FRec :=
  let G := s.group g
  let t := s.team G.team
  -- ARITH_CHECK names the word that the group would issue next (21 R497)
  let f := if f.code == 0x41 then { f with pc := G.nextWord } else f
  { flt := f, team := t.idx, gidx := G.gidx, cluster := t.cluster, cr := (s.launch t.launch).crva, cslot := t.slot,
    target := if f.cls == 1 then .launch t.launch g else .group g, seq := 0 }

/-! ## Taking a fault (21 R443, R497) -/

/-- What peers were asked for a word that a group performs at issue is forgotten: the word reads anew when it runs again. -/
def State.unask (s : State) (g : Nat) : State :=
  { s with sent := s.sent.filter fun q => !(q.kind == .swLoad && 2 ^ 40 ≤ q.g && q.g % 2 ^ 40 == g) }

/-- A group that has drained leaves its core: it takes the stage given, and its image is written, which tells whether it held the token
(02 R66, 21 R443). -/
def State.park (s : State) (g : Nat) (stage : Stage) : State :=
  let had := (s.core (s.group g).core).token.any (· == some g)
  (s.modGroup g fun G => { G with stage := stage, hadToken := had }).writeImage g

/-- A group of a halted team that has drained, and has sent what it has paid for, is stopped (13 R328, 14 R339). -/
def State.haltStop (s : State) (g : Nat) : State :=
  let G := s.group g
  if G.stage == .running && (s.team G.team).life == .halted && G.paid.isNone && s.drained g then (s.unask g).park g .saved else s

/-- A stopping group that has drained: its control block and lines are written, then the record (21 R443 steps 2-4). -/
def State.finishStop (s : State) (g : Nat) : State :=
  let G := s.group g
  if G.stage == .stopping && s.drained g then
    match G.faults with
    | [] => s
    | f :: _ => (s.park g .awaiting).post (s.team G.team).ten (s.recOf g f)
  else s

/-- TAKING AN EXCEPTION: the one operation by which a group takes a fault of class GROUP or LAUNCH (21 R443): the
faulting word has no effect, the group stops issuing, and when its issued words have completed the image and the record
are written. A team that was being pre-empted runs on (19 R408), a concurrent launch as a whole (01 R30). A fault of a group that is already stopping or stopped is held as a further record. Under ASSERT every other
group of the launch stops too (13 R328). -/
def State.groupFault (s : State) (g : Nat) (f : Flt) : State :=
  let s : State := (s.unask g).modGroup g fun G =>
    { G with faults := G.faults ++ [{ f with time := s.clock }], stage := if G.stage == .running then .stopping else G.stage,
             suspend := none, want := [], paid := none }
  let s : State := s.runOn (s.group g).team
  (if f.cls == 1 then s.haltLaunch (s.team (s.group g).team).launch else s).finishStop g

/-- The time limit of an `arrwait` has passed (14 R344). -/
def OWord.overdue (o : OWord) (clock : Nat) : Bool :=
  match o.kind with
  | .arrWait _ _ (some t) => decide (t ≤ clock)
  | _ => false

/-! ## Completion of words -/

/-- A word leaves the group: its token loses 1 (02 R49), and the lanes it held go on to the next word. -/
def Group.release (G : Group) (o : OWord) : Group :=
  let G := { G with outst := G.outst.filter fun x => x.id != o.id,
                    w := match o.tok with | some i => modAt G.w i (· - 1) | none => G.w }
  (G.modLanes o.held fun x => if x.st == .active && x.pc == o.pc then { x with pc := o.next } else x).settle

/-- The lanes a word holds go on; the word stays outstanding. -/
def Group.passOn (G : Group) (o : OWord) : Group :=
  let G : Group := { G with outst := G.outst.map fun (x : OWord) => if x.id == o.id then { x with held := [] } else x }
  (G.modLanes o.held fun x => if x.st == .active && x.pc == o.pc then { x with pc := o.next } else x).settle

/-- A word completes with the given writes (06 R166); an acquire invalidates L1 lines after its value is bound (05 R132). -/
def State.complete (s : State) (g : Nat) (o : OWord) (ws : List RegWrite) : State :=
  let s : State := s.modGroup g fun G => (G.putVar ws).release o
  let s : State := s.l1Acquire (s.group g).core o.acq
  s.finishStop g

/-- A word is taken back by a fault found after issue: its token loses 1 and its lanes stay at the word (02 R49). -/
def State.takeBack (s : State) (g : Nat) (o : OWord) : State :=
  s.modGroup g fun G => { G with outst := G.outst.filter fun x => x.id != o.id,
                                 w := match o.tok with | some i => modAt G.w i (· - 1) | none => G.w }

/-- A word is taken back of which some lanes have been performed: they go on, and the lanes `stay` remain at the word. -/
def State.takeBackFor (s : State) (g : Nat) (o : OWord) (stay : List Nat) : State :=
  (s.takeBack g o).modGroup g fun G =>
    (G.modLanes (o.held.filter fun l => !(stay.contains l)) fun x => if x.st == .active && x.pc == o.pc then { x with pc := o.next } else x).settle

/-- ARRIVAL_TIMEOUT at a waiting `arrwait` (14 R344). -/
def State.arrivalTimeout (s : State) (g : Nat) (o : OWord) : State :=
  (s.takeBack g o).groupFault g ⟨0x34, 0, o.held.headD 0, 0, o.pc, 0, false, o.held, o.next, false, 0⟩

/-- Time limits that passed while a group was saved are raised before it issues again (14 R344). -/
def State.expireWaits (s : State) (g : Nat) : State :=
  (s.group g).outst.foldl (fun (s : State) o => if o.overdue s.clock then s.arrivalTimeout g o else s) s

def State.word? (s : State) (g id : Nat) : Option OWord := (s.group g).outst.find? fun o => o.id == id

/-- A join word's count has reached zero: Sward is given the record at CRADDR (01 R41); `g` is the group whose `joinc` did it. -/
def State.joinEnqueue (s : State) (ten va team : Nat) (g : Option Nat) : State :=
  s.modTen ten fun t => { t with joinWait := t.joinWait ++ [⟨va, team, g, none, none⟩] }

/-! ## Band queues in memory (19 R403, 21 R448) -/

/-- The 64 bytes of a record (19 R397). -/
def CRec.bytes (r : CRec) : List Byte :=
  leBytes 8 r.code ++ leBytes 8 r.frame ++ leBytes 8 r.join ++ leBytes 8 r.cmpl ++ leBytes 3 r.teams ++
  leBytes 1 (r.prog + 4 * r.slvl.toNat + 8 * r.band) ++ leBytes 1 r.iqs ++ leBytes 2 r.chtix ++ List.replicate 25 0#8

/-- The band queues of a tenancy become `bs`. A queue that changes is written to its 64 KiB of the context area: its records from
entry 0 in queue order, zeros after them (DESIGN CHOICE, log 8: the order inside the area is not given). -/
def State.setBands (s : State) (ten : Nat) (bs : List (List Nat)) : State :=
  let old := (s.ten ten).bands
  let m := (bs.zip old).zipIdx.foldl (fun m ((b, o), i) =>
    if b == o then m
    else
      let a := (s.ten ten).ctxbase + 0x1000 + 0x10000 * i
      Cells.writeN (Cells.clear m a 0x10000) a (b.flatMap fun l => (s.launch l).crec.bytes)) s.mem
  ({ s with mem := m } : State).modTen ten fun t => { t with bands := bs }

/-- A launch leaves the band queues of its tenancy. -/
def State.unqueue (s : State) (l : Nat) : State :=
  let ten := (s.launch l).ten
  s.setBands ten ((s.ten ten).bands.map fun b => b.filter (· != l))

/-! ## Releasing what a team holds -/

/-- A group retires: its token is freed (01 R45). Further faults that a discarded group holds are dropped unwritten (21 R443). -/
def State.retire (s : State) (g : Nat) : State :=
  let G := s.group g
  let s : State := s.modGroup g fun G => { G with stage := .retired, outst := [], suspend := none, want := [], faults := [], answer := none, advance := [] }
  s.modCore G.core fun c => { c with token := c.token.map fun t => if t == some g then none else t,
                                     walks := c.walks.filter fun w => w.1 != g }

/-- Tiles, item shares and leases of a team are freed, its groups retire (21 R452, 14 R348). -/
def State.freeCores (s : State) (tid : Nat) (life : Life) : State :=
  let t := s.team tid
  let s : State := t.groups.foldl (fun s g => s.retire g) s
  let s : State := t.leases.foldl (fun s l => s.endLease tid l.id) s
  let mine := fun g => t.groups.contains g
  let s : State := { s with cores := s.cores.map fun c =>
    { c with tiles := c.tiles.filter fun x => !(c.tileOwner.contains (x.1, tid)),
             tileOwner := c.tileOwner.filter fun x => x.2 != tid,
             ops := c.ops.filter fun o => !mine o.g } }
  s.modTeam tid fun t => { t with life := life, items := t.items.map fun _ => [] }

/-- Its frames are freed without write-back, and what waits in its queues is dropped. -/
def State.freePages (s : State) (tid : Nat) : State :=
  let dead (q : Sent) : Bool := q.team == tid && (q.kind == .engLoad || q.kind == .swLoad || (q.lost && q.kind == .engStore))
  let s : State := { s with sent := s.sent.filter fun q => !dead q }
  let s : State := { s with cores := s.cores.map fun c =>
    { c.free (fun f => f.team == tid) with
      stb := c.stb.filter fun e => e.team != tid,
      drains := c.drains.filter fun d => d.team != tid } }
  s.modTeam tid fun t => { t with queues := t.queues.map fun q => { q with pending := [], halted := false, flt := none } }

def State.freeTeam (s : State) (tid : Nat) (life : Life) : State := (s.freeCores tid life).freePages tid

/-- The teams that `p` names are discarded: live ones are freed, and finished ones give up the commands that their queues still hold (19
R408, 21 R452). -/
def State.discardTeams (s : State) (p : Team → Bool) : State :=
  (List.range s.teams.length).foldl (fun (s : State) i =>
    if !(p (s.team i)) then s
    else if (s.team i).life.live then s.freeTeam i .discarded
    else if (s.team i).lingers then s.freePages i
    else s) s

/-- Every live team of a launch is discarded; the launch completes with the status given (19 R408). -/
def State.discard (s : State) (l status fcode : Nat) : State :=
  let s : State := s.discardTeams fun t => t.launch == l
  let s : State := s.modLaunch l fun x => { x with abort := match x.abort with | some a => some a | none => some (status, fcode), halted := false }
  s.unqueue l

/-! ## Uncontained faults (21 R452) -/

/-- Bits of a TNCFG word set or cleared by the device. -/
def State.setFroz (s : State) (ten : Nat) (b : Bool) : State :=
  s.modTen ten fun t => { t with cfg := modAt t.cfg 0 fun w => setBit w 60 b }

/-- Records of a tenancy in STATE 0 that `p` names become STATE 3; one that waits in the device is written so (21 R452 step 6). -/
def State.voidRecs (s : State) (ten : Nat) (p : FRec → Bool) : State :=
  let s : State := ((s.ten ten).fqDone.filter p).foldl (fun s r => s.wrMem (s.fqSlot ten r.seq + 10) 1 3) s
  s.modTen ten fun t => { t with
    fqDone := t.fqDone.filter fun r => !p r
    fqWait := t.fqWait.map fun r => if p r && r.flt.cls < 3 then { r with void := true, target := .nobody } else r }

/-- The tenancy's work is discarded: the order of 21 R452. The launches complete when LAUNCH_COMPLETION writes them. No record is written
where the write of one has failed (21 R442), nor where the tenancy has no fault queue (DESIGN CHOICE, log 25). -/
def State.uncontained (s : State) (ten code : Nat) : State :=
  let s : State := s.setFroz ten true
  let s : State := { s with sent := s.sent.filter fun p => !((s.team p.team).ten == ten && (p.kind == .fwdLoad)) }
  let s : State := s.discardTeams fun t => t.ten == ten
  let s : State := (s.voidRecs ten fun _ => true).setBands ten (List.replicate 8 [])
  let s : State := { s with launches := s.launches.map fun l =>
    if l.ten == ten && !l.completed then { l with abort := some (l.abort.getD (0x20, code)), halted := false } else l }
  if code == 0x65 || (s.ten ten).fqlog < 6 then s
  else s.post ten { flt := ⟨code, 4, 0, 0, 0#64, 0, false, [], 0#64, false, s.clock⟩, team := 0, gidx := 0xFFFF, cluster := 0,
                    cr := 0, cslot := 0, target := .nobody, seq := 0 }

/-- A tenancy takes an uncontained fault whose cause was detected on die `d` (21 R452, R455). -/
def State.uncontain (s : State) (ten code : Nat) (d : Bool) : State := (s.uncontained ten code).countErr d 8

/-! ## Answers (21 R446, R447) -/

/-- Bytes of a group's image. -/
def State.imageLen (s : State) (G : Group) : Nat := 8192 + (s.hdrOf (s.team G.team)).regs * s.linesPer G * 128

/-- A group whose faults are all answered runs again: its image is read back and the lanes that leave their word do so. An image of
which a line is refused (21 R454) is a context that is lost: the tenancy takes an uncontained fault (DESIGN CHOICE, log 25). -/
def State.resumeGroup (s : State) (g : Nat) : State :=
  if s.listed (s.imageAddr (s.group g)) (s.imageLen (s.group g)) then
    s.uncontain (s.team (s.group g).team).ten 0x60 (dieOf (s.group g).core)
  else
    let s : State := s.readImage g
    s.modGroup g fun G =>
      let G := G.advance.foldl (fun G a => G.modLanes a.1 fun x => if x.pc == a.2.1 then { x with pc := a.2.2 } else x) G
      ({ G with stage := .running, advance := [], readyAt := max G.readyAt s.clock } : Group).settle

/-- The lanes of the faulting fragment leave the word under action 1, and under action 0 where the group continues. -/
def Flt.advances (f : Flt) (action : Nat) : Bool := !f.late && (f.cont || action == 1)

/-- One fault of a group is answered with action 0 or 1: the next record held is written, or the group resumes. -/
def State.answerGroup (s : State) (g action : Nat) : State :=
  let G := s.group g
  match G.faults with
  | [] => s
  | f :: rest =>
    let adv := if f.advances action then [(f.lanes, f.pc, f.next)] else []
    let s : State := s.modGroup g fun G => { G with faults := rest, answer := none, advance := G.advance ++ adv }
    match rest with
    | n :: _ => s.post (s.team G.team).ten (s.recOf g n)
    | [] =>
      if (s.team G.team).life == .running then s.resumeGroup g
      else s.modGroup g fun G => { G with stage := .saved }

/-- Groups of a running team whose stop is over are restored (21 R447, 19 R408). -/
def State.wake (s : State) (tid : Nat) : State :=
  (s.team tid).groups.foldl (fun s g => if (s.group g).stage == .saved then s.resumeGroup g else s) s

/-- The halted teams of a launch run again (19 R408). -/
def State.unhalt (s : State) (l : Nat) : State :=
  let s : State := s.modLaunch l fun x => { x with halted := false }
  s.teams.zipIdx.foldl (fun (s : State) ((t, i) : Team × Nat) =>
    if t.launch == l && t.life == .halted then (s.setLife i .running).wake i else s) s

/-- A queue record is answered (21 R447): the faulting command stands first in the queue. The TCB follows, so that an answer to the
queue of a saved team holds when the team runs again. -/
def State.answerQueue (s : State) (tid q action : Nat) : State :=
  (s.modTeam tid fun t => { t with queues := modAt t.queues q fun x =>
    { x with halted := false, flt := none, seq := 0,
             pending := if action == 1 then x.pending.drop 1 else x.pending,
             completed := if action == 1 then x.completed + 1 else x.completed } }).putQueue tid q

/-- RETURN FROM AN EXCEPTION: the one operation by which `sret` and the fault window answer record `n` of a tenancy. An
answered record is neither changed nor acted on; a record in STATE 0 becomes STATE 1. -/
def State.answer (s : State) (ten n action : Nat) : State :=
  match (s.ten ten).fqDone.find? fun r => r.seq == n with
  | none => s
  | some r =>
    let s : State := s.wrMem (s.fqSlot ten n + 10) 1 1
    let s : State := s.modTen ten fun t => { t with fqDone := t.fqDone.filter fun x => x.seq != n }
    let s : State := match r.target with
      | .group g =>
        if action == 2 then s.discard (s.team (s.group g).team).launch 0x21 0 else s.answerGroup g action
      | .launch l g =>
        if action == 2 then s.discard l 0x22 0x50 else (s.answerGroup g action).unhalt l
      | .queue tid q =>
        if action == 2 then s.discard (s.team tid).launch 0x21 0 else s.answerQueue tid q action
      | .nobody => s
    s.fqFlush ten

/-! ## Fetching an instruction (06 R152, R153, R172 rows 1-5) -/

inductive Fetch where
  | word (i : Instr)
  /-- a fault at the word's own address; the size is unknown where LEN is 11 -/
  | trap (s : State) (code va : Nat) (size : Option Nat)
  | wait (s : State) (w : Wait)

/-- The instruction at `pc` for a group. Its bytes are those of its aligned 32-byte block. -/
def State.fetch (s : State) (g : Nat) (pc : Word) : Fetch :=
  let G := s.group g
  let p := pc.toNat
  if 2 ^ 56 ≤ p then .trap s 0x11 p none
  else if p % 4 != 0 || p % 32 == 28 then .trap s 0x03 p none
  else match s.xlateAll g G (s.team G.team).ten pc .fetch [(0, p)] with
    | .wait s' w => .wait s' w
    | .fault s' c _ va _ => .trap s' c va none
    | .ok ls =>
      match ls with
      | [] => .wait s .other
      | l :: _ =>
        if s.poisoned l.pa then .trap s 0x60 p none
        else
          let room := 32 - p % 32
          let w := Cells.readLE s.mem l.pa room
          match lenBytes (bitsOf w 0 2) with
          | none => .trap s 0x01 0 none
          | some n =>
            if room < n then .trap s 0x03 0 (some n)
            else match decodeBits (w % 2 ^ (8 * n)) with
              | .ok i => .word i
              | .error _ => .trap s 0x01 0 (some n)

/-! ## Issue -/

/-- What a meaning sees: the state and the group as they stand at the word's issue time. -/
structure Ctx where
  s : State
  g : Nat
  G : Group
  pc : Word
  next : Word
  /-- lanes of the fragment, and participating lanes (07 R179) -/
  frag : List Nat
  part : List Nat
  t : Nat
  c : Ctl

/-- What a meaning answers. -/
inductive Res where
  /-- fixed-latency results: latency, registers, writes -/
  | fixed (rs : List (Nat × List RegName × List RegWrite))
  /-- performed, complete at issue; the fragment goes on -/
  | go (s : State)
  /-- as `go`, and the group's stickiness ends (07 R190) -/
  | yield (s : State)
  /-- performed, complete at issue; the meaning has moved the lanes -/
  | jump (s : State)
  /-- issued, outstanding; the fragment goes on -/
  | out (s : State) (o : OWord)
  /-- issued; the fragment waits with the word -/
  | hold (s : State) (o : OWord)
  /-- a fault of the word: code, lane, address, INFO -/
  | trap (s : State) (code lane va info : Nat)
  /-- a fault of a class or kind of its own -/
  | trapF (s : State) (f : Flt)
  /-- not ready: nothing has happened. The group's fetch is suspended (05 R147), or only this fragment waits -/
  | stall (s : State) (w : Wait) (suspend : Bool)

/-- Registers that a word reads or writes. -/
def namesOf (u : Uses) : List RegName := u.reads ++ u.fixed.map (·.1) ++ u.var

/-- Vector registers of a word whose lines are not in the register cache: the word misses (01 R21). -/
def Group.misses (G : Group) (u : Uses) : List Nat :=
  if G.missing.isEmpty then [] else G.missing.filter fun r => (namesOf u).contains (.v r)

/-- The wait tokens and the scoreboard let the word issue, and no fragment of the group waits for a register line (01 R21,
02 R49, 06 R164). -/
def State.ready (s : State) (G : Group) (c : Ctl) (u : Uses) : Bool :=
  !(G.outst.any OWord.suspends) &&
  (List.range 6).all (fun i => !(c.waitm.getLsbD i) || G.w.getD i 0 == 0) &&
  (6 ≤ c.setw.toNat || G.tokCount s.clock c.setw.toNat < 15) &&
  !(G.outst.any fun o => o.dests.any fun d => (namesOf u).contains d) && G.fills.isEmpty && (G.misses u).isEmpty

/-- Row 9 of 06 R172: STALL_UNDERSIZE under the checking scoreboard (06 R163). -/
def Group.undersize (G : Group) (t : Nat) (u : Uses) : Bool :=
  G.chk && G.fixed.any fun f => t < f.due &&
    (f.regs.any fun r => u.reads.contains r || u.fixed.any fun w => w.1 == r && t + w.2 ≤ f.due)

/-- The bookkeeping of an issue: T, STALL, stickiness, the yield hint (06 R156, R160; 01 R22, R23). The fragment keeps issuing;
directly after a split its part with the lowest lane does. What shares a slice with it is sticky no longer. The yield hint leaves the
fairness count as it is (DESIGN CHOICE, log 37). -/
def issueDone (x : Ctx) (s : State) : State :=
  s.modGroup x.g fun G =>
    let G := G.modLanes x.frag fun l => { l with lastIss := s.clock }
    let held := G.heldLanes
    let on := x.frag.filter fun l => (G.laneAt l).st == .active && !(held.contains l)
    let first := on.filter fun l => (G.laneAt l).pc == (G.laneAt (on.headD 0)).pc
    let others := G.sticky.filter fun l => !(slicesMeet [l] x.frag)
    { G with t := x.t, stall := x.c.stall.toNat, issued := true, readyAt := s.clock + 1 + x.c.stall.toNat, lastIssue := s.clock,
             readySince := none, promoted := false, suspend := none, want := [], paid := none, blocked := [], since := s.clock,
             waits := G.waits.filter fun w => w.1 != x.pc,
             seq := G.seq + 1, sticky := if x.c.yld then others else others ++ first, forced := if x.c.yld then first else [] }

/-- The lanes of the fragment go on to the next word; meetings are settled. -/
def goOn (x : Ctx) (s : State) : State :=
  s.modGroup x.g fun G =>
    (G.modLanes x.frag fun l => if l.st == .active && l.pc == x.pc then { l with pc := x.next } else l).settle

/-- A word joins the outstanding words: its token gains 1. -/
def addWord (x : Ctx) (o : OWord) (s : State) : State :=
  s.modGroup x.g fun G =>
    { G with outst := G.outst ++ [o], w := match o.tok with | some i => modAt G.w i (· + 1) | none => G.w }

/-- Fixed-latency results are on their way; one of latency 0 stands at once. -/
def addFixed (x : Ctx) (rs : List (Nat × List RegName × List RegWrite)) (s : State) : State :=
  let l := rs.foldl (fun m r => max m r.1) 0
  s.modGroup x.g fun G =>
    let G := G.putAll ((rs.filter fun r => r.1 == 0).flatMap fun r => r.2.2)
    { G with fixed := G.fixed ++ (rs.filter fun r => r.1 != 0).map fun r => ⟨x.t + r.1, G.seq, r.2.1, r.2.2⟩,
             ftoks := if x.c.setw.toNat < 6 then G.ftoks ++ [⟨x.c.setw.toNat, x.t + l, s.clock + l⟩] else G.ftoks }

/-- The word's fault as a record of class GROUP. -/
def Ctx.flt (x : Ctx) (code lane va info : Nat) : Flt :=
  ⟨code, 0, lane, info, x.pc, va, false, x.frag, x.next, false, 0⟩

/-- A word that faults has not issued: the registers and the timing of its group are as before (06 R160, R162). -/
def State.backOut (s : State) (g : Nat) (G0 : Group) : State := s.modGroup g fun _ => G0

/-- The group waits with the word not issued: its registers and timing are as before, and its fragment is sticky no longer (01 R23).
The time of the wait counts from when this word began to wait for this reason, whatever the group did meanwhile (DESIGN CHOICE,
log 39). -/
def stallAt (g : Nat) (G0 : Group) (pc : Word) (w : Wait) (suspend : Bool) (s : State) : State :=
  s.modGroup g fun G =>
    { G0 with want := G.want, paid := G.paid, fills := G.fills, readySince := none, waits := (pc, w) :: G0.waits.filter fun y => y.1 != pc,
              since := if G0.suspend == some (pc, w) then G0.since else s.clock,
              sticky := G0.sticky.filter fun l => (G0.laneAt l).pc != pc,
              suspend := if suspend then some (pc, w) else G0.suspend, blocked := if G0.blocked.contains pc then G0.blocked else pc :: G0.blocked }

/-- What an answer of a meaning does to the machine. -/
def finish (x : Ctx) (G0 : Group) : Res → State
  | .fixed rs => issueDone x (goOn x (addFixed x rs x.s))
  | .go s => issueDone x (goOn x s)
  | .yield s => issueDone { x with c := { x.c with yld := true } } (goOn x s)
  | .jump s => issueDone x (s.modGroup x.g Group.settle)
  | .out s o => issueDone x (goOn x (addWord x o s))
  | .hold s o => issueDone x (addWord x o s)
  | .trap s c l va i => (s.backOut x.g G0).groupFault x.g (x.flt c l va i)
  | .trapF s f => (s.backOut x.g G0).groupFault x.g f
  | .stall s w b => stallAt x.g G0 x.pc w b s

/-- Rows 6 to 9 of 06 R172 in order. -/
def staticFault (i : Instr) (G : Group) (regs acc t : Nat) (u : Uses) : Option Nat :=
  if !(namesOk u regs acc && selectorOk i) then some 0x01
  else if !(WellFormed i && widthOk G.gw i) then some 0x02
  else if privileged i && !G.levelS then some 0x05
  else if G.undersize t u then some 0x04
  else none

/-- A word that has spent its allowance is carried out before its team is saved (14 R339). -/
def State.finishes (s : State) (G : Group) (pc : Word) : Bool :=
  ((s.team G.team).life == .stopping || (s.team G.team).life == .halted) && G.paid == some pc

/-- Every instruction word issues through this operation, for the fragment that `cur` names: its issue time, readiness,
the checks of 06 R172, then its meaning `k`. -/
def word (i : Instr) (c : Ctl) (k : Ctx → Res) (s : State) : Outcome State Fault Refusal :=
  match s.cur with
  | none => .fault .noFragment
  | some (g, pc) =>
    match s.groups[g]? with
    | none => .fault .noFragment
    | some G0 =>
      let frag := G0.fragment pc
      let team := s.team G0.team
      if frag.isEmpty || G0.stage != .running || !(team.life == .running || s.finishes G0 pc) then .fault .noFragment
      else
        let t := G0.issueT c
        let G := G0.commit t
        let u := uses G.gw i
        if !(s.ready G0 c u) then
          .next (stallAt g G0 pc .other false (s.modGroup g fun G => { G with fills := if G.fills.isEmpty then G.misses u else G.fills }))
        else
          let s1 := s.modGroup g fun _ => G
          let x : Ctx := { s := s1, g := g, G := G, pc := pc, next := nextPc pc i.size, frag := frag,
                           part := frag.filter (G.guard c), t := t, c := c }
          let h := s.hdrOf team
          match staticFault i G h.regs h.acc t u with
          | some code => .next ((s1.backOut g G0).groupFault g (x.flt code 0 0 0))
          | none => .next (finish x G0 (k x))

/-! ## Reading operands -/

def Ctx.v (x : Ctx) (r : BitVec 7) (lane : Nat) : Lane32 := (x.G.v.getD r.toNat ⟨[], ⟨0#64, 0#16⟩⟩).lanes.getD lane 0#32
def Ctx.vn (x : Ctx) (r lane : Nat) : Lane32 := (x.G.v.getD r ⟨[], ⟨0#64, 0#16⟩⟩).lanes.getD lane 0#32
def Ctx.tag (x : Ctx) (r : BitVec 7) : Tag := (x.G.v.getD r.toNat ⟨[], ⟨0#64, 0#16⟩⟩).tag
def Ctx.sreg (x : Ctx) (r : BitVec 7) : Word := x.G.s.getD r.toNat 0#64
def Ctx.breg (x : Ctx) (r : BitVec 7) : Rec256 := x.G.b.getD (fld r 0 4) 0#256
/-- The 64-bit value of a pair in a lane (07 R183). -/
def Ctx.pair (x : Ctx) (r : BitVec 7) (lane : Nat) : Word := x.vn (r.toNat + 1) lane ++ x.vn r.toNat lane
def Ctx.team (x : Ctx) : Team := x.s.team x.G.team
def Ctx.tid (x : Ctx) : Nat := x.G.team
def Ctx.hdr (x : Ctx) : Header := x.s.hdrOf x.team
def Ctx.ten (x : Ctx) : Nat := x.team.ten

/-- The word's entry among the outstanding words. -/
def Ctx.oword (x : Ctx) (dests : List RegName) (kind : OKind) : OWord :=
  { id := x.G.seq, pc := x.pc, next := x.next, tok := if x.c.setw.toNat < 6 then some x.c.setw.toNat else none, dests := dests,
    held := [], acq := 0, rel := 0, isLoad := false, isStore := false, unOnly := false, so := false, kind := kind }

/-- A mask of lanes. -/
def laneBits (ls : List Nat) : Nat := ls.foldl (fun m l => m + 2 ^ l) 0

/-- Blocks of a register that hold a lane of the list (02 R51, R53). -/
def blocksOf (ls : List Nat) : List Nat := (List.range 8).filter fun k => ls.any fun l => l / 8 == k

/-- The tag a result that is not BFP takes: its FMT, everything else 0 (02 R53). -/
def plainTag (r fmt : Nat) (act : List Nat) : List RegWrite :=
  .fld r (BitVec.ofNat 16 (fmt * 16)) :: (blocksOf act).map fun k => .exp r k 0#8

/-- A result register of a plain type: a value per participating lane, and the tag, which is written at every issue for
the blocks that hold an active lane of the fragment (02 R53, 08 R203). -/
def Ctx.vres (x : Ctx) (r fmt : Nat) (f : Nat → Lane32) : List RegWrite :=
  (x.part.map fun l => .v r l (f l)) ++ plainTag r fmt x.frag

/-- FMT, PLN and FILL of a tag as an instruction that reads it sees them (02 R498). -/
def Tag.fmt (t : Tag) : Nat := let k := bitsOf t.field.toNat 4 4; if 8 ≤ k then 0 else k
def Tag.pln (t : Tag) : Nat :=
  let p := bitsOf t.field.toNat 0 4
  if t.fmt != 6 then 0 else if p == 0 || 9 ≤ p then 8 else p
def Tag.fill (t : Tag) : Bool := t.fmt == 6 && t.pln < 8 && bitAt t.field.toNat 8
def Tag.exp (t : Tag) (k : Nat) : BitVec 8 := BitVec.ofNat 8 (bitsOf t.exps.toNat (8 * k) 8)
/-- A field word (02 R50). -/
def fieldWord (fmt pln : Nat) (fill : Bool) : BitVec 16 := BitVec.ofNat 16 (pln + 16 * fmt + 256 * fill.toNat)

/-- vD's tag taken from another register's (08 R208). -/
def Ctx.copyTag (x : Ctx) (d : Nat) (a : BitVec 7) : List RegWrite :=
  let t := x.tag a
  .fld d (fieldWord t.fmt t.pln t.fill) :: (blocksOf x.frag).map fun k => .exp d k (t.exp k)

/-- A computation of one slot: its register writes, or the fault that its operands raise and the lane. -/
abbrev Comp := Ctx → Except (Nat × Nat) (List RegWrite)

/-- A fixed-latency word with one latency, all of whose destinations `uses` gives. -/
def fixedWord (i : Instr) (c : Ctl) (s : State) (k : Comp) : Outcome State Fault Refusal :=
  word i c (fun x => match k x with
    | .ok ws => .fixed [((latency i).getD 0, (slotUses x.G.gw i).2.1, ws)]
    | .error (code, lane) => .trap x.s code lane 0 0) s

/-- What a release finds (05 R131, R148, 14 R339, R340). -/
inductive Rel where
  | ok
  | wait
  | dead (s : State) (peer : Nat)
  | refused (s : State) (chan : Nat)

/-- Packets of channel instructions. -/
def SentKind.packet : SentKind → Bool
  | .send | .put | .get | .atom => true
  | _ => false

/-- Whether every access of the group's words `old` is performed, UN pages apart, and for `.dom` and `.sys` their packets are
acknowledged. An acknowledgement that will never come fails every later release of the group, until privileged software clears the
dead-peer bit (DESIGN CHOICE, log 5); a refused packet is reported once (DESIGN CHOICE, log 5). -/
def State.relUpTo (s : State) (g scope : Nat) (old : Nat → Bool) : Rel :=
  let mine := s.sent.filter fun p => p.g == g && old p.word &&
    (p.kind == .fwdStore || (p.kind == .fwdLoad && p.lost) || (5 ≤ scope && p.kind.packet))
  match mine.find? fun p => p.refused || p.lost with
  | some p => if p.refused then .refused { s with sent := s.sent.filter fun q => q.id != p.id } p.chan else .dead s p.peer
  | none =>
    if !mine.isEmpty || (s.group g).outst.any (fun o => old o.id && (o.isLoad || o.isStore) && !o.unOnly && !o.kind.isWait) then .wait
    else .ok

/-- A release of the group: all it has issued comes before it (05 R131). -/
def State.relCheck (s : State) (g scope : Nat) : Rel := s.relUpTo g scope fun _ => true

/-- A store or atomic that follows a `fence.rel` acts as that release (05 R135): it issues when what comes before the fence is
performed, and takes PEER_DEAD where an acknowledgement will never come (05 R148). -/
def Ctx.fenced (x : Ctx) (k : Res) : Res :=
  match x.G.fence with
  | none => k
  | some n => match x.s.relUpTo x.g 4 (· < n) with
    | .ok => k
    | .wait => .stall x.s .acks true
    | .dead s p => .trap s 0x33 0 0 p
    | .refused s ch => .trap s 0x30 0 0 ch

/-- Perform a release before the rest of a word: the word waits with fetch suspended until it is performed. -/
def Ctx.released (x : Ctx) (scope : Nat) (k : Res) : Res :=
  match x.s.relCheck x.g scope with
  | .ok => k
  | .wait => .stall x.s .acks true
  | .dead s p => .trap s 0x33 0 0 p
  | .refused s ch => .trap s 0x30 0 0 ch

/-- A release that also waits for accesses to UN pages (05 R135, 07 R194, 18 R394). -/
def Ctx.releasedAll (x : Ctx) (scope : Nat) (k : Res) : Res :=
  if x.G.outst.any fun o => (o.isLoad || o.isStore) && !o.kind.isWait then .stall x.s .acks true else x.released scope k

/-- A group-wide word that is not performed has no effect beyond its issue (07 R179). -/
def groupWide (i : Instr) (c : Ctl) (s : State) (k : Ctx → Res) : Outcome State Fault Refusal :=
  word i c (fun x => if x.part.isEmpty then .go x.s else k x) s

/-! ## Words performed at issue -/

/-- An access performed at issue may go: no earlier acquire of the group is open (05 R132). Waiting words concern other lanes
only. -/
def Group.clear (G : Group) : Bool := !(G.outst.any fun o => !o.kind.isWait && o.acq != 0)

/-! ## Events -/

/-- An event whose condition does not hold changes nothing (log 3). -/
def event (s : State) (r : Option State) : Outcome State Fault Refusal := .next (r.getD s)

/-- A group issues now: neither it nor its team is stopped, and the pages that its team pinned are resident (20 R437). -/
def State.runs (s : State) (g : Nat) : Bool :=
  (s.group g).stage == .running && (s.team (s.group g).team).life == .running && (s.team (s.group g).team).pins.isEmpty

/-- An event that concerns the waiting word `id` of a running group. -/
def onWait (s : State) (g id : Nat) (k : OWord → Option State) : Outcome State Fault Refusal :=
  event s (if s.runs g then (s.word? g id).bind k else none)

/-- The word's entry, holding the whole fragment. -/
def Ctx.holding (x : Ctx) (dests : List RegName) (kind : OKind) : OWord := { x.oword dests kind with held := x.frag }

end Sys2Proof.Machine
end

