-- ==== Sys2Proof/Machine/Buffer.lean ====
section
/-! DEFINITION. Buffer.lean: buffer records (02 R56-R59), the checks before an access (10 R246-R250) and the record
instructions (10 R251-R253). -/

namespace Sys2Proof.Machine

open Host (Outcome)

/-! ## Records (02 R56) -/

def recKind (r : Nat) : Nat := bitsOf r 252 4
def recSwiz (r : Nat) : Nat := bitsOf r 248 4
def recStrict (r : Nat) : Bool := bitAt r 247
def recMw (r : Nat) : Nat := bitsOf r 240 4
def recMoff (r : Nat) : Nat := bitsOf r 192 40
def recRowb (r : Nat) : Nat := bitsOf r 168 24
def recPstride (r : Nat) : Nat := bitsOf r 128 40
def recStride (r : Nat) : Nat := bitsOf r 104 24
def recExtent (r : Nat) : Nat := bitsOf r 64 40
def recBase (r : Nat) : Nat := bitsOf r 0 56

/-- RESERVED_FIELD of 02 R59, or a KIND outside the list; a null record is accepted wherever KIND 1 is. -/
def recBad (r : Nat) (kinds : List Nat) : Bool :=
  let k := recKind r
  let sw := recSwiz r
  let al := if sw == 3 then 256 else 128
  !(kinds.contains k || (k == 0 && kinds.contains 1)) ||
  bitsOf r 244 3 != 0 || bitsOf r 232 8 != 0 || bitsOf r 56 8 != 0 ||
  3 < sw || (sw != 0 && (k != 2 || recStride r % al != 0 || recRowb r % al != 0)) ||
  (k == 2 && (recRowb r == 0 || recStride r < recRowb r)) ||
  (k == 3 && (recMw r < 2 || 8 < recMw r))

/-- Offsets `o … o + n - 1` are all in bounds (02 R57). -/
def recIn (r : Nat) (o : Int) (n : Nat) : Bool := recKind r != 0 && 0 ≤ o && o + n ≤ recExtent r

/-- swz of 02 R58. -/
def swz (sw c y : Nat) : Nat :=
  if sw == 1 then c ^^^ (y % 8 * 16) else if sw == 2 then c ^^^ (y % 4 * 32) else if sw == 3 then c ^^^ (y % 16 * 16) else c

/-- The address of an offset in a KIND 1 or 2 record (02 R57). -/
def recAddr (r o : Nat) : Nat :=
  if recKind r == 2 then
    recBase r + o / recRowb r * recStride r + swz (recSwiz r) (o % recRowb r) (o / recRowb r)
  else recBase r + o

/-- Addresses of a KIND 3 record: the exponent byte of a block, and the byte of plane `j` that holds element `e`. -/
def expAddr (r blk : Nat) : Nat := recBase r + blk
def planeAddr (r j e : Nat) : Nat := recBase r + recMoff r + j * recPstride r + e / 8

/-! ## Global bytes of engine commands (05 R121) -/

/-- Bytes of an element of a float format code. -/
def fmtBytes (code : Nat) : Nat := 4 / fmtElems code

/-- The global bytes that a command reads or writes; none where they are not known before it runs. A gather may touch any byte of its
record (DESIGN CHOICE, log 23). -/
def Cmd.globals (c : Cmd) : Option (List Nat) :=
  let r := c.brec.toNat
  let flat := fun (o : Int) (n : Nat) => (List.range n).filterMap fun (i : Nat) =>
    if recIn r (o + (i : Int)) 1 then some (recAddr r (o + (i : Int)).toNat) else none
  let planes := fun (x k : Nat) => (List.range (128 * x)).flatMap fun (i : Nat) =>
    let e := c.off + (i : Int)
    if recIn r e 1 then expAddr r (e.toNat / 32) :: (List.range (min k (recMw r))).map fun j => planeAddr r j e.toNat else []
  match c.op with
  | .pcopy x k | .pstore x k => some (if recKind r == 3 then planes x k else flat c.off x)
  | .pcopyRf x k => some (planes x k)
  | .pxform x rt _ p dir _ =>
    if rt == 0 || 4 < rt then none
    else if dir == 2 then some []
    else if rt == 2 then some (flat 0 (recExtent r))
    else some (flat c.off (if rt == 1 then x * fmtBytes (bitsOf p (if dir == 0 then 0 else 4) 4) else if rt == 3 then 4 * x * 2 ^ p else 512 * x))
  | .pfill .. | .qmark .. | .qfence .. => some []

/-- Some part of a command lies, or may lie, on an SO page. -/
def State.cmdSo (s : State) (tid : Nat) (c : Cmd) : Bool :=
  match c.globals with
  | none => true
  | some as => as.any fun va => match s.leafAt c.core (s.team tid).ten va with | .ok l => leafKind l.1 == .so | .error _ => false

/-- A command that group `g` issued before its word `n` has SO parts and is not complete. -/
def State.soCmds (s : State) (tid g n : Nat) : Bool :=
  (s.team tid).queues.any fun q => q.pending.any fun c => c.g == g && c.seq < n && s.cmdSo tid c

/-! ## Operand forms -/

/-- Access size of a size code (10 R247). -/
def sizeOf' (sz : Nat) : Nat := if sz < 2 then 1 else if sz < 4 then 2 else if sz == 4 then 4 else if sz == 5 then 8 else 16

/-- The offsets of the participating lanes (10 R246). -/
def Ctx.offsets (x : Ctx) (mod : BitVec 2) (a : BitVec 7) (imm : Int) (s : Nat) : List (Nat × Int) :=
  x.part.map fun l => (l,
    if mod.toNat == 0 then (x.v a l).toNat + imm
    else if mod.toNat == 1 then (x.sreg a).toInt + imm + l * s
    else (x.sreg a).toInt + imm)

/-- The first entry of a list that a check refuses. -/
def firstBad {α : Type} (l : List α) (bad : α → Option (Nat × Nat × Nat)) : Option (Nat × Nat × Nat) := l.findSome? bad

/-- ADDR_NONCANON and ADDR_WRAP (10 R248) of bytes `a … z`. -/
def rangeFault (lane a z : Nat) : Option (Nat × Nat × Nat) :=
  if 2 ^ 56 ≤ a then some (0x11, lane, a) else if 2 ^ 56 ≤ z then some (0x12, lane, a) else none

/-- Steps 1 to 4 of 10 R249 on a KIND 1 or 2 record: the fault (code, lane, address), or the lanes in bounds with their
addresses and the dropped lanes. -/
def checkLanes (r : Nat) (offs : List (Nat × Int)) (s : Nat) : Except (Nat × Nat × Nat) (List (Nat × Nat) × List Nat) :=
  if recBad r [1, 2] then .error (0x02, (offs.map (·.1)).headD 0, 0)
  else
    let live := offs.filter fun p => recIn r p.2 s
    let dropped := (offs.filter fun p => !(recIn r p.2 s)).map (·.1)
    if recStrict r && !dropped.isEmpty then .error (0x10, dropped.headD 0, 0)
    else
      let pts := live.map fun p => (p.1, p.2.toNat, recAddr r p.2.toNat)
      match firstBad pts fun p => rangeFault p.1 p.2.2 (recAddr r (p.2.1 + s - 1)) with
      | some e => .error e
      | none =>
        let rows := fun o => recKind r == 2 && o / recRowb r != (o + s - 1) / recRowb r
        match firstBad pts fun p => if p.2.2 % s != 0 || rows p.2.1 then some (0x13, p.1, p.2.2) else none with
        | some e => .error e
        | none => .ok (pts.map fun p => (p.1, p.2.2), dropped)

/-- Steps 5 and 6 (10 R249, R250): every line is translated before anything is performed; the fetch stays suspended. An
access to an SO page waits until the group's earlier SO accesses, those of its engine commands among them, have completed (05 R120,
R121). -/
def Ctx.access (x : Ctx) (how : How) (reqs : List (Nat × Nat)) (k : List XLine → Res) : Res :=
  match x.s.xlateAll x.g x.G x.ten x.pc how reqs with
  | .fault s c lane va info => .trap s c lane va info
  | .wait s w => .stall s w true
  | .ok ls =>
    if (ls.any fun l => l.kind == .so) && ((x.G.outst.any fun o => o.so) || x.s.soCmds x.tid x.g x.G.seq) then .stall x.s .other true else k ls

/-- Accesses of one size at translated addresses. -/
def mkAccs (reqs : List (Nat × Nat)) (ls : List XLine) (size : Nat) (data : Nat → List Byte) : List Acc :=
  (reqs.zip ls).map fun (r, l) => { l.acc r.1 r.2 size with data := data r.1 }

/-! ## brec, brecx, bchk (10 R251-R253) -/

/-- Lowest bit and width of a field code (10 R252); none for NULL and the reserved codes. -/
def recField (code : Nat) : Option (Nat × Nat) :=
  [(252, 4), (248, 4), (247, 1), (240, 4), (192, 40), (168, 24), (128, 40), (104, 24), (64, 40), (0, 56)][code]?

/-- The new record of the set forms, or the fault code. -/
def setField (r code v : Nat) : Except Nat Nat :=
  if code == 10 then (if v == 0 then .ok 0 else .error 0x02)
  else match recField code with
    | none => .error 0x02
    | some (lo, w) =>
      if 2 ^ w ≤ v then .error (if code == 9 then 0x11 else 0x02)
      else .ok (r - bitsOf r lo w * 2 ^ lo + v * 2 ^ lo)

def Ctx.setRec (x : Ctx) (d : Nat) (a : BitVec 7) (code v : Nat) : Res :=
  match setField (x.breg a).toNat code v with
  | .error c => .trap x.s c 0 0 0
  | .ok r => .go (x.s.modGroup x.g fun G => G.putVar [.b d (BitVec.ofNat 256 r)])

def execBrecSet (c : Ctl) (f : F64) (s : State) : Outcome State Fault Refusal :=
  groupWide (.brecSet c f) c s fun x => x.setRec f.d.toNat f.a f.c.toNat (x.sreg f.b).toNat

def execBrecx (c : Ctl) (f : W128) (s : State) : Outcome State Fault Refusal :=
  groupWide (.brecx c f) c s fun x => x.setRec f.d.toNat f.a f.c.toNat (f.x.toNat + 2 ^ 32 * f.y.toNat)

def execBrecGet (c : Ctl) (f : F64) (s : State) : Outcome State Fault Refusal :=
  groupWide (.brecGet c f) c s fun x =>
    match recField f.c.toNat with
    | none => .trap x.s 0x02 0 0 0
    | some (lo, w) => .go (x.s.modGroup x.g fun G =>
        G.putVar [.s f.d.toNat (BitVec.ofNat 64 (bitsOf (x.breg f.a).toNat lo w))])

/-- The predicate tells whether the lane's offsets are in bounds; only step 1 can fault. -/
def execBchk (c : Ctl) (f : F64) (s : State) : Outcome State Fault Refusal :=
  word (.bchk c f) c (fun x =>
    let r := (x.breg f.b).toNat
    let n := sizeOf' (fld f.b 4 3)
    if x.part.isEmpty then .go x.s
    else if recBad r [1, 2, 3] then .trap x.s 0x02 (x.part.headD 0) 0 0
    else .go (x.s.modGroup x.g fun G =>
      G.putVar ((x.offsets f.mod f.a f.c.toInt n).map fun p => .p f.d.toNat p.1 (recIn r p.2 n)))) s

end Sys2Proof.Machine
end

