-- ==== Sys2Proof/Machine/Memory.lean ====
section
/-! DEFINITION. Memory.lean: `ld`, `st`, `ldpl`, `ldrf`, `stpl`, `pref`, the fences, and the events by which loads land
and stores are acknowledged (10 R254-R260, R266, R267; 04 R98-R102; 05 R120-R137; log 4, 5). -/

namespace Sys2Proof.Machine

open Host (Outcome)

/-! ## The accesses of a word (05 R121) -/

def isPeer (a : Acc) : Bool := match a.own with | .peer _ => true | _ => false

/-- The bytes of an access, as a range of keys. -/
def Acc.span (a : Acc) : Nat × Nat := (byteKey a.own a.pa, a.size)

/-- The accesses of an assembled line. -/
def AsmReq.accs (r : AsmReq) (refine : Bool) : List Acc := (if refine then [] else [r.exp]) ++ r.pieces

/-- The units in which a word performs what it has still to do: an access of a lane, or the chunks of an assembled line. -/
def OKind.units : OKind → List (List Acc)
  | .load as .. => as.map fun a => [a]
  | .store as => as.map fun a => [a]
  | .fwdAtom as .. => as.map fun a => [a]
  | .fwdJoin a _ => [[a]]
  | .plane rs j => rs.map fun r => r.accs j.refine
  | _ => []

def OWord.accs (o : OWord) : List Acc := o.kind.units.flatten
def OWord.spans (o : OWord) : List (Nat × Nat) := o.accs.map Acc.span

def spansMeet (a b : List (Nat × Nat)) : Bool := a.any fun x => b.any fun y => overlaps x.1 x.2 y.1 y.2

/-- Every access lies on a UN page (05 R128); some access lies on an SO page. -/
def unAll (as : List Acc) : Bool := !as.isEmpty && as.all fun a => a.kind == .un
def soAny (as : List Acc) : Bool := as.any fun a => a.kind == .so

/-- The ordering kind of a unit. -/
def unitKind (as : List Acc) : Kind := if soAny as then .so else if unAll as then .un else .rc

/-- Units of which none touches bytes of an earlier one. -/
def firstUnits (us : List (List Acc)) : List (List Acc) :=
  (us.foldl (fun (r : List (List Acc) × List (List Acc)) u =>
    (if r.2.any fun v => spansMeet (v.map Acc.span) (u.map Acc.span) then r.1 else r.1 ++ [u], r.2 ++ [u])) ([], [])).1

/-- The units of kind `k` that a word performs together. Units on SO pages go in lane order, those of peers one by one (05 R127);
atomics that hit one location of a peer go one after another (05 R123). -/
def batchOf (k : Kind) (op : OKind) : List (List Acc) :=
  let mine := op.units.filter fun u => unitKind u == k
  if k != .so then (match op with | .fwdAtom .. => firstUnits mine | _ => mine)
  else match mine with
    | [] => []
    | u :: _ => if u.any isPeer then [u] else mine.takeWhile fun v => !(v.any isPeer)

/-- Words of the group issued before `o`. -/
def Group.before (G : Group) (o : OWord) : List OWord := G.outst.takeWhile fun x => x.id != o.id

/-- Accesses of kind `k` of a word wait: an earlier access of the group touches the same bytes (05 R124); or, unless they lie on
UN pages, an earlier acquire is open (05 R128, R132). -/
def Group.heldBack (G : Group) (o : OWord) (k : Kind) (as : List Acc) : Bool :=
  (G.before o).any fun e => !e.kind.isWait && (spansMeet e.spans (as.map Acc.span) || (k != .un && e.acq != 0))

/-- An access performed at issue touches bytes of an access still open. -/
def Group.touches (G : Group) (as : List Acc) : Bool := G.outst.any fun e => spansMeet e.spans (as.map Acc.span)

/-! ## Forwarding to peers (05 R137, 20 R425) -/

/-- A record of something sent that a peer must acknowledge. -/
def State.mkSent (s : State) (kind : SentKind) (team g word peer bytes : Nat) : Sent :=
  { id := s.nextId, kind := kind, peer := peer, team := team, g := g, word := word, entry := 0, at_ := s.clock,
    va := 0
    timeout := s.clock + s.srcto.toNat * Config.cyclesPerUs, bytes := bytes, chan := 0, refused := false, lost := s.isDead peer, got := none }

/-- Payload that an access takes to its owner (14 R347). -/
def payloadOf : RemoteOp → Nat
  | .write bs => bs.length
  | .writeMasked ms _ => (ms.filter (· != 0#8)).length
  | .atom .. => 16
  | _ => 0

/-- Forward an access of a tenancy, within one line, to the peer that owns its page: the number under which its answer comes, and the
state; `va` is its virtual address. What leaves after the peer has died is lost (14 R345). -/
def State.forwardTo (s : State) (kind : SentKind) (ten team g word peer pa va bytes : Nat) (cnt : Bool) (op : RemoteOp) : Nat × State :=
  let q := { s.mkSent kind team g word peer bytes with entry := pa, va := va }
  let s1 : State := { s with sent := s.sent ++ [q], nextId := s.nextId + 1, peers := (s.queueTo peer (payloadOf op)).peers }
  (q.id, if q.lost then s1 else s1.emit (.forward peer (s.ten ten).secure ten pa cnt op q.id))

/-- What is known of `n` bytes at `pa` of a peer that requester `who` has asked for. -/
inductive Asked where
  | unasked | pending | dead
  | got (bs : List Byte)

def State.asked (s : State) (kind : SentKind) (who peer pa n : Nat) : Asked :=
  match s.sent.find? fun q => q.kind == kind && q.g == who && q.peer == peer && q.entry == pa && q.bytes == n with
  | none => .unasked
  | some q => if q.lost then .dead else match q.got with | some bs => .got bs | none => .pending

/-- Answers that a requester has used, or no longer waits for, are forgotten. -/
def State.forget (s : State) (kind : SentKind) (who : Nat) : State :=
  { s with sent := s.sent.filter fun q => !(q.kind == kind && q.g == who) }

/-- Stores that a requester has forwarded are not all acknowledged; one of them never will be. -/
def State.storesOpen (s : State) (kind : SentKind) (who : Nat) : Bool := s.sent.any fun q => q.kind == kind && q.g == who && !q.lost
def State.storesLost (s : State) (kind : SentKind) (who : Nat) : Bool := s.sent.any fun q => q.kind == kind && q.g == who && q.lost

/-- Ask the owner for the line that holds `pa`; and what is known of `n` bytes inside it. Lines are asked for whole (05 R137). -/
def State.askLine (s : State) (kind : SentKind) (ten team who word peer pa va : Nat) (cnt : Bool) : State :=
  (s.forwardTo kind ten team who word peer (pa / 128 * 128) va 128 cnt (.read 128)).2
def State.askedLine (s : State) (kind : SentKind) (who peer pa n : Nat) : Asked :=
  match s.asked kind who peer (pa / 128 * 128) 128 with
  | .got bs => .got ((bs.drop (pa % 128)).take n)
  | a => a

/-- Masks and bytes of a whole line that stores write, each from an offset of it; a later one replaces the bits of an earlier one
(05 R123). -/
def lineBytes (ws : List (Nat × List Byte × List Byte)) : List Byte × List Byte :=
  ws.foldl (fun (l : List Byte × List Byte) w =>
    let ms := if w.2.1.isEmpty then w.2.2.map (fun _ => 0xFF#8) else w.2.1
    let under := fun (x : List Byte) => (x.drop w.1).take ms.length
    (putAt l.1 w.1 ((under l.1).zipWith (· ||| ·) ms), putAt l.2 w.1 (maskInto (under l.2) ms w.2.2)))
    (List.replicate 128 0#8, List.replicate 128 0#8)

/-- What one message asks of the owner for accesses to one line: a whole line to read, or the bits of it to write; an atomic, or a
`joinc`, at its own address (05 R137, 20 R425). -/
def OKind.remoteOp (k : OKind) (as : List Acc) : RemoteOp :=
  match k, as with
  | .fwdAtom _ op ty .., a :: _ => .atom op ty (BitVec.ofNat 64 (leNat (a.data.take 8))) (BitVec.ofNat 64 (leNat (a.data.drop 8)))
  | .fwdJoin .., _ => .join
  | .store _, as =>
    let l := lineBytes (as.map fun a => (a.pa % 128, a.mask, a.data))
    .writeMasked l.1 l.2
  | _, _ => .read 128

/-- Two accesses of a word leave in one message: those of one line. -/
def OKind.together (k : OKind) (a b : Acc) : Bool :=
  match k with
  | .load .. | .plane .. | .store .. => lineKey a.own a.pa == lineKey b.own b.pa
  | _ => a == b

/-- The accesses of each message. -/
def OKind.messages (k : OKind) (as : List Acc) : List (List Acc) :=
  as.foldl (fun (ms : List (List Acc)) a =>
    if ms.any fun m => m.any (k.together a) then ms.map fun m => if m.any (k.together a) then m ++ [a] else m else ms ++ [[a]]) []

/-- Where a message's bytes begin at the owner: its line, or the location of an atomic or `joinc`. -/
def OKind.messagePa (k : OKind) (a : Acc) : Nat :=
  match k with
  | .load .. | .plane .. | .store .. => a.pa / 128 * 128
  | _ => a.pa

/-- Accesses changed one by one; the units of a word keep their shape. -/
def OKind.mapAcc (f : Acc → Acc) : OKind → OKind
  | .load as sz d fresh known => .load (as.map f) sz d fresh known
  | .store as => .store (as.map f)
  | .fwdAtom as op ty ret d known => .fwdAtom (as.map f) op ty ret d known
  | .fwdJoin a d => .fwdJoin (f a) d
  | .plane rs j => .plane (rs.map fun r => { r with exp := f r.exp, pieces := r.pieces.map f }) j
  | k => k

/-- The accesses of a word that may leave for their peers now and have not. -/
def Group.toSend (G : Group) (o : OWord) : List Acc :=
  [Kind.so, .rc, .un].flatMap fun k =>
    let b := (batchOf k o.kind).flatten
    if G.heldBack o k b then [] else b.filter fun a => isPeer a && a.fwd.isNone

/-- Forward what a word of group `g` may forward now, a message for each line; `G` holds the words issued before it. -/
def State.sendWord (s : State) (g : Nat) (G : Group) (o : OWord) : OWord × State :=
  (o.kind.messages (G.toSend o)).foldl (fun (r : OWord × State) m =>
    let a := m.headD ⟨0, 0, 0, 0, .here, .rc, false, false, [], [], 0, none⟩
    match a.own with
    | .peer p =>
      let f := r.2.forwardTo (if o.isStore then .fwdStore else .fwdLoad) (s.team G.team).ten G.team g o.id p (o.kind.messagePa a) a.va 128 a.cnt
        (o.kind.remoteOp m)
      ({ r.1 with kind := r.1.kind.mapAcc fun b => if m.contains b then { b with fwd := some f.1 } else b }, f.2)
    | _ => r) (o, s)

/-- Accesses of groups of a core that are outstanding. -/
def State.openRequests (s : State) (core : Nat) : Nat :=
  s.groups.foldl (fun n G => if G.core == core then n + (G.outst.map fun o => o.accs.length).sum else n) 0

/-- The core has room for these requests (00 R4). -/
def Ctx.fits (x : Ctx) (as : List Acc) : Bool := x.s.openRequests x.G.core + as.length ≤ Config.maxRequests

/-- A word that accesses memory issues: what nothing holds back leaves for its peers. It waits while its core has as many requests
outstanding as it can have. -/
def Ctx.outWord (x : Ctx) (o : OWord) : Res :=
  if !(x.fits o.accs) then .stall x.s .other true
  else
    let r := x.s.sendWord x.g x.G o
    .out r.2 r.1

/-- Words whose accesses were held back forward them when they may. -/
def State.sendHeld (s : State) (g : Nat) : State :=
  (s.group g).outst.foldl (fun (s : State) (o : OWord) =>
    if ((s.group g).toSend o).isEmpty then s
    else
      let r := s.sendWord g (s.group g) o
      r.2.modGroup g fun G => { G with outst := G.outst.map fun y => if y.id == o.id then r.1 else y }) s

/-- Lines of peers among accesses, in order; `outside` brings their 128 bytes each. -/
def peerKeys (as : List Acc) : List Nat :=
  as.foldl (fun ks a => match a.own with
    | .peer _ => let k := lineKey a.own a.pa; if ks.contains k then ks else ks ++ [k]
    | _ => ks) []
def outsideLine (keys : List Nat) (outside : List Byte) (a : Acc) : List Byte :=
  (outside.drop (128 * keys.idxOf (lineKey a.own a.pa))).take 128

/-! ## ld and st (10 R254-R256) -/

/-- The lane values a load writes for its bytes (10 R247). -/
def loadVals (sz : Nat) (bs : List Byte) : List Lane32 :=
  if sz == 0 then [(bs.headD 0#8).signExtend 32]
  else if sz == 1 then [(bs.headD 0#8).setWidth 32]
  else if sz == 2 then [(BitVec.ofNat 16 (leNat bs)).signExtend 32]
  else if sz == 3 then [BitVec.ofNat 32 (leNat bs)]
  else (List.range (dataRegs sz)).map fun i => BitVec.ofNat 32 (leNat ((bs.drop (4 * i)).take 4))

def regWrites (d lane : Nat) (vs : List Lane32) : List RegWrite := vs.zipIdx.map fun v => .v (d + v.2) lane v.1

/-- Zeros for dropped lanes and the tag RAW of each register of the set (10 R249, R255). -/
def Ctx.known (x : Ctx) (d n : Nat) (dropped : List Nat) : List RegWrite :=
  (List.range n).flatMap fun i => plainTag (d + i) 0 x.frag ++ dropped.map fun l => .v (d + i) l 0#32

/-- The bytes a store takes from its data set (10 R247). -/
def Ctx.storeBytes (x : Ctx) (d : BitVec 7) (s lane : Nat) : List Byte :=
  ((List.range 4).flatMap fun i => leBytes 4 (x.vn (d.toNat + i) lane).toNat).take s

def execLd (c : Ctl) (f : M96) (s : State) : Outcome State Fault Refusal :=
  word (.ld c f) c (fun x =>
    let sz := fld f.c 4 3
    let n := sizeOf' sz
    let scope := fld f.b 4 3
    if x.part.isEmpty then .go x.s
    else match checkLanes (x.breg f.b).toNat (x.offsets f.mod f.a f.imm.toInt n) n with
      | .error (code, lane, va) => .trap x.s code lane va 0
      | .ok (live, dropped) => x.access .load live fun ls =>
        let as := mkAccs live ls n fun _ => []
        let o := x.oword ((vset f.d (dataRegs sz))) (.load as sz f.d.toNat (fld f.c 3 1 == 1) (x.known f.d.toNat (dataRegs sz) dropped))
        x.outWord { o with acq := if unAll as then 0 else scope, isLoad := true, unOnly := unAll as, so := soAny as }) s

/-- A release first waits for the group's earlier accesses (05 R131), a store or atomic after a `fence.rel` for those before the fence
(05 R135); on UN pages alone neither orders anything (05 R128). -/
def Ctx.relThen (x : Ctx) (scope : Nat) (un : Bool) (k : Res) : Res :=
  if un then k else if scope == 0 then x.fenced k else x.released scope k

/-- The store as an outstanding word. -/
def Ctx.storeOut (x : Ctx) (as : List Acc) : Res :=
  x.outWord { x.oword [] (.store as) with isStore := true, unOnly := unAll as, so := soAny as }

def execSt (c : Ctl) (f : M96) (s : State) : Outcome State Fault Refusal :=
  word (.st c f) c (fun x =>
    let n := sizeOf' (fld f.c 4 3)
    if x.part.isEmpty then .go x.s
    else match checkLanes (x.breg f.b).toNat (x.offsets f.mod f.a f.imm.toInt n) n with
      | .error (code, lane, va) => .trap x.s code lane va 0
      | .ok (live, _) => x.access .store live fun ls =>
        let as := mkAccs live ls n (x.storeBytes f.d n)
        x.relThen (fld f.b 4 3) (unAll as) (x.storeOut as)) s

/-! ## Late uncorrectable data (21 R497) -/

/-- The late fault of a word: it writes nothing and is never issued again, what it has asked of peers is forgotten, and its group stops
at once, between two issues. -/
def State.lateFault (s : State) (g : Nat) (o : OWord) (lane va : Nat) : State :=
  let s : State := { s with sent := s.sent.filter fun q => !(q.kind == .fwdLoad && q.g == g && q.word == o.id && !q.lost) }
  (s.takeBackFor g o []).groupFault g ⟨0x60, 0, lane, 0, o.pc, va, true, [], o.next, false, 0⟩

def firstPoison (s : State) (as : List Acc) : Option Acc :=
  as.find? fun a => match a.own with | .here => s.poisoned a.pa | _ => false

/-! ## Plane loads at landing (04 R99-R101) -/

/-- Bytes of an access at its home or in what a peer sent; `cls` is the depth class (04 R104). -/
def State.fetchAcc (s : State) (keys : List Nat) (outside : List Byte) (cls : Nat) (a : Acc) : List Byte × State :=
  match a.own with
  | .here => (s.homeRead .here a.pa a.size, s.touch a.pa cls false)
  | .host => (s.homeRead .host a.pa a.size, s)
  | .peer _ => (((outsideLine keys outside a).drop (a.pa % 128)).take a.size, s)

/-- The 16-byte piece of plane `j` merged into the 128 element bytes of an assembled line. -/
def mergePlane (bytes : List Byte) (j : Nat) (piece : List Byte) : List Byte :=
  bytes.zipIdx.map fun b => setBit b.1 (7 - j) ((piece.getD (b.2 / 8) 0#8).getLsbD (b.2 % 8))

def AsmReq.cached (r : AsmReq) : Bool :=
  r.p0.isSome && (r.exp :: r.pieces).all fun a => cacheable a.own a.kind a.ros

/-- Fetch planes `p … k - 1` from home and merge them. -/
def State.fetchPlanes (s : State) (keys : List Nat) (outside : List Byte) (r : AsmReq) (p k : Nat) (bytes : List Byte) : List Byte × State :=
  (r.pieces.filter fun a => p ≤ a.lane && a.lane < k).foldl (fun (b : List Byte × State) (a : Acc) =>
    let got := b.2.fetchAcc keys outside (a.lane + 1) a
    (mergePlane b.1 a.lane got.1, got.2)) (bytes, s)

def Acc.key (a : Acc) : Nat := byteKey a.own a.pa

def asmSame (r : AsmReq) (l : AsmLine) : Bool :=
  l.exp == r.exp.key && some l.p0 == r.p0 && l.pstride == r.pstride && l.mw == r.mw

/-- A chunk's line is dropped by acquires (05 R132). -/
def Acc.dropped (a : Acc) : Bool := a.kind == .rc && !a.ros

/-- The content of a present line that a `.fresh` read replaces where some chunk it reads is not held in an L1 (04 R101): of planes
`p … k - 1`, and the exponents, those that may stand there. -/
def AsmLine.renew (l : AsmLine) (r : AsmReq) (p k : Nat) (bytes : List Byte) (exps : Option (List Byte)) : AsmLine :=
  let keeps := fun (a : Acc) => cacheable a.own a.kind a.ros
  let js := (List.range (min k l.planes)).filter fun j => p ≤ j && r.pieces.any fun a => a.lane == j && keeps a
  { l with bytes := (l.bytes.zip bytes).map fun b => js.foldl (fun x j => setBit x (7 - j) (b.2.getLsbD (7 - j))) b.1
           exps := match exps with | some e => if keeps r.exp then e else l.exps | none => l.exps }

/-- An assembled line with at least `k` planes, by 04 R99 and R101: its element bytes and exponents. -/
def State.asmGet (s : State) (core : Nat) (keys : List Nat) (outside : List Byte) (r : AsmReq) (k : Nat) (fresh : Bool) :
    (List Byte × List Byte) × State :=
  let old := (s.core core).asm.find? (asmSame r)
  match old with
  | some l =>
    if r.cached && !fresh && (k ≤ l.pln || l.pln == 8) then ((cutPlanes k l.bytes, l.exps), s)
    else
      let p := if r.cached && !fresh then l.pln else 0
      let (exps, s) := if r.cached && !fresh then (l.exps, s) else s.fetchAcc keys outside 0 r.exp
      let (bytes, s) := s.fetchPlanes keys outside r p k (if r.cached then l.bytes else List.replicate 128 0#8)
      let new : AsmLine := { l with bytes := bytes, exps := exps, pln := if k == r.mw then 8 else max k l.pln,
                                    rc := l.rc || r.pieces.any Acc.dropped, pieces := r.pieces.map Acc.key ++ l.pieces }
      ((cutPlanes k bytes, exps),
        if r.cached then s.modCore core fun c => ({ c with asm := new :: c.asm.filter fun x => !asmSame r x } : Core).l1Trim
        else if fresh then s.modCore core fun c => { c with asm := c.asm.map fun x => if asmSame r x then x.renew r 0 k bytes (some exps) else x }
        else s)
  | none =>
    let (exps, s) := s.fetchAcc keys outside 0 r.exp
    let (bytes, s) := s.fetchPlanes keys outside r 0 k (List.replicate 128 0#8)
    let new : AsmLine := { exp := r.exp.key, p0 := r.p0.getD 0, pstride := r.pstride, mw := r.mw,
                           rc := (r.exp :: r.pieces).any Acc.dropped, bytes := bytes, exps := exps, pln := if k == r.mw then 8 else k,
                           pieces := r.pieces.map Acc.key }
    ((cutPlanes k bytes, exps),
      if r.cached then s.modCore core fun c => ({ c with asm := new :: c.asm } : Core).l1Trim else s)

/-- A refine's planes `p … k - 1`, fetched at L2; a present line with at least `p` planes takes those above its own
(04 R100), or all of them under `.fresh` (R101). -/
def State.asmRefine (s : State) (core : Nat) (keys : List Nat) (outside : List Byte) (r : AsmReq) (p k : Nat) (fresh : Bool) :
    List Byte × State :=
  let (bytes, s) := s.fetchPlanes keys outside r p k (List.replicate 128 0#8)
  let upd := fun (l : AsmLine) =>
    if !(asmSame r l && p ≤ l.pln) then l
    else if r.pieces.all fun a => cacheable a.own a.kind a.ros then
      let lo := if fresh then p else l.pln
      { l with
        bytes := (l.bytes.zip bytes).map fun b =>
          (List.range 8).foldl (fun x j => if lo ≤ j && j < k then setBit x (7 - j) (b.2.getLsbD (7 - j)) else x) b.1
        rc := l.rc || r.pieces.any Acc.dropped
        pln := if k == r.mw then 8 else max k l.pln
        pieces := r.pieces.map Acc.key ++ l.pieces }
    else if fresh then l.renew r p k bytes none
    else l
  (bytes, s.modCore core fun c => ({ c with asm := c.asm.map upd } : Core).l1Trim)

/-- The register writes of the lanes `part` of a plane load or refine whose lines have been read: `got a` is line `a` (10 R258,
R259). -/
def PlaneJob.writes (j : PlaneJob) (part : List Nat) (got : Nat → List Byte × List Byte) : List RegWrite :=
  let inb := fun (e : Int) => decide (0 ≤ e) && decide (e < j.extent)
  let byte := fun (l i : Nat) =>
    let e := j.o + 4 * l + i
    let had := bitsOf (j.old.getD l 0#32).toNat (8 * i) 8
    let new := if inb e then ((got (e.toNat / 128)).1.getD (e.toNat % 128) 0#8).toNat else 0
    if !j.refine then new
    else if inb e then
      let m := (2 ^ (8 - j.p) - 1) / 2 ^ (8 - j.kk) * 2 ^ (8 - j.kk)
      (had &&& (255 - m)) ||| (new &&& m)
    else had
  let lanes := part.map fun l => RegWrite.v j.d l (BitVec.ofNat 32 ((List.range 4).foldl (fun n i => n + byte l i * 2 ^ (8 * i)) 0))
  let exps := if j.refine then [] else (blocksOf part).map fun (b : Nat) =>
    let e := j.o + 32 * b
    RegWrite.exp j.d b (if inb e then (got (e.toNat / 128)).2.getD (e.toNat / 32 % 4) 0#8 else 0#8)
  .fld j.d j.field :: lanes ++ exps

/-- The assembled line that holds a lane's elements. -/
def PlaneJob.lineOf (j : PlaneJob) (l : Nat) : Int := (j.o + 4 * l) / 128

/-! ## ldpl, ldrf, stpl (10 R257-R260) -/

/-- Insert by address. -/
def insVa (a : Nat × Nat × Nat) : List (Nat × Nat × Nat) → List (Nat × Nat × Nat)
  | [] => [a]
  | b :: bs => if a.2.1 < b.2.1 then a :: b :: bs else b :: insVa a bs

/-- Steps 1 to 4 for a plane access: `need lane` are the (address, size) pairs of a lane. The pairs come back once each,
with the lowest lane that needs them, in lane and address order. -/
def Ctx.planeCheck (x : Ctx) (r : Nat) (o : Int) (need : Nat → List (Nat × Nat)) :
    Except (Nat × Nat × Nat) (List (Nat × Nat × Nat)) :=
  if recBad r [3] then .error (0x02, x.part.headD 0, 0)
  else
    let out := fun (l : Nat) => (List.range 4).any fun (j : Nat) => !(recIn r (o + 4 * l + j) 1)
    match (if recStrict r then x.part.find? out else none) with
    | some l => .error (0x10, l, 0)
    | none =>
      let all := x.part.flatMap fun l => ((need l).map fun p => (l, p.1, p.2)).foldl (fun acc a => insVa a acc) []
      let once := all.foldl (fun (acc : List (Nat × Nat × Nat)) a => if acc.any fun b => b.2 == a.2 then acc else acc ++ [a]) []
      match firstBad once fun a => rangeFault a.1 a.2.1 (a.2.1 + a.2.2 - 1) with
      | some e => .error e
      | none =>
        if o % 32 != 0 || recBase r % 128 != 0 || recMoff r % 128 != 0 || recPstride r % 128 != 0 then
          .error (0x13, x.part.headD 0, (once.map fun a => a.2.1).headD 0)
        else .ok once

/-- Assembled lines that hold the in-bound elements of a lane, and the in-bound exponent of its block. -/
def laneLines (r : Nat) (o : Int) (lane : Nat) : List Nat :=
  let es := ((List.range 4).map fun (j : Nat) => o + 4 * lane + j) ++ [o + 32 * (lane / 8 : Nat)]
  (es.filter fun e => recIn r e 1).foldl (fun (ls : List Nat) e => if ls.contains (e.toNat / 128) then ls else ls ++ [e.toNat / 128]) []

/-- The line requests of a plane load of planes `p … kk - 1`, from the translated chunks. -/
def asmReqs (r : Nat) (p kk : Nat) (withExp : Bool) (x : Ctx) (lines : List Nat) (tr : List ((Nat × Nat × Nat) × XLine)) : List AsmReq :=
  let acc := fun (j va size : Nat) => match tr.find? fun t => t.1.2.1 == va with
    | some t => t.2.acc j va size
    | none => (⟨0, .here, .rc, false, false⟩ : XLine).acc j va size
  let quiet := fun va => match x.s.xlate x.G.core x.ten x.G.levelS x.g va .load false with | .ok l => some l | _ => none
  lines.map fun a =>
    let e := acc 0 (expAddr r (4 * a)) 4
    { a := a
      exp := if withExp then e else match quiet (expAddr r (4 * a)) with | some l => l.acc 0 (expAddr r (4 * a)) 4 | none => e
      pieces := (List.range kk).filterMap fun j => if p ≤ j then some (acc j (planeAddr r j (128 * a)) 16) else none
      pstride := recPstride r
      mw := recMw r
      p0 := (quiet (planeAddr r 0 (128 * a))).map fun l => byteKey l.own l.pa }

def Ctx.planeLoad (x : Ctx) (f : M96) (refine : Bool) : Res :=
  let r := (x.breg f.b).toNat
  let o := (x.sreg f.a).toInt + f.imm.toInt
  let kk := min (fld f.c 0 4) (recMw r)
  let t := x.tag f.d
  let refine := refine && t.fmt == 6
  let p := if refine then t.pln else 0
  let scope := fld f.b 4 3
  if x.part.isEmpty then .go x.s
  else
    let nothing := refine && (p == 8 || kk ≤ p)
    let need := fun l => if nothing then [] else (laneLines r o l).flatMap fun a =>
      (if refine then [] else [(expAddr r (4 * a), 4)]) ++
        (List.range kk).filterMap fun j => if p ≤ j then some (planeAddr r j (128 * a), 16) else none
    match x.planeCheck r o need with
    | .error (code, lane, va) => .trap x.s code lane va 0
    | .ok reqs =>
      if nothing then .go x.s
      else x.access .load (reqs.map fun q => (q.1, q.2.1)) fun ls =>
        let lines := x.part.foldl (fun (acc : List Nat) l => acc ++ (laneLines r o l).filter fun a => !(acc.contains a)) []
        let rs := asmReqs r p kk (!refine) x lines (reqs.zip ls)
        let as := rs.flatMap fun q => (if refine then [] else [q.exp]) ++ q.pieces
        let pln := if kk == recMw r then 8 else kk
        let field := fieldWord 6 pln (pln < 8 && fld f.c 4 1 == 1)
        let job : PlaneJob := { d := f.d.toNat, o := o, extent := recExtent r, kk := kk, p := p, field := field, fresh := fld f.c 5 1 == 1,
                                refine := refine, part := x.part, old := (List.range x.G.gw).map (x.v f.d), known := [] }
        let w := x.oword [.v f.d.toNat] (.plane rs job)
        x.outWord { w with acq := if unAll as then 0 else scope, isLoad := true, unOnly := unAll as, so := soAny as }

def execLdpl (c : Ctl) (f : M96) (s : State) : Outcome State Fault Refusal := word (.ldpl c f) c (fun x => x.planeLoad f false) s
def execLdrf (c : Ctl) (f : M96) (s : State) : Outcome State Fault Refusal := word (.ldrf c f) c (fun x => x.planeLoad f true) s

/-- The writes of `stpl` in block `b` of the register: the exponent byte, then a masked 4-byte chunk of each plane (10 R260):
depth class, address, masks, bytes. -/
def Ctx.stplBytes (x : Ctx) (r : Nat) (o : Int) (kk : Nat) (d : BitVec 7) (b : Nat) : List (Nat × Nat × List Byte × List Byte) :=
  let f := (o + 32 * b).toNat
  let bit := fun (j e : Nat) =>
    let l := 8 * b + e / 4
    if x.part.contains l && recIn r ((f + e : Nat) : Int) 1 then some ((x.v d l).getLsbD (8 * (e % 4) + 7 - j)) else none
  let byte := fun (j q : Nat) => (List.range 8).foldl (fun (mv : Nat × Nat) i => match bit j (8 * q + i) with
    | some v => (mv.1 + 2 ^ i, mv.2 + v.toNat * 2 ^ i)
    | none => mv) (0, 0)
  (0, expAddr r (f / 32), [], [(x.tag d).exp b]) ::
    (List.range kk).map fun j =>
      let mv := (List.range 4).map (byte j)
      (j + 1, planeAddr r j f, mv.map fun p => BitVec.ofNat 8 p.1, mv.map fun p => BitVec.ofNat 8 p.2)

def execStpl (c : Ctl) (f : M96) (s : State) : Outcome State Fault Refusal :=
  word (.stpl c f) c (fun x =>
    let r := (x.breg f.b).toNat
    let o := (x.sreg f.a).toInt + f.imm.toInt
    let kk := min (fld f.c 0 4) (recMw r)
    let live := fun (b : Nat) => recIn r (o + 32 * b) 1
    let need := fun (l : Nat) => if !(live (l / 8)) then [] else
      let e := (o + 32 * (l / 8 : Nat)).toNat
      (expAddr r (e / 32), 1) :: (List.range kk).map fun j => (planeAddr r j e, 4)
    if x.part.isEmpty then .go x.s
    else match x.planeCheck r o need with
      | .error (code, lane, va) => .trap x.s code lane va 0
      | .ok reqs => x.access .store (reqs.map fun q => (q.1, q.2.1)) fun ls =>
        let tr := reqs.zip ls
        let as := ((blocksOf x.part).filter live).flatMap fun b => (x.stplBytes r o kk f.d b).filterMap fun w =>
          match tr.find? fun t => t.1.2.1 == w.2.1 && t.1.2.2 == w.2.2.2.length with
          | some t => if !w.2.2.1.isEmpty && w.2.2.1.all (· == 0#8) then none
            else some { t.2.acc t.1.1 w.2.1 t.1.2.2 with data := w.2.2.2, mask := w.2.2.1, depth := w.1 }
          | none => none
        x.relThen (fld f.b 4 3) (unAll as) (x.storeOut as)) s

/-! ## LOAD_DATA_LAND, STORE_ACK, MEM_UNCORRECTABLE_LATE -/

/-- The batch of accesses that a word performs next: nothing earlier holds it back, and what lies on pages of peers has left
for them. A word without accesses has one empty batch. -/
def Group.nextBatch (G : Group) (o : OWord) : Option (List Acc) :=
  if o.kind.units.isEmpty then (if G.heldBack o .rc [] then none else some [])
  else [Kind.so, .rc, .un].findSome? fun k =>
    let b := (batchOf k o.kind).flatten
    if b.isEmpty || G.heldBack o k b || b.any (fun a => isPeer a && a.fwd.isNone) then none else some b

/-- A forwarded access has been answered, or its answer will never come. -/
def State.answered (s : State) (a : Acc) : Bool :=
  match a.fwd with
  | some id => !(s.sent.any fun p => p.id == id && !p.lost)
  | none => !isPeer a

/-- The answer to a forwarded access will never come. -/
def State.lostAcc (s : State) (a : Acc) : Bool :=
  match a.fwd with
  | some id => s.sent.any fun p => p.id == id && p.lost
  | none => false

/-- The new value of one read-modify-write (10 R265): `op` and `t` are the fields OP and T. -/
def atomNew (op t old x b : Nat) : Nat :=
  let w := if 2 ≤ t then 64 else 32
  let rd := fun n => if t % 2 == 1 then ((n % 2 ^ w : Nat) : Int) else asSigned w n
  if op == 0 then (old + x) % 2 ^ w
  else if op == 1 then (if rd x < rd old then x else old)
  else if op == 2 then (if rd old < rd x then x else old)
  else if op == 3 then old &&& x
  else if op == 4 then old ||| x
  else if op == 5 then old ^^^ x
  else if op == 6 then x
  else if op == 7 then (if old == b then x else old)
  else if rd old + rd x ≤ rd b then (old + x) % 2 ^ w else old

/-- One atomic at the home slice (04 R116): the old value and the state. -/
def State.atomHome (s : State) (core : Option Nat) (own : Owner) (pa n : Nat) (new : Nat → Nat) : Nat × State :=
  let old := leNat (s.homeRead own pa n)
  let s : State := match own with | .here => s.touch pa 0 true | _ => s
  let s := s.homeWrite own pa (leBytes n (new old))
  (old, match core with | some c => s.l1Atomic c own pa n | none => s)

/-- The old value as it is written to vD. -/
def oldWrites (d lane : Nat) (wide : Bool) (old : Nat) : List RegWrite :=
  regWrites d lane (if wide then [BitVec.ofNat 32 old, BitVec.ofNat 32 (old / 2 ^ 32)] else [BitVec.ofNat 32 old])

/-- One atomic of a word that issued with its operands in `data`: its writes, and the state. -/
def State.atomAcc (s : State) (core op ty : Nat) (ret : Bool) (d : Nat) (a : Acc) : List RegWrite × State :=
  let r := s.atomHome (some core) a.own a.pa a.size fun old => atomNew op ty old (leNat (a.data.take 8)) (leNat (a.data.drop 8))
  (if ret then oldWrites d a.lane (2 ≤ ty) r.1 else [], r.2)

/-- The home slice performs a store of core `core`, whose L1 copies follow (05 R124, 04 R102). -/
def State.storeAcc (s : State) (core : Nat) (a : Acc) : State :=
  match a.own with
  | .peer _ => s
  | own =>
    let bs := maskInto (s.homeRead own a.pa a.size) a.mask a.data
    let s : State := match own with | .here => s.touch a.pa a.depth true | _ => s
    (s.homeWrite own a.pa bs).l1Store core own a.pa bs

/-- Perform the accesses `b` of a word; `outside` is what peers answer: the 128 bytes of each of their lines for a load, 8 bytes
for each of their accesses of an atomic. The answer is the rest of the word, which holds the register writes so far, and the
writes of a word that has no rest. -/
def State.performBatch (s : State) (g : Nat) (o : OWord) (b : List Acc) (outside : List Byte) : OKind × List RegWrite × State :=
  let G := s.group g
  let keys := peerKeys b
  match o.kind with
  | .load as sz d fresh known =>
    let r := b.foldl (fun (r : List RegWrite × State) (a : Acc) =>
      let got := r.2.l1Read G.core a fresh (outsideLine keys outside a)
      (r.1 ++ regWrites d a.lane (loadVals sz got.1), got.2)) (known, s)
    (.load (as.filter fun a => !(b.contains a)) sz d fresh r.1, r)
  | .plane rs j =>
    let now := rs.filter fun r => (r.accs j.refine).all b.contains
    let rest := rs.filter fun r => !((r.accs j.refine).all b.contains)
    let res := now.foldl (fun (r : List (Nat × List Byte × List Byte) × State) (q : AsmReq) =>
      if j.refine then
        let got := r.2.asmRefine G.core keys outside q j.p j.kk j.fresh
        ((q.a, got.1, []) :: r.1, got.2)
      else
        let got := r.2.asmGet G.core keys outside q j.kk j.fresh
        ((q.a, got.1.1, got.1.2) :: r.1, got.2)) ([], s)
    let later := fun l => rest.any fun q => j.lineOf l == (q.a : Int)
    let ws := j.known ++ j.writes (j.part.filter fun l => !later l) fun a => (res.1.lookup a).getD ([], [])
    (.plane rest { j with part := j.part.filter later, known := ws }, ws, res.2)
  | .fwdAtom as op ty ret d known =>
    let peers := b.filter isPeer
    let r := b.foldl (fun (r : List RegWrite × State) (a : Acc) =>
      if isPeer a then
        (if ret then r.1 ++ oldWrites d a.lane (2 ≤ ty) (leNat ((outside.drop (8 * peers.idxOf a)).take 8)) else r.1, r.2)
      else
        let got := r.2.atomAcc G.core op ty ret d a
        (r.1 ++ got.1, got.2)) (known, s)
    (.fwdAtom (as.filter fun a => !(b.contains a)) op ty ret d r.1, r)
  | .fwdJoin _ d =>
    -- the owner returns the old COUNT and, in bytes 15:8, CRADDR
    let old := leNat (outside.take 4)
    (.land [], [.s d (BitVec.ofNat 64 old)],
      if old == 1 && outside.length == 16 then s.joinEnqueue (s.team G.team).ten (leNat ((outside.drop 8).take 8)) G.team (some g) else s)
  | .store as => (.store (as.filter fun a => !(b.contains a)), [], b.foldl (fun s a => s.storeAcc G.core a) s)
  | .land ws => (.land [], ws, s)
  | .owed ws => (.owed [], ws, s)
  | k => (k, [], s)

/-- A batch of a word has been performed. The word completes when it has no rest (06 R166); a rest on UN pages alone takes no part
in an acquire, which is then over (05 R121, R128). -/
def State.afterBatch (s : State) (g : Nat) (o : OWord) (rest : OKind) (ws : List RegWrite) : State :=
  let as := rest.units.flatten
  if as.isEmpty then s.complete g o ws
  else
    let un := unAll as
    let s := if un then s.l1Acquire (s.group g).core o.acq else s
    s.modGroup g fun G => { G with outst := G.outst.map fun y =>
      if y.id == o.id then { y with kind := rest, acq := if un then 0 else y.acq, unOnly := un, so := soAny as } else y }

/-- A word whose data LOAD_DATA_LAND delivers. -/
def OKind.lands : OKind → Bool
  | .load .. | .plane .. | .land .. | .owed .. | .fwdAtom .. | .fwdJoin .. => true
  | _ => false

/-- Accesses of a batch whose data may turn out uncorrectable: what is read. An atomic looks at all it has still to perform, so that it
changes no location where one old value is uncorrectable (21 R497). -/
def OKind.reads (k : OKind) (b : List Acc) : List Acc :=
  match k with
  | .load .. | .plane .. => b
  | .fwdAtom as .. => as
  | _ => []

/-- The lane of an access (21 R445): of a plane access the lowest lane whose elements lie in its line. -/
def OKind.laneOf (k : OKind) (a : Acc) : Nat :=
  match k with
  | .plane rs j =>
    ((rs.find? fun r => r.exp == a || r.pieces.contains a).bind fun r => j.part.find? fun l => j.lineOf l == (r.a : Int)).getD 0
  | _ => a.lane

/-- What peers answer, as LOAD_DATA_LAND brings it: for each access of an atomic 8 bytes, for a `joinc` COUNT and CRADDR, else 128 bytes
a line. What a dead peer would have answered is free (log 12), and no record is known to be due. -/
def State.fillLost (s : State) (k : OKind) (b : List Acc) (outside : List Byte) : List Byte × State :=
  let peers := b.filter isPeer
  let (n, items) := match k with
    | .fwdAtom .. => (8, peers.map fun a => [a])
    | .fwdJoin .. => (16, peers.map fun a => [a])
    | _ => (128, (peerKeys b).map fun key => peers.filter fun a => lineKey a.own a.pa == key)
  items.zipIdx.foldl (fun (r : List Byte × State) i =>
    if i.1.any s.lostAcc then
      let f := r.2.freeBytes (min n (if n == 16 then 8 else n))
      (r.1 ++ f.1, f.2)
    else (r.1 ++ (outside.drop (n * i.2)).take n, r.2)) ([], s)

/-- The next batch of a word lands; uncorrectable data is the late fault of 21 R497. -/
def State.landBatch (s : State) (g : Nat) (o : OWord) (b : List Acc) (outside : List Byte) : State :=
  match firstPoison s (o.kind.reads b) with
  | some a => s.lateFault g o (o.kind.laneOf a) a.va
  | none =>
    let (outside, s) := if b.any s.lostAcc then s.fillLost o.kind b outside else (outside, s)
    let r := s.performBatch g o b outside
    let ids := b.filterMap (·.fwd)
    ({ r.2.2 with sent := r.2.2.sent.filter fun p => !(ids.contains p.id && !p.lost) } : State).afterBatch g o r.1 r.2.1

/-- Some access of a batch waits for its stack (22 R458, R459). -/
def State.batchWaits (s : State) (b : List Acc) : Bool := b.any fun a => a.own == .here && s.hbmWaits a.pa

def execLoadDataLand (g word : Nat) (outside : List Byte) (s : State) : Outcome State Fault Refusal :=
  event s ((s.word? g word).bind fun o => ((s.group g).nextBatch o).bind fun b => match o.kind with
    | .bad lane va => some (s.lateFault g o lane va)
    | k => if k.lands && !(s.batchWaits b) then some (s.landBatch g o b outside) else none)

def execStoreAck (g word : Nat) (s : State) : Outcome State Fault Refusal :=
  event s ((s.word? g word).bind fun o => match o.kind with
    | .store _ => ((s.group g).nextBatch o).bind fun b =>
      if b.all s.answered && !(s.batchWaits b) then
        let r := s.performBatch g o b []
        some (r.2.2.afterBatch g o r.1 r.2.1)
      else none
    | _ => none)

/-- Uncorrectable data is detected in what returns for a word (21 R453, R497): in a line of this device, or in what a peer or the host
answers. -/
def execMemUncorrectableLate (g word : Nat) (va : Word) (s : State) : Outcome State Fault Refusal :=
  event s ((s.word? g word).bind fun o => match o.kind with
    | .bad lane va => some (s.lateFault g o lane va)
    | .load .. | .plane .. | .fwdAtom .. | .fwdJoin .. =>
      (o.accs.find? fun a => a.va ≤ va.toNat && va.toNat < a.va + a.size && (a.own != .here || s.poisoned a.pa)).map fun a =>
        s.lateFault g o (o.kind.laneOf a) va.toNat
    | .cget .. | .catom .. => some (s.lateFault g o 0 va.toNat)
    | _ => none)

/-! ## Prefetch (10 R267) -/

/-- The translated line of a lane that passes every check and lies in this device's own memory. -/
def Ctx.prefLine (x : Ctx) (s : State) (va : Nat) : Option XLine :=
  if 2 ^ 56 ≤ va then none
  else match s.xlate x.G.core x.ten x.G.levelS x.g va .prefetch false with
    | .ok l => if l.own == .here && l.kind != .so && !(s.poisoned l.pa) then some l else none
    | _ => none

/-- The walks of the lines that miss in the TLBs are raised (20 R418); none where one finds no place. -/
def Ctx.prefWalks (x : Ctx) (vas : List Nat) : Option State :=
  vas.foldl (fun (o : Option State) va => o.bind fun s =>
    if 2 ^ 56 ≤ va || (s.tlbLook x.G.core x.ten va).isSome then some s else s.pendWalk x.G.core x.ten x.g x.pc va) (some x.s)

/-- KIND 1 and 2: the 128-byte line that holds the offset. -/
def Ctx.prefLinear (x : Ctx) (l2 : Bool) (s : State) (va : Nat) : State :=
  match x.prefLine s va with
  | none => s
  | some l =>
    if l2 then s.touch l.pa 0 false
    else (s.l1Read x.G.core (l.acc 0 va 1) false []).2

/-- Addresses of the lines that an element's prefetch touches. -/
def prefVas (r k e : Nat) : List Nat :=
  let kk := if k == 0 then recMw r else min k (recMw r)
  expAddr r (4 * (e / 128)) :: (List.range kk).map fun j => planeAddr r j (128 * (e / 128))

/-- KIND 3: the assembled line of an element, or its raw lines. At both levels k = 0 means MW, and k above MW means MW (the second,
and the first at `.l2`, DESIGN CHOICE, log 38). -/
def Ctx.prefPlane (x : Ctx) (l2 : Bool) (r k : Nat) (s : State) (e : Nat) : State :=
  let kk := if k == 0 then recMw r else min k (recMw r)
  let a := e / 128
  let vas := prefVas r k e
  let ls := vas.map (x.prefLine s)
  if ls.any (·.isNone) then s
  else
    let got := ls.filterMap id
    if l2 then got.zipIdx.foldl (fun (s : State) (p : XLine × Nat) => s.touch p.1.pa p.2 false) s
    else
      let mk := fun (p : XLine × Nat) (size : Nat) => p.1.acc (p.2 - 1) (vas.getD p.2 0) size
      match got.zipIdx with
      | [] => s
      | e0 :: ps =>
        let req : AsmReq := { a := a, exp := { mk e0 4 with lane := 0 }, pieces := ps.map fun p => mk p 16,
                              pstride := recPstride r, mw := recMw r, p0 := (got[1]?).map fun l => byteKey l.own l.pa }
        (s.asmGet x.G.core [] [] req kk false).2

/-- The access of a lane is one byte, or one element, at its offset (DESIGN CHOICE, log 38: the form has no size). A line that misses
in the TLBs raises its walk, and is prefetched all the same (log 28). -/
def execPref (c : Ctl) (f : M96) (s : State) : Outcome State Fault Refusal :=
  word (.pref c f) c (fun x =>
    let r := (x.breg f.b).toNat
    let l2 := fld f.c 6 1 == 1
    let offs := (x.offsets f.mod f.a f.imm.toInt 1).filter fun p => recIn r p.2 1
    let aligned := recBase r % 128 == 0 && recMoff r % 128 == 0 && recPstride r % 128 == 0
    if recBad r [1, 2, 3] then .go x.s
    else if recKind r == 3 && !aligned then .go x.s
    else match x.prefWalks (offs.flatMap fun p => if recKind r == 3 then prefVas r (fld f.c 0 4) p.2.toNat else [recAddr r p.2.toNat]) with
      | none => .stall x.s .walkSlot true
      | some s =>
        if recKind r == 3 then .go (offs.foldl (fun s p => x.prefPlane l2 r (fld f.c 0 4) s p.2.toNat) s)
        else .go (offs.foldl (fun s p => x.prefLinear l2 s (recAddr r p.2.toNat)) s)) s

/-! ## Fences (05 R135, 10 R266) -/

/-- Every load and atomic of the group is performed. -/
def Group.loadsDone (G : Group) : Bool := !(G.outst.any fun o => o.isLoad && !o.unOnly && !o.kind.isWait)

def execFenceAr (c : Ctl) (f : F64) (s : State) : Outcome State Fault Refusal :=
  groupWide (.fenceAr c f) c s fun x => x.released f.c.toNat (.go (x.s.l1Acquire x.G.core f.c.toNat))

def execFenceAcq (c : Ctl) (f : F64) (s : State) : Outcome State Fault Refusal :=
  groupWide (.fenceAcq c f) c s fun x =>
    if x.G.loadsDone then .go (x.s.l1Acquire x.G.core f.c.toNat) else .stall x.s .other true

/-- The fence releases the group at once (06 R166): later loads do not wait, and a later store or atomic waits for what the fence names
(05 R135). At `.dom` and `.sys` it waits itself for the group's packets (14 R339). -/
def execFenceRel (c : Ctl) (f : F64) (s : State) : Outcome State Fault Refusal :=
  groupWide (.fenceRel c f) c s fun x =>
    match x.s.relCheck x.g f.c.toNat with
    | .wait =>
      if x.s.sent.any fun p => p.g == x.g && 5 ≤ f.c.toNat && p.kind.packet then .stall x.s .acks true
      else .go (x.s.modGroup x.g fun G => { G with fence := some x.G.seq })
    | _ => x.released f.c.toNat (.go (x.s.modGroup x.g fun G => { G with fence := none }))

def execFenceSysAll (c : Ctl) (f : F64) (s : State) : Outcome State Fault Refusal :=
  groupWide (.fenceSysAll c f) c s fun x =>
    x.releasedAll 6 (.go (x.s.l1All x.G.core))

end Sys2Proof.Machine
end

