-- ==== Sys2Proof/Machine/Atomic.lean ====
section
/-! DEFINITION. Atomic.lean: `atom` (10 R264, R265). Atomics are performed at issue at the home slice, in lane order. -/

namespace Sys2Proof.Machine

open Host (Outcome)

/-- Operations that go to a host page as PCIe AtomicOps. -/
def atomHostOk (op : Nat) : Bool := op == 0 || op == 6 || op == 7

def atomOp (f : M96) : Nat := bitsOf f.imm.toNat 16 4
def atomT (f : M96) : Nat := bitsOf f.imm.toNat 20 2
def atomSem (f : M96) : Nat := bitsOf f.imm.toNat 22 2
def atomRet (f : M96) : Bool := bitAt f.imm.toNat 24
def atomWide (f : M96) : Bool := bitAt f.imm.toNat 21
def atomImm (f : M96) : Int := asSigned 16 (bitsOf f.imm.toNat 0 16)

/-- An operand of an atomic in a lane: one register, or a pair. -/
def Ctx.atomArg (x : Ctx) (f : M96) (r : BitVec 7) (lane : Nat) : Nat :=
  if atomWide f then (x.pair r lane).toNat else (x.v r lane).toNat

/-- The access of a lane with its operands. -/
def Ctx.atomOperands (x : Ctx) (f : M96) (a : Acc) : Acc :=
  { a with data := leBytes 8 (x.atomArg f f.c a.lane) ++ leBytes 8 (x.atomArg f f.d a.lane) }

/-- Accesses that an atomic performs at issue: this device's, those on SO pages only up to the first of a peer (05 R127). -/
def atomNow (as : List Acc) : List Acc :=
  let so := (as.filter fun a => a.kind == .so).takeWhile fun a => !isPeer a
  as.filter fun a => !isPeer a && (a.kind != .so || so.contains a)

def execAtom (c : Ctl) (f : M96) (s : State) : Outcome State Fault Refusal :=
  word (.atom c f) c (fun x =>
    let n := if atomWide f then 8 else 4
    let nr := if atomWide f then 2 else 1
    let op := atomOp f
    let scope := fld f.b 4 3
    let ret := atomRet f
    if x.part.isEmpty then .go x.s
    else match checkLanes (x.breg f.b).toNat (x.offsets f.mod f.a (atomImm f) n) n with
      | .error (code, lane, va) => .trap x.s code lane va 0
      | .ok (live, dropped) => x.access (.atomic (atomHostOk op)) live fun ls =>
        let as := (mkAccs live ls n fun _ => []).map (x.atomOperands f)
        let un := unAll as
        let acq := if atomSem f % 2 == 1 && !un then scope else 0
        if (!un && !x.G.clear) || x.G.touches as || !x.fits as then .stall x.s .other true
        else x.relThen (if 2 ≤ atomSem f then scope else 0) un
          (match firstPoison x.s (as.filter fun a => !isPeer a) with
           | some a => .out x.s (x.oword (if ret then vset f.d nr else []) (.bad a.lane a.va))
           | none =>
             let now := atomNow as
             let later := as.filter fun a => !(now.contains a)
             let known := if ret then x.known f.d.toNat nr dropped else []
             let r := now.foldl (fun (r : List RegWrite × State) (a : Acc) =>
               let got := r.2.atomAcc x.G.core op (atomT f) ret f.d.toNat a
               (r.1 ++ got.1, got.2)) (known, x.s)
             if !later.isEmpty then
               let o := x.oword (if ret then vset f.d nr else []) (.fwdAtom later op (atomT f) ret f.d.toNat r.1)
               ({ x with s := r.2 } : Ctx).outWord { o with acq := acq, isLoad := true, unOnly := unAll later, so := soAny later }
             else if ret then .out r.2 { x.oword (vset f.d nr) (.land r.1) with acq := acq }
             else .go (r.2.l1Acquire x.G.core acq))) s

end Sys2Proof.Machine
end

