-- ==== Sys2Proof/Machine/Numeric.lean ====
section
/-! DEFINITION. Numeric.lean: exact arithmetic and rounding (03 R70-R86, 09 R223-R229). -/

namespace Sys2Proof

/-- What a floating-point encoding stands for: `fin neg m e` is ±m × 2^e, with m = 0 for the signed zeros. -/
inductive Num where
  | nan
  | inf (neg : Bool)
  | fin (neg : Bool) (m : Nat) (e : Int)
  deriving DecidableEq, Repr

/-- Rounding modes in the order of MOD (09 R224). -/
inductive Rm where
  | rne | rz | rdn | rup
  deriving DecidableEq, Repr

def rmOf (n : Nat) : Rm := if n == 0 then .rne else if n == 1 then .rz else if n == 2 then .rdn else .rup

/-- A format of 03 R70; its largest finite value is maxM × 2^maxE. -/
structure Fmt where
  bits : Nat
  p : Nat
  emin : Int
  ebits : Nat
  bias : Nat
  maxM : Nat
  maxE : Int
  nan : Nat
  hasInf : Bool
  deriving DecidableEq, Repr

def Fmt.f32 : Fmt := ⟨32, 24, -126, 8, 127, 0xFFFFFF, 104, 0x7FC00000, true⟩
def Fmt.f16 : Fmt := ⟨16, 11, -14, 5, 15, 0x7FF, 5, 0x7E00, true⟩
def Fmt.bf16 : Fmt := ⟨16, 8, -126, 8, 127, 0xFF, 120, 0x7FC0, true⟩
def Fmt.e4m3 : Fmt := ⟨8, 4, -6, 4, 7, 14, 5, 0x7F, false⟩
def Fmt.e5m2 : Fmt := ⟨8, 3, -14, 5, 15, 7, 13, 0x7E, true⟩

/-- The format of code 1 to 5 (02 R52). -/
def Fmt.ofCode (n : Nat) : Fmt :=
  if n == 2 then .f16 else if n == 3 then .bf16 else if n == 4 then .e4m3 else if n == 5 then .e5m2 else .f32

/-- Bits of F. -/
def Fmt.fbits (f : Fmt) : Nat := f.p - 1
def Fmt.signBit (f : Fmt) (neg : Bool) : Nat := neg.toNat * 2 ^ (f.bits - 1)

/-- The value of an encoding (03 R70, R71). -/
def Fmt.decode (f : Fmt) (w : Nat) : Num :=
  let neg := bitAt w (f.bits - 1)
  let e := bitsOf w f.fbits f.ebits
  let m := bitsOf w 0 f.fbits
  if e = 2 ^ f.ebits - 1 && (f.hasInf || m = 2 ^ f.fbits - 1) then
    if m = 0 && f.hasInf then .inf neg else .nan
  else if e = 0 then .fin neg m (f.emin - f.fbits)
  else .fin neg (2 ^ f.fbits + m) ((e : Int) - f.bias - f.fbits)

/-- ±m × 2^e divided by the quantum 2^qe and rounded to an integer (03 R73). `sticky` says that the exact value lies
strictly between m and m + 1; it is only used with qe above e. -/
def roundQ (rm : Rm) (neg : Bool) (m : Nat) (e : Int) (sticky : Bool) (qe : Int) : Nat :=
  if qe ≤ e then m * 2 ^ (e - qe).toNat
  else
    let sh := (qe - e).toNat
    let k := m / 2 ^ sh
    let fr := 2 * (m % 2 ^ sh)
    let some' := fr != 0 || sticky
    let up := match rm with
      | .rne => decide (2 ^ sh < fr) || (fr == 2 ^ sh && (sticky || k % 2 == 1))
      | .rz => false
      | .rdn => neg && some'
      | .rup => !neg && some'
    k + up.toNat

/-- The exponent of a non-zero magnitude: floor(log2(m × 2^e)). -/
def topExp (m : Nat) (e : Int) : Int := (Nat.log2 m : Int) + e

/-- round_fmt without the test against maxf: the rounded magnitude as (k, exponent of the quantum). -/
def Fmt.round (f : Fmt) (rm : Rm) (neg : Bool) (m : Nat) (e : Int) (sticky : Bool) : Nat × Int :=
  let qe := max (topExp m e) f.emin - f.p + 1
  (roundQ rm neg m e sticky qe, qe)

/-- k × 2^qe exceeds the largest finite value. -/
def Fmt.over (f : Fmt) (k : Nat) (qe : Int) : Bool :=
  let b := min qe f.maxE
  decide (f.maxM * 2 ^ (f.maxE - b).toNat < k * 2 ^ (qe - b).toNat)

/-- The encoding of a representable ±k × 2^qe. -/
def Fmt.encode (f : Fmt) (neg : Bool) (k : Nat) (qe : Int) : Nat :=
  f.signBit neg +
  if k = 0 then 0
  else
    let t := topExp k qe
    if t < f.emin then k * 2 ^ (qe - (f.emin - f.fbits)).toNat
    else (t + f.bias).toNat * 2 ^ f.fbits + (k * 2 ^ f.fbits / 2 ^ Nat.log2 k - 2 ^ f.fbits)

def Fmt.infinity (f : Fmt) (neg : Bool) : Nat := f.signBit neg + (2 ^ f.ebits - 1) * 2 ^ f.fbits
def Fmt.largest (f : Fmt) (neg : Bool) : Nat := f.encode neg f.maxM f.maxE

/-- ovf of 03 R73. -/
def Fmt.ovf (f : Fmt) (rm : Rm) (neg : Bool) : Nat :=
  match rm with
  | .rne => f.infinity neg
  | .rz => f.largest neg
  | .rup => if neg then f.largest neg else f.infinity neg
  | .rdn => if neg then f.infinity neg else f.largest neg

/-- The result of an arithmetic instruction (03 R73, R75). -/
def Fmt.result (f : Fmt) (rm : Rm) (x : Num) (sticky : Bool) : Nat :=
  match x with
  | .nan => f.nan
  | .inf neg => f.infinity neg
  | .fin neg m e =>
    if m = 0 then f.signBit neg
    else
      let r := f.round rm neg m e sticky
      if f.over r.1 r.2 then f.ovf rm neg else f.encode neg r.1 r.2

/-! ## Exact sums and products -/

def Num.neg : Num → Num
  | .nan => .nan
  | .inf s => .inf (!s)
  | .fin s m e => .fin (!s) m e

def signed (neg : Bool) (m : Nat) : Int := if neg then -(m : Int) else m

/-- The exact sum (03 R74, 09 R225). -/
def Num.add (rm : Rm) : Num → Num → Num
  | .nan, _ => .nan
  | _, .nan => .nan
  | .inf a, .inf b => if a == b then .inf a else .nan
  | .inf a, _ => .inf a
  | _, .inf b => .inf b
  | .fin s m e, .fin t n g =>
    let b := min e g
    let x := signed s m * 2 ^ (e - b).toNat + signed t n * 2 ^ (g - b).toNat
    if x = 0 then .fin (if s == t then s else rm == .rdn) 0 b
    else .fin (decide (x < 0)) x.natAbs b

/-- The exact product. -/
def Num.mul : Num → Num → Num
  | .nan, _ => .nan
  | _, .nan => .nan
  | .inf a, .inf b => .inf (a != b)
  | .inf a, .fin t n _ => if n = 0 then .nan else .inf (a != t)
  | .fin s m _, .inf b => if m = 0 then .nan else .inf (s != b)
  | .fin s m e, .fin t n g => .fin (s != t) (m * n) (e + g)

/-- A sign of the comparison of two numbers, none where one is a NaN; −0 and +0 compare equal (09 R227). -/
def Num.cmp : Num → Num → Option Int
  | .nan, _ => none
  | _, .nan => none
  | .inf a, .inf b => some (signed a 1 - signed b 1)
  | .inf a, _ => some (signed a 1)
  | _, .inf b => some (-signed b 1)
  | .fin s m e, .fin t n g =>
    let b := min e g
    some (signed s m * 2 ^ (e - b).toNat - signed t n * 2 ^ (g - b).toNat)

def Num.isNeg : Num → Bool
  | .nan => false
  | .inf s => s
  | .fin s _ _ => s

/-- The smaller (or larger) of two numbers with −0 below +0 (03 R77). -/
def Num.pick (larger : Bool) (a b : Num) : Num :=
  match a.cmp b with
  | none => if a == .nan then b else a
  | some d =>
    let aLess := decide (d < 0) || (d == 0 && a.isNeg && !b.isNeg)
    if aLess != larger then a else b

/-! ## Functions of 03 R78 -/

/-- The integer square root, found bit by bit from bit `n` down. -/
def isqrtBits (x : Nat) : Nat → Nat → Nat
  | 0, r => r
  | n + 1, r => let t := r + 2 ^ n; isqrtBits x n (if t * t ≤ x then t else r)
def isqrt (x : Nat) : Nat := isqrtBits x (Nat.log2 x / 2 + 1) 0

/-- Fraction bits of the fixed-point work (log 14). -/
def fxB : Nat := 256

/-- ln 2, scaled by 2^fxB and rounded down term by term. -/
def fxLn2 : Nat := (List.range 260).foldl (fun a k => a + 2 ^ fxB / ((k + 1) * 2 ^ (k + 1))) 0

/-- e^y for 0 ≤ y < 1, scaled. -/
def fxExp (y : Nat) : Nat :=
  ((List.range 70).foldl (fun (a : Nat × Nat) k => (a.1 + a.2, a.2 * y / 2 ^ fxB / (k + 1))) (0, 2 ^ fxB)).1

/-- ln x for 1 ≤ x < 2, scaled: 2 artanh((x − 1)/(x + 1)). -/
def fxLn (x : Nat) : Nat :=
  let z := (x - 2 ^ fxB) * 2 ^ fxB / (x + 2 ^ fxB)
  let zz := z * z / 2 ^ fxB
  2 * ((List.range 90).foldl (fun (a : Nat × Nat) k => (a.1 + a.2 / (2 * k + 1), a.2 * zz / 2 ^ fxB)) (0, z)).1

/-- The exact or sticky value of a function, ready for rounding. -/
def fnRcp : Num → Num × Bool
  | .nan => (.nan, false)
  | .inf s => (.fin s 0 0, false)
  | .fin s m e =>
    if m = 0 then (.inf s, false)
    else let k := Nat.log2 m + 40; (.fin s (2 ^ k / m) (-(k : Int) - e), 2 ^ k % m != 0)

def fnSqrt : Num → Num × Bool
  | .nan => (.nan, false)
  | .inf s => (if s then .nan else .inf false, false)
  | .fin s m e =>
    if m = 0 then (.fin s 0 0, false)
    else if s then (.nan, false)
    else
      let odd := e % 2 == 1
      let n := m * 2 ^ (60 + odd.toNat)
      let r := isqrt n
      (.fin false r ((e - 60 - odd.toNat) / 2), r * r != n)

def fnRsq : Num → Num × Bool
  | .nan => (.nan, false)
  | .inf s => (if s then .nan else .fin false 0 0, false)
  | .fin s m e =>
    if m = 0 then (.inf s, false)
    else if s then (.nan, false)
    else
      let odd := e % 2 == 1
      let k := 2 * (Nat.log2 m + 60) - odd.toNat
      let r := isqrt (2 ^ k / m)
      (.fin false r (-((k : Int) + e) / 2), r * r * m != 2 ^ k)

def fnExp2 : Num → Num × Bool
  | .nan => (.nan, false)
  | .inf s => (if s then .fin false 0 0 else .inf false, false)
  | .fin s m e =>
    if m = 0 then (.fin false 1 0, false)
    else if 8 ≤ topExp m e then (.fin false 1 (if s then -400 else 400), false)
    else
      let x := signed s m * 2 ^ (e + 160).toNat
      let n := x / 2 ^ 160
      let fr := (x % 2 ^ 160).toNat
      if fr = 0 then (.fin false 1 n, false)
      else (.fin false (fxExp (fr * 2 ^ (fxB - 160) * fxLn2 / 2 ^ fxB)) (n - fxB), true)

def fnLog2 : Num → Num × Bool
  | .nan => (.nan, false)
  | .inf s => (if s then .nan else .inf false, false)
  | .fin s m e =>
    if m = 0 then (.inf true, false)
    else if s then (.nan, false)
    else
      let t := topExp m e
      let x := m * 2 ^ (fxB - Nat.log2 m)
      if x = 2 ^ fxB then (.fin (decide (t < 0)) t.natAbs 0, false)
      else
        let y : Int := t * 2 ^ fxB + (fxLn x * 2 ^ fxB / fxLn2 : Nat)
        if y < 0 then (.fin true (-y - 1).toNat (-fxB), true) else (.fin false y.toNat (-fxB), true)

/-- 09 R229. -/
def fnRnd (rm : Rm) : Num → Num
  | .fin s m e => if m = 0 || 23 ≤ topExp m e then .fin s m e else .fin s (roundQ rm s m e false 0) 0
  | x => x

/-! ## Conversion policy (03 R81-R84) -/

def polNan (p : Nat) : Nat := bitsOf p 6 2
def polInf (p : Nat) : Nat := bitsOf p 4 2
def polOvf (p : Nat) : Nat := bitsOf p 2 2
def polUnf (p : Nat) : Nat := bitsOf p 0 2

/-- A conversion to a floating-point format under all four actions of the policy (03 R82); none where it says fault. -/
def Fmt.resolve (f : Fmt) (rm : Rm) (pol : Nat) (x : Num) : Option Nat :=
  match x with
  | .nan =>
    if polNan pol == 0 then some (f.largest false) else if polNan pol == 1 then some 0
    else if polNan pol == 2 then some f.nan else none
  | .inf s =>
    if polInf pol == 3 then none
    else if polInf pol == 1 then some (f.signBit s)
    else if polInf pol == 2 && f.hasInf then some (f.infinity s) else some (f.largest s)
  | .fin s m e =>
    if m = 0 then some (f.signBit s)
    else
      let r := f.round rm s m e false
      if f.over r.1 r.2 then
        if polOvf pol == 3 then none
        else if polOvf pol == 1 then some (f.signBit s)
        else if polOvf pol == 2 && f.hasInf then some (f.ovf rm s) else some (f.largest s)
      else if r.1 = 0 then
        if polUnf pol == 3 then none else if polUnf pol == 0 then some (f.signBit s + 1) else some (f.signBit s)
      else some (f.encode s r.1 r.2)

/-- A conversion from any format but binary32 itself: into binary32 only PNAN acts (03 R83). -/
def Fmt.convert (f : Fmt) (rm : Rm) (pol : Nat) (x : Num) : Option Nat :=
  match x with
  | .inf s => if f.bits == 32 then some (f.infinity s) else f.resolve rm pol x
  | _ => f.resolve rm pol x

/-- A conversion to an integer in `lo … hi` (09 R234). -/
def convertInt (lo hi : Int) (rm : Rm) (pol : Nat) (x : Num) : Option Int :=
  let out := fun (a : Nat) (s : Bool) => if a == 3 then none else if a == 1 then some 0 else some (if s then lo else hi)
  match x with
  | .nan => out (polNan pol) false
  | .inf s => out (polInf pol) s
  | .fin s m e =>
    let r := signed s (roundQ rm s m e false 0)
    if r < lo || hi < r then out (polOvf pol) s else some r

/-! ## Block floating point (03 R79-R85, 02 R55) -/

/-- A stored byte with PLN `p` and FILL applied, as a signed integer. -/
def bfpByte (p : Nat) (fill : Bool) (b : Nat) : Int :=
  let kept := b / 2 ^ (8 - min p 8) * 2 ^ (8 - min p 8)
  asSigned 8 (if fill && p < 8 then kept + 2 ^ (7 - p) else kept)

/-- The value of an element byte in a block with exponent `e` (02 R55). -/
def bfpValue (e : Nat) (b : Int) : Num :=
  if e = 255 then .nan else if e = 0 then .fin false 0 0 else .fin (decide (b < 0)) b.natAbs ((e : Int) - 134)

/-- q(x, E) of 03 R85 for a finite value and mantissa width `m`. -/
def bfpQ (m : Nat) (rm : Rm) (x : Num) (e : Int) : Int :=
  match x with
  | .fin s k g => signed s (roundQ rm s k g false (e - 126 - m))
  | _ => 0

/-- What the selection of 03 R85 gives for a block: exponent, integers in the order of the elements, under(E), and the
positions that select fault. -/
structure BfpBlock where
  exp : Nat
  ms : List Int
  under : Nat
  faults : List Nat
  deriving DecidableEq, Repr

/-- The conversion of a block's present elements. The pseudocode of R85 ends by making the exponent 0 where every `M[i]` is 0;
the overflow and underflow policies are the steps that remain after it, so the test looks at the integers before them. -/
def bfpConvert (m : Nat) (rm : Rm) (pol : Nat) (v : List Num) : BfpBlock :=
  let mx : Int := 2 ^ (m - 1) - 1
  let mn : Int := -(2 ^ (m - 1))
  let anyNan := v.any (· == .nan)
  let isInf := fun x : Num => match x with | .inf _ => true | _ => false
  let anyInf := v.any isInf
  let fin := v.filter fun x => match x with | .fin _ k _ => k != 0 | _ => false
  let early := v.zipIdx.filterMap fun (x, i) =>
    if (x == .nan && polNan pol == 3) || (isInf x && polInf pol == 3) then some i else none
  if (anyNan && polNan pol == 2) || (anyInf && polInf pol == 2) then ⟨255, v.map fun _ => 0, 0, early⟩
  else
    let q := bfpQ m rm
    let under := fun e => (fin.filter fun x => q x e == 0).length
    let sat := fun e => (fin.filter fun x => decide (mx < q x e) || decide (q x e < mn)).length
    let emax := fin.foldl (fun (a : Option Int) x => match x with
      | .fin _ k g => some (match a with | some b => max b (topExp k g) | none => topExp k g)
      | _ => a) none
    -- the exponent, and whether it is 254 by overflow
    let sel : Int × Bool := match emax with
      | none => (if (anyNan && polNan pol == 0) || (anyInf && polInf pol == 0) then 254 else 0, false)
      | some em =>
        let e0 := em + 128
        let e0 := if fin.any fun x => decide (mx < q x e0) then e0 + 1 else e0
        if 254 < e0 then (254, true)
        else if e0 ≤ 1 then (1, false)
        else if (under (e0 - 1) : Int) + 2 * sat (e0 - 1) < under e0 then (e0 - 1, false) else (e0, false)
    let e := sel.1
    let one := fun (x : Num) => match x with
      | .nan => (if polNan pol == 0 then mx else 0, false)
      | .inf s => (if polInf pol == 0 then (if s then mn else mx) else 0, false)
      | .fin s k _ =>
        let r := q x e
        if k = 0 then ((0 : Int), false)
        else if sel.2 && (decide (mx < r) || decide (r < mn)) then
          if polOvf pol == 1 then (0, false) else (clampTo mn mx r, polOvf pol == 3)
        else if r = 0 then (if polUnf pol == 0 then signed s 1 else 0, polUnf pol == 3)
        else (clampTo mn mx r, false)
    let raw := v.map fun x => match x with
      | .fin _ _ _ => q x e
      | _ => (one x).1
    let rs := v.map one
    let late := rs.zipIdx.filterMap fun (r, i) => if r.2 then some i else none
    ⟨if raw.all (· == 0) then 0 else e.toNat, rs.map (·.1), if emax.isNone then 0 else under e, early ++ late⟩

end Sys2Proof
end

