-- ==== Sys2Proof/Machine/Flags.lean ====
section
/-! DEFINITION. Flags.lean: what comparisons and classifications leave in a predicate or a mask. The device keeps no
arithmetic flags (03 R69, R76); its counter of underflows is UFC (03 R86). -/

namespace Sys2Proof.Machine

/-- Condition codes (07 R199, 08 R211): 0 eq, 1 ne, 2 lt, 3 le, 4 gt, 5 ge. -/
def condHolds (cc : Nat) (a b : Int) : Bool :=
  if cc == 0 then a == b else if cc == 1 then a != b else if cc == 2 then decide (a < b)
  else if cc == 3 then decide (a ≤ b) else if cc == 4 then decide (b < a) else decide (b ≤ a)

/-- Float conditions (09 R227): 0 to 5 as above with a NaN making all but `ne` false, 6 un, 7 ord. -/
def fcondHolds (cc : Nat) (a b : Num) : Bool :=
  match a.cmp b with
  | none => cc == 1 || cc == 6
  | some d => if cc == 6 then false else if cc == 7 then true else condHolds cc d 0

/-- The class of a binary32 encoding, as the bit number of 09 R228. -/
def fclassBit (w : Nat) : Nat :=
  match Fmt.f32.decode w with
  | .nan => 8
  | .inf s => if s then 0 else 7
  | .fin s m _ =>
    if m = 0 then (if s then 3 else 4)
    else if m < 2 ^ 23 then (if s then 2 else 5)
    else (if s then 1 else 6)

end Sys2Proof.Machine
end

