-- ==== Sys2Proof/Machine/Scalar.lean ====
section
/-! DEFINITION. Scalar.lean: the scalar instructions (07 R199-R202). Each computation is a function of the context, so
that a paired word can use it for its slot (06 R167). -/

namespace Sys2Proof.Machine

open Host (Outcome)

/-- The second scalar operand: sB, or imm7 sign-extended (07 R199). -/
def Ctx.sx (x : Ctx) (f : F64) (imm : Bool) : Word := if imm then f.c.signExtend 64 else x.sreg f.b
/-- The shift amount: sB, or imm7 unsigned. -/
def Ctx.shAmt (x : Ctx) (f : F64) : Nat := if f.mod.toNat == 1 then f.c.toNat else (x.sreg f.b).toNat

/-- A scalar result is written once when the word is performed (07 R179). -/
def sres (f : F64) (v : Ctx → Word) : Comp := fun x => .ok (if x.part.isEmpty then [] else [.s f.d.toNat (v x)])

/-- The i64 clamp of the `.sat` forms (07 R200). -/
def sat64 (x : Int) : Word := BitVec.ofInt 64 (clampTo (-(2 ^ 63)) (2 ^ 63 - 1) x)

def saddC (f : F64) : Comp := sres f fun x =>
  let y := x.sx f (f.mod.toNat % 2 == 1)
  if 2 ≤ f.mod.toNat then sat64 ((x.sreg f.a).toInt + y.toInt) else x.sreg f.a + y
def ssubC (f : F64) : Comp := sres f fun x =>
  let y := x.sx f (f.mod.toNat % 2 == 1)
  if 2 ≤ f.mod.toNat then sat64 ((x.sreg f.a).toInt - y.toInt) else x.sreg f.a - y
def smulC (f : F64) : Comp := sres f fun x => x.sreg f.a * x.sx f (f.mod.toNat == 1)
def smulhC (f : F64) : Comp := sres f fun x =>
  if f.mod.toNat == 0 then BitVec.ofInt 64 ((x.sreg f.a).toInt * (x.sreg f.b).toInt / 2 ^ 64)
  else BitVec.ofNat 64 ((x.sreg f.a).toNat * (x.sreg f.b).toNat / 2 ^ 64)
def sandC (f : F64) : Comp := sres f fun x => x.sreg f.a &&& x.sx f (f.mod.toNat == 1)
def sorC (f : F64) : Comp := sres f fun x => x.sreg f.a ||| x.sx f (f.mod.toNat == 1)
def sxorC (f : F64) : Comp := sres f fun x => x.sreg f.a ^^^ x.sx f (f.mod.toNat == 1)
/-- A shift by 64 or more gives 0, or 64 copies of bit 63 for `ssar` (07 R200). -/
def sshlC (f : F64) : Comp := sres f fun x => if 64 ≤ x.shAmt f then 0#64 else x.sreg f.a <<< x.shAmt f
def sshrC (f : F64) : Comp := sres f fun x => if 64 ≤ x.shAmt f then 0#64 else x.sreg f.a >>> x.shAmt f
def ssarC (f : F64) : Comp := sres f fun x => (x.sreg f.a).sshiftRight (min (x.shAmt f) 63)
def sminC (f : F64) : Comp := sres f fun x =>
  let y := x.sx f (2 ≤ f.mod.toNat)
  let less := if f.mod.toNat % 2 == 0 then decide ((x.sreg f.a).toInt < y.toInt) else decide ((x.sreg f.a).toNat < y.toNat)
  if less then x.sreg f.a else y
def smaxC (f : F64) : Comp := sres f fun x =>
  let y := x.sx f (2 ≤ f.mod.toNat)
  let less := if f.mod.toNat % 2 == 0 then decide ((x.sreg f.a).toInt < y.toInt) else decide ((x.sreg f.a).toNat < y.toNat)
  if less then y else x.sreg f.a

/-- Written in every active lane of the fragment, when performed. -/
def scmpC (f : F64) : Comp := fun x =>
  let r := if f.mod.toNat == 0 then condHolds f.c.toNat (x.sreg f.a).toInt (x.sreg f.b).toInt
    else condHolds f.c.toNat (x.sreg f.a).toNat (x.sreg f.b).toNat
  .ok (if x.part.isEmpty then [] else x.frag.map fun l => .p f.d.toNat l r)
/-- The predicate is that of the fragment's lowest active lane (07 R180). -/
def sselC (f : F64) : Comp := sres f fun x => if x.G.pred f.c.toNat (x.frag.headD 0) then x.sreg f.a else x.sreg f.b
def smovC (f : F64) : Comp := sres f fun x => if f.mod.toNat == 0 then x.sreg f.a else (x.v f.a f.c.toNat).setWidth 64
def sleaC (f : F64) : Comp := sres f fun x => x.sreg f.a + (x.sreg f.b <<< f.c.toNat)

def popCount {w : Nat} (v : BitVec w) : Nat := ((List.range w).filter fun i => v.getLsbD i).length
def leadZeros {w : Nat} (v : BitVec w) : Nat := ((List.range w).find? fun i => v.getLsbD (w - 1 - i)).getD w
def lowSet {w : Nat} (v : BitVec w) : Nat := ((List.range w).find? fun i => v.getLsbD i).getD w

def spopcC (f : F64) : Comp := sres f fun x => BitVec.ofNat 64 (popCount (x.sreg f.a))
def sclzC (f : F64) : Comp := sres f fun x => BitVec.ofNat 64 (leadZeros (x.sreg f.a))
def sffsC (f : F64) : Comp := sres f fun x => BitVec.ofNat 64 (lowSet (x.sreg f.a))

/-- The table of 07 R200. -/
def divide (signed : Bool) (a b : Word) : Word × Word :=
  if signed then
    if b = 0#64 then (-1#64, a)
    else (BitVec.ofInt 64 (a.toInt.tdiv b.toInt), BitVec.ofInt 64 (a.toInt.tmod b.toInt))
  else if b = 0#64 then (-1#64, a)
  else (BitVec.ofNat 64 (a.toNat / b.toNat), BitVec.ofNat 64 (a.toNat % b.toNat))

def execSadd (c : Ctl) (f : F64) (s : State) : Outcome State Fault Refusal := fixedWord (.sadd c f) c s (saddC f)
def execSsub (c : Ctl) (f : F64) (s : State) : Outcome State Fault Refusal := fixedWord (.ssub c f) c s (ssubC f)
def execSmul (c : Ctl) (f : F64) (s : State) : Outcome State Fault Refusal := fixedWord (.smul c f) c s (smulC f)
def execSmulh (c : Ctl) (f : F64) (s : State) : Outcome State Fault Refusal := fixedWord (.smulh c f) c s (smulhC f)
def execSdiv (c : Ctl) (f : F64) (s : State) : Outcome State Fault Refusal :=
  fixedWord (.sdiv c f) c s (sres f fun x => (divide (f.mod.toNat == 0) (x.sreg f.a) (x.sreg f.b)).1)
def execSrem (c : Ctl) (f : F64) (s : State) : Outcome State Fault Refusal :=
  fixedWord (.srem c f) c s (sres f fun x => (divide (f.mod.toNat == 0) (x.sreg f.a) (x.sreg f.b)).2)
def execSand (c : Ctl) (f : F64) (s : State) : Outcome State Fault Refusal := fixedWord (.sand c f) c s (sandC f)
def execSor (c : Ctl) (f : F64) (s : State) : Outcome State Fault Refusal := fixedWord (.sor c f) c s (sorC f)
def execSxor (c : Ctl) (f : F64) (s : State) : Outcome State Fault Refusal := fixedWord (.sxor c f) c s (sxorC f)
def execSshl (c : Ctl) (f : F64) (s : State) : Outcome State Fault Refusal := fixedWord (.sshl c f) c s (sshlC f)
def execSshr (c : Ctl) (f : F64) (s : State) : Outcome State Fault Refusal := fixedWord (.sshr c f) c s (sshrC f)
def execSsar (c : Ctl) (f : F64) (s : State) : Outcome State Fault Refusal := fixedWord (.ssar c f) c s (ssarC f)
def execSmin (c : Ctl) (f : F64) (s : State) : Outcome State Fault Refusal := fixedWord (.smin c f) c s (sminC f)
def execSmax (c : Ctl) (f : F64) (s : State) : Outcome State Fault Refusal := fixedWord (.smax c f) c s (smaxC f)
def execScmp (c : Ctl) (f : F64) (s : State) : Outcome State Fault Refusal := fixedWord (.scmp c f) c s (scmpC f)
def execSsel (c : Ctl) (f : F64) (s : State) : Outcome State Fault Refusal := fixedWord (.ssel c f) c s (sselC f)
def execSmov (c : Ctl) (f : F64) (s : State) : Outcome State Fault Refusal := fixedWord (.smov c f) c s (smovC f)
def execSlea (c : Ctl) (f : F64) (s : State) : Outcome State Fault Refusal := fixedWord (.slea c f) c s (sleaC f)
def execSpopc (c : Ctl) (f : F64) (s : State) : Outcome State Fault Refusal := fixedWord (.spopc c f) c s (spopcC f)
def execSclz (c : Ctl) (f : F64) (s : State) : Outcome State Fault Refusal := fixedWord (.sclz c f) c s (sclzC f)
def execSffs (c : Ctl) (f : F64) (s : State) : Outcome State Fault Refusal := fixedWord (.sffs c f) c s (sffsC f)

/-- 07 R201. -/
def execSmovi (c : Ctl) (f : W128) (s : State) : Outcome State Fault Refusal :=
  fixedWord (.smovi c f) c s fun x =>
    let i : Word := f.y ++ f.x
    .ok (if x.part.isEmpty then [] else [.s f.d.toNat (if f.mod.toNat == 0 then i else x.pc + i)])

/-- A special register (02 R64, 01 R15). -/
def Ctx.special (x : Ctx) (sel lane : Nat) : Nat :=
  if sel == 0 then lane
  else if sel == 1 then x.G.gw
  else if sel == 2 then x.G.gidx
  else if sel == 3 then x.hdr.teamSz
  else if sel == 4 then x.team.idx
  else if sel == 5 then x.G.core % 16
  else if sel == 6 then clusterOf x.G.core
  else if sel == 7 then (dieOf x.G.core).toNat
  else if sel == 8 then x.G.ufc.toNat
  else x.s.clock

/-- 07 R202. -/
def execSr (c : Ctl) (f : F64) (s : State) : Outcome State Fault Refusal :=
  fixedWord (.sr c f) c s fun x =>
    let sel := f.c.toNat
    if f.mod.toNat == 0 then
      .ok (if x.part.isEmpty then [] else [.s f.d.toNat (BitVec.ofNat 64 (x.special sel 0))])
    else if sel == 9 then
      .ok (x.vres f.d.toNat 0 (fun _ => BitVec.ofNat 32 x.s.clock) ++
           x.vres (f.d.toNat + 1) 0 fun _ => BitVec.ofNat 32 (x.s.clock / 2 ^ 32))
    else .ok (x.vres f.d.toNat 0 fun l => BitVec.ofNat 32 (x.special sel l))

end Sys2Proof.Machine
end

