-- ==== Sys2Proof/Machine/VectorInt.lean ====
section
/-! DEFINITION. VectorInt.lean: the vector integer instructions (08 R203-R214). -/

namespace Sys2Proof.Machine

open Host (Outcome)

/-! ## Elements -/

/-- Element width of MOD (08 R203). -/
def widthOf (mod : BitVec 2) : Nat := if mod.toNat == 1 then 16 else if mod.toNat == 2 then 8 else 32

/-- Element `e` of width `w` of a lane (03 R68). -/
def elem (w : Nat) (v : Lane32) (e : Nat) : Nat := bitsOf v.toNat (w * e) w

/-- A lane made of elements of width `w`, the lowest first. -/
def packElems (w : Nat) (es : List Nat) : Lane32 := BitVec.ofNat 32 (es.foldr (fun e acc => e % 2 ^ w + 2 ^ w * acc) 0)

/-- Every element of a lane. -/
def elems (w : Nat) (v : Lane32) : List Nat := (List.range (32 / w)).map (elem w v)

/-- An element read under U (08 R205). -/
def readU (u : Bool) (w x : Nat) : Int := if u then (x % 2 ^ w : Nat) else asSigned w x

/-- The range of an integer type (03 R69). -/
def intMin (u : Bool) (w : Nat) : Int := if u then 0 else -(2 ^ (w - 1) : Nat)
def intMax (u : Bool) (w : Nat) : Int := if u then (2 ^ w : Nat) - 1 else (2 ^ (w - 1) : Nat) - 1

/-- Bits U and I of the qualifier field Q (08 R204). -/
def qU (f : F64) : Bool := fld f.c 0 1 == 1
def qI (f : F64) : Bool := fld f.c 1 1 == 1

/-- The second operand of form T, element by element: vB, or imm7 sign-extended to w bits, or unsigned in the shifts. -/
def Ctx.opB (x : Ctx) (f : F64) (shift : Bool) (w lane e : Nat) : Nat :=
  if qI f then (if shift then f.b.toNat else wrapTo w f.b.toInt) else elem w (x.v f.b lane) e

/-- A vector result of type RAW. -/
def vcomp (f : F64) (g : Ctx → Nat → Lane32) : Comp := fun x => .ok (x.vres f.d.toNat 0 (g x))

/-- Form T: `g w a b` on the elements as unsigned numbers; the low w bits of the result are kept. -/
def formT (f : F64) (shift : Bool) (g : Nat → Nat → Nat → Int) : Comp := vcomp f fun x l =>
  let w := widthOf f.mod
  packElems w ((List.range (32 / w)).map fun e => wrapTo w (g w (elem w (x.v f.a l) e) (x.opB f shift w l e)))

/-- Form U: `g w a`. -/
def formU (f : F64) (g : Nat → Nat → Int) : Comp := vcomp f fun x l =>
  let w := widthOf f.mod
  packElems w ((elems w (x.v f.a l)).map fun a => wrapTo w (g w a))

/-! ## Form T (08 R206) -/

def addC (f : F64) : Comp := formT f false fun _ a b => (a + b : Nat)
def subC (f : F64) : Comp := formT f false fun _ a b => (a : Int) - b
def mulC (f : F64) : Comp := formT f false fun _ a b => (a * b : Nat)
def mulhC (f : F64) : Comp := formT f false fun w a b => readU (qU f) w a * readU (qU f) w b / (2 ^ w : Nat)
def minC (f : F64) : Comp := formT f false fun w a b => min (readU (qU f) w a) (readU (qU f) w b)
def maxC (f : F64) : Comp := formT f false fun w a b => max (readU (qU f) w a) (readU (qU f) w b)
def andC (f : F64) : Comp := formT f false fun _ a b => (a &&& b : Nat)
def orC (f : F64) : Comp := formT f false fun _ a b => (a ||| b : Nat)
def xorC (f : F64) : Comp := formT f false fun _ a b => (a ^^^ b : Nat)
def andnC (f : F64) : Comp := formT f false fun w a b => (a &&& (2 ^ w - 1 - b % 2 ^ w) : Nat)
def shlC (f : F64) : Comp := formT f true fun w a b => if w ≤ b then 0 else (a * 2 ^ b : Nat)
def shrC (f : F64) : Comp := formT f true fun w a b => if w ≤ b then 0 else (a / 2 ^ b : Nat)
def sarC (f : F64) : Comp := formT f true fun w a b => asSigned w a / (2 ^ min b w : Nat)
def rotC (f : F64) : Comp := formT f true fun w a b => (a * 2 ^ (b % w) + a / 2 ^ (w - b % w) : Nat)
def addsatC (f : F64) : Comp := formT f false fun w a b =>
  clampTo (intMin (qU f) w) (intMax (qU f) w) (readU (qU f) w a + readU (qU f) w b)
def subsatC (f : F64) : Comp := formT f false fun w a b =>
  clampTo (intMin (qU f) w) (intMax (qU f) w) (readU (qU f) w a - readU (qU f) w b)
def avgC (f : F64) : Comp := formT f false fun w a b => (readU (qU f) w a + readU (qU f) w b + 1) / 2

/-! ## Form U (08 R207, R208) -/

/-- A signed result, clamped to the largest value when S is set. -/
def satS (f : F64) (w : Nat) (r : Int) : Int := if fld f.c 2 1 == 1 then min r (intMax false w) else r

def absC (f : F64) : Comp := formU f fun w a => satS f w (asSigned w a).natAbs
def negC (f : F64) : Comp := formU f fun w a => satS f w (-asSigned w a)
def notC (f : F64) : Comp := formU f fun w a => (2 ^ w - 1 - a : Nat)
def popcC (f : F64) : Comp := formU f fun w a => popCount (BitVec.ofNat w a)
def clzC (f : F64) : Comp := formU f fun w a => leadZeros (BitVec.ofNat w a)
def ffsC (f : F64) : Comp := formU f fun w a => lowSet (BitVec.ofNat w a)
def brevC (f : F64) : Comp := formU f fun w a => ((List.range w).foldl (fun r i => 2 * r + a / 2 ^ i % 2) 0 : Nat)
/-- The tag is copied with the value (08 R208). -/
def movC (f : F64) : Comp := fun x => .ok ((x.part.map fun l => .v f.d.toNat l (x.v f.a l)) ++ x.copyTag f.d.toNat f.a)

/-! ## Form R and bit fields (08 R209, R210) -/

def madC (f : F64) : Comp := vcomp f fun x l =>
  let w := widthOf f.mod
  packElems w ((List.range (32 / w)).map fun e => elem w (x.v f.a l) e * elem w (x.v f.b l) e + elem w (x.v f.c l) e)

/-- Position and effective length from vB. -/
def fieldPos (b : Lane32) : Nat := bitsOf b.toNat 0 8
def fieldLen (b : Lane32) : Nat := min (bitsOf b.toNat 8 8) 32

def bfeC (f : F64) : Comp := vcomp f fun x l =>
  let n := fieldLen (x.v f.b l)
  let v := bitsOf (x.v f.a l).toNat (fieldPos (x.v f.b l)) n
  if n == 0 then 0#32 else BitVec.ofInt 32 (readU (qU f) n v)

def bfiC (f : F64) : Comp := vcomp f fun x l =>
  let pos := fieldPos (x.v f.b l)
  let mask : Lane32 := BitVec.ofNat 32 ((2 ^ fieldLen (x.v f.b l) - 1) * 2 ^ pos)
  (x.v f.c l &&& ~~~mask) ||| (x.v f.a l <<< pos &&& mask)

def selC (f : F64) : Comp := vcomp f fun x l => if x.G.pred f.c.toNat l then x.v f.a l else x.v f.b l

def sadC (f : F64) : Comp := vcomp f fun x l =>
  let w := widthOf f.mod
  BitVec.ofNat 32 ((x.v f.c l).toNat + (List.range (32 / w)).foldl (fun n e =>
    n + ((elem w (x.v f.a l) e : Int) - elem w (x.v f.b l) e).natAbs) 0)

/-- MOD: 00 i8·i8, 01 n8·n8, 10 i8·n8, 11 n8·i8. -/
def dp4C (f : F64) : Comp := vcomp f fun x l =>
  let ua := f.mod.toNat == 1 || f.mod.toNat == 3
  let ub := f.mod.toNat == 1 || f.mod.toNat == 2
  BitVec.ofInt 32 ((List.range 4).foldl (fun n e =>
    n + readU ua 8 (elem 8 (x.v f.a l) e) * readU ub 8 (elem 8 (x.v f.b l) e)) ((x.v f.c l).toNat : Int))

/-! ## Compare, conversion, immediate move (08 R211-R213) -/

def cmpC (f : F64) : Comp := fun x =>
  let w := widthOf f.mod
  let holds := fun l e => condHolds (fld f.c 2 3) (readU (qU f) w (elem w (x.v f.a l) e)) (readU (qU f) w (x.opB f false w l e))
  .ok (x.part.map fun l => .p f.d.toNat l
    (if fld f.c 5 1 == 1 then (List.range (32 / w)).any (holds l) else (List.range (32 / w)).all (holds l)))

def cvtiC (f : F64) : Comp := vcomp f fun x l =>
  let wd := widthOf f.mod
  let ws := 32 / 2 ^ fld f.c 0 2
  let k := fld f.c 5 2
  let conv := fun (a : Nat) =>
    let v := readU (fld f.c 2 1 == 1) ws a
    let du := fld f.c 3 1 == 1
    wrapTo wd (if fld f.c 4 1 == 1 then clampTo (intMin du wd) (intMax du wd) v else v)
  let src := elems ws (x.v f.a l)
  let nd := 32 / wd
  let ns := 32 / ws
  if ws < wd then packElems wd ((List.range nd).map fun j => conv (src.getD (k * nd + j) 0))
  else packElems wd ((List.range nd).map fun j =>
    if k * ns ≤ j && j < k * ns + ns then conv (src.getD (j - k * ns) 0) else elem wd (x.v f.d l) j)

def execAdd (c : Ctl) (f : F64) (s : State) : Outcome State Fault Refusal := fixedWord (.add c f) c s (addC f)
def execSub (c : Ctl) (f : F64) (s : State) : Outcome State Fault Refusal := fixedWord (.sub c f) c s (subC f)
def execMul (c : Ctl) (f : F64) (s : State) : Outcome State Fault Refusal := fixedWord (.mul c f) c s (mulC f)
def execMulh (c : Ctl) (f : F64) (s : State) : Outcome State Fault Refusal := fixedWord (.mulh c f) c s (mulhC f)
def execMad (c : Ctl) (f : F64) (s : State) : Outcome State Fault Refusal := fixedWord (.mad c f) c s (madC f)
def execAbs (c : Ctl) (f : F64) (s : State) : Outcome State Fault Refusal := fixedWord (.abs c f) c s (absC f)
def execNeg (c : Ctl) (f : F64) (s : State) : Outcome State Fault Refusal := fixedWord (.neg c f) c s (negC f)
def execMin (c : Ctl) (f : F64) (s : State) : Outcome State Fault Refusal := fixedWord (.min c f) c s (minC f)
def execMax (c : Ctl) (f : F64) (s : State) : Outcome State Fault Refusal := fixedWord (.max c f) c s (maxC f)
def execAnd (c : Ctl) (f : F64) (s : State) : Outcome State Fault Refusal := fixedWord (.and c f) c s (andC f)
def execOr (c : Ctl) (f : F64) (s : State) : Outcome State Fault Refusal := fixedWord (.or c f) c s (orC f)
def execXor (c : Ctl) (f : F64) (s : State) : Outcome State Fault Refusal := fixedWord (.xor c f) c s (xorC f)
def execAndn (c : Ctl) (f : F64) (s : State) : Outcome State Fault Refusal := fixedWord (.andn c f) c s (andnC f)
def execNot (c : Ctl) (f : F64) (s : State) : Outcome State Fault Refusal := fixedWord (.not c f) c s (notC f)
def execShl (c : Ctl) (f : F64) (s : State) : Outcome State Fault Refusal := fixedWord (.shl c f) c s (shlC f)
def execShr (c : Ctl) (f : F64) (s : State) : Outcome State Fault Refusal := fixedWord (.shr c f) c s (shrC f)
def execSar (c : Ctl) (f : F64) (s : State) : Outcome State Fault Refusal := fixedWord (.sar c f) c s (sarC f)
def execRot (c : Ctl) (f : F64) (s : State) : Outcome State Fault Refusal := fixedWord (.rot c f) c s (rotC f)
def execBfe (c : Ctl) (f : F64) (s : State) : Outcome State Fault Refusal := fixedWord (.bfe c f) c s (bfeC f)
def execBfi (c : Ctl) (f : F64) (s : State) : Outcome State Fault Refusal := fixedWord (.bfi c f) c s (bfiC f)
def execPopc (c : Ctl) (f : F64) (s : State) : Outcome State Fault Refusal := fixedWord (.popc c f) c s (popcC f)
def execClz (c : Ctl) (f : F64) (s : State) : Outcome State Fault Refusal := fixedWord (.clz c f) c s (clzC f)
def execFfs (c : Ctl) (f : F64) (s : State) : Outcome State Fault Refusal := fixedWord (.ffs c f) c s (ffsC f)
def execBrev (c : Ctl) (f : F64) (s : State) : Outcome State Fault Refusal := fixedWord (.brev c f) c s (brevC f)
def execCmp (c : Ctl) (f : F64) (s : State) : Outcome State Fault Refusal := fixedWord (.cmp c f) c s (cmpC f)
def execSel (c : Ctl) (f : F64) (s : State) : Outcome State Fault Refusal := fixedWord (.sel c f) c s (selC f)
def execMov (c : Ctl) (f : F64) (s : State) : Outcome State Fault Refusal := fixedWord (.mov c f) c s (movC f)
def execCvti (c : Ctl) (f : F64) (s : State) : Outcome State Fault Refusal := fixedWord (.cvti c f) c s (cvtiC f)
def execAddsat (c : Ctl) (f : F64) (s : State) : Outcome State Fault Refusal := fixedWord (.addsat c f) c s (addsatC f)
def execSubsat (c : Ctl) (f : F64) (s : State) : Outcome State Fault Refusal := fixedWord (.subsat c f) c s (subsatC f)
def execAvg (c : Ctl) (f : F64) (s : State) : Outcome State Fault Refusal := fixedWord (.avg c f) c s (avgC f)
def execSad (c : Ctl) (f : F64) (s : State) : Outcome State Fault Refusal := fixedWord (.sad c f) c s (sadC f)
def execDp4 (c : Ctl) (f : F64) (s : State) : Outcome State Fault Refusal := fixedWord (.dp4 c f) c s (dp4C f)

def execMovi (c : Ctl) (f : W128) (s : State) : Outcome State Fault Refusal :=
  fixedWord (.movi c f) c s fun x =>
    let i := f.x.toNat + 2 ^ 32 * f.y.toNat
    let d := f.d.toNat
    .ok (match f.mod.toNat with
      | 0 => x.vres d 0 fun _ => BitVec.ofNat 32 i
      | 1 => x.vres d 0 fun _ => packElems 16 (List.replicate 2 i)
      | 2 => x.vres d 0 fun _ => packElems 8 (List.replicate 4 i)
      | _ => x.vres d 0 (fun _ => f.x) ++ x.vres (d + 1) 0 fun _ => f.y)

end Sys2Proof.Machine
end

