-- ==== Sys2Proof/Machine/Float.lean ====
section
/-! DEFINITION. Float.lean: arithmetic on binary32 (09 R223-R229). -/

namespace Sys2Proof.Machine

open Host (Outcome)

/-- A source lane as a binary32 (09 R223). -/
def Ctx.f32 (x : Ctx) (r : BitVec 7) (lane : Nat) : Num := Fmt.f32.decode (x.v r lane).toNat

/-- A result of type F32 from an exact or sticky value. -/
def fcomp (f : F64) (g : Ctx → Nat → Num × Bool) : Comp := fun x =>
  .ok (x.vres f.d.toNat 1 fun l => let r := g x l; BitVec.ofNat 32 (Fmt.f32.result (rmOf f.mod.toNat) r.1 r.2))

def faddC (f : F64) : Comp := fcomp f fun x l => ((x.f32 f.a l).add (rmOf f.mod.toNat) (x.f32 f.b l), false)
def fsubC (f : F64) : Comp := fcomp f fun x l => ((x.f32 f.a l).add (rmOf f.mod.toNat) (x.f32 f.b l).neg, false)
def fmulC (f : F64) : Comp := fcomp f fun x l => ((x.f32 f.a l).mul (x.f32 f.b l), false)
def ffmaC (f : F64) : Comp := fcomp f fun x l =>
  (((x.f32 f.a l).mul (x.f32 f.b l)).add (rmOf f.mod.toNat) (x.f32 f.c l), false)
def fminC (f : F64) : Comp := fcomp f fun x l => ((x.f32 f.a l).pick false (x.f32 f.b l), false)
def fmaxC (f : F64) : Comp := fcomp f fun x l => ((x.f32 f.a l).pick true (x.f32 f.b l), false)
def fcmpC (f : F64) : Comp := fun x =>
  .ok (x.part.map fun l => .p f.d.toNat l (fcondHolds f.c.toNat (x.f32 f.a l) (x.f32 f.b l)))
def fclassC (f : F64) : Comp := fun x => .ok (x.vres f.d.toNat 0 fun l => BitVec.ofNat 32 (2 ^ fclassBit (x.v f.a l).toNat))
def frcpC (f : F64) : Comp := fcomp f fun x l => fnRcp (x.f32 f.a l)
def frsqC (f : F64) : Comp := fcomp f fun x l => fnRsq (x.f32 f.a l)
def fexp2C (f : F64) : Comp := fcomp f fun x l => fnExp2 (x.f32 f.a l)
def flog2C (f : F64) : Comp := fcomp f fun x l => fnLog2 (x.f32 f.a l)
def fsqrtC (f : F64) : Comp := fcomp f fun x l => fnSqrt (x.f32 f.a l)
def frndC (f : F64) : Comp := fcomp f fun x l => (fnRnd (rmOf f.mod.toNat) (x.f32 f.a l), false)

def execFadd (c : Ctl) (f : F64) (s : State) : Outcome State Fault Refusal := fixedWord (.fadd c f) c s (faddC f)
def execFsub (c : Ctl) (f : F64) (s : State) : Outcome State Fault Refusal := fixedWord (.fsub c f) c s (fsubC f)
def execFmul (c : Ctl) (f : F64) (s : State) : Outcome State Fault Refusal := fixedWord (.fmul c f) c s (fmulC f)
def execFfma (c : Ctl) (f : F64) (s : State) : Outcome State Fault Refusal := fixedWord (.ffma c f) c s (ffmaC f)
def execFmin (c : Ctl) (f : F64) (s : State) : Outcome State Fault Refusal := fixedWord (.fmin c f) c s (fminC f)
def execFmax (c : Ctl) (f : F64) (s : State) : Outcome State Fault Refusal := fixedWord (.fmax c f) c s (fmaxC f)
def execFcmp (c : Ctl) (f : F64) (s : State) : Outcome State Fault Refusal := fixedWord (.fcmp c f) c s (fcmpC f)
def execFclass (c : Ctl) (f : F64) (s : State) : Outcome State Fault Refusal := fixedWord (.fclass c f) c s (fclassC f)
def execFrcp (c : Ctl) (f : F64) (s : State) : Outcome State Fault Refusal := fixedWord (.frcp c f) c s (frcpC f)
def execFrsq (c : Ctl) (f : F64) (s : State) : Outcome State Fault Refusal := fixedWord (.frsq c f) c s (frsqC f)
def execFexp2 (c : Ctl) (f : F64) (s : State) : Outcome State Fault Refusal := fixedWord (.fexp2 c f) c s (fexp2C f)
def execFlog2 (c : Ctl) (f : F64) (s : State) : Outcome State Fault Refusal := fixedWord (.flog2 c f) c s (flog2C f)
def execFsqrt (c : Ctl) (f : F64) (s : State) : Outcome State Fault Refusal := fixedWord (.fsqrt c f) c s (fsqrtC f)
def execFrnd (c : Ctl) (f : F64) (s : State) : Outcome State Fault Refusal := fixedWord (.frnd c f) c s (frndC f)

end Sys2Proof.Machine
end

