-- ==== Sys2Proof/Machine/Convert.lean ====
section
/-! DEFINITION. Convert.lean: conversions (09 R230-R236), block floating point and planes in registers (09 R237-R244). -/

namespace Sys2Proof.Machine

open Host (Outcome)

/-- The policy byte (09 R231). -/
def policy (f : F64) : Nat := f.b.toNat + 128 * fld f.c 6 1

/-- Element `i` of a lane's set of `n` registers from `base`, `e` elements to a lane (09 R230). -/
def Ctx.setElem (x : Ctx) (base : BitVec 7) (n e lane i : Nat) : Nat := elem (32 / e) (x.vn (base.toNat + i % n) lane) (i / n)

/-- The destination set: `res lane i` for each of `n` elements, `e` to a lane (09 R230). -/
def Ctx.setWrites (x : Ctx) (d : BitVec 7) (n e fmt : Nat) (res : Nat → Nat → Nat) : List RegWrite :=
  let nd := n / e
  (List.range nd).flatMap fun j => x.vres (d.toNat + j) fmt fun l =>
    packElems (32 / e) ((List.range e).map fun p => res l (p * nd + j))

/-- A conversion of a set: `cv lane register raw` gives an element's result, or none for the policy's fault. CONV_FAULT
names the lowest participating lane that selects it (03 R84). -/
def convSet (f : F64) (es ed fmt : Nat) (cv : Ctx → Nat → Nat → Nat → Option Nat) : Comp := fun x =>
  let n := max es ed
  let ns := n / es
  let one := fun l i => cv x l (f.a.toNat + i % ns) (x.setElem f.a ns es l i)
  match x.part.find? fun l => (List.range n).any fun i => (one l i).isNone with
  | some l => .error (0x40, l)
  | none => .ok (x.setWrites f.d n ed fmt fun l i => (one l i).getD 0)

/-- A BFP element byte of a register, as an exact number (09 R233, 02 R55). -/
def bfpElem (t : Tag) (lane b : Nat) : Num :=
  let p := if t.fmt == 6 then t.pln else 8
  bfpValue (t.exp (lane / 8)).toNat (bfpByte p t.fill b)

/-- An element of source format `sf` read from a register. -/
def Ctx.srcNum (x : Ctx) (sf lane r raw : Nat) : Num :=
  if sf == 6 then bfpElem (x.G.v.getD r ⟨[], ⟨0#64, 0#16⟩⟩).tag lane raw else (Fmt.ofCode sf).decode raw

def execFcvt (c : Ctl) (f : F64) (s : State) : Outcome State Fault Refusal :=
  let sf := fld f.c 0 3
  let df := fld f.c 3 3
  fixedWord (.fcvt c f) c s (convSet f (fmtElems sf) (fmtElems df) df fun x l r raw =>
    (Fmt.ofCode df).convert (rmOf f.mod.toNat) (policy f) (x.srcNum sf l r raw))

/-- Width and signedness of an integer code (09 R231). -/
def intWidth (code : Nat) : Nat := 32 / intElems code
def intUns (code : Nat) : Bool := code % 2 == 1

def execF2i (c : Ctl) (f : F64) (s : State) : Outcome State Fault Refusal :=
  let sf := fld f.c 0 3
  let dt := fld f.c 3 3
  fixedWord (.f2i c f) c s (convSet f (fmtElems sf) (intElems dt) 0 fun _ _ _ raw =>
    (convertInt (intMin (intUns dt) (intWidth dt)) (intMax (intUns dt) (intWidth dt)) (rmOf f.mod.toNat) (policy f)
      ((Fmt.ofCode sf).decode raw)).map (wrapTo 32))

def execI2f (c : Ctl) (f : F64) (s : State) : Outcome State Fault Refusal :=
  let st := fld f.c 0 3
  let df := fld f.c 3 3
  fixedWord (.i2f c f) c s (convSet f (intElems st) (fmtElems df) df fun _ _ _ raw =>
    let v := readU (intUns st) (intWidth st) raw
    (Fmt.ofCode df).convert (rmOf f.mod.toNat) (policy f) (.fin (decide (v < 0)) v.natAbs 0))

def execFpack (c : Ctl) (f : F64) (s : State) : Outcome State Fault Refusal :=
  let df := fld f.c 3 3
  let w := 32 / fmtElems df
  let k := fld f.c 0 2
  fixedWord (.fpack c f) c s fun x =>
    let one := fun l => (Fmt.ofCode df).convert (rmOf f.mod.toNat) (policy f) (x.f32 f.a l)
    match x.part.find? fun l => (one l).isNone with
    | some l => .error (0x40, l)
    | none => .ok (x.vres f.d.toNat df fun l =>
        packElems w ((List.range (fmtElems df)).map fun i => if i == k then (one l).getD 0 else elem w (x.v f.d l) i))

def execFunpk (c : Ctl) (f : F64) (s : State) : Outcome State Fault Refusal :=
  let sf := fld f.c 3 3
  let w := 32 / fmtElems sf
  fixedWord (.funpk c f) c s fun x =>
    let one := fun l => Fmt.f32.convert (rmOf f.mod.toNat) (policy f) (x.srcNum sf l f.a.toNat (elem w (x.v f.a l) (fld f.c 0 2)))
    match x.part.find? fun l => (one l).isNone with
    | some l => .error (0x40, l)
    | none => .ok (x.vres f.d.toNat 1 fun l => BitVec.ofNat 32 ((one l).getD 0))

/-! ## Block floating point (09 R237, R238) -/

/-- The participating lanes of block `k`. -/
def Ctx.blockLanes (x : Ctx) (k : Nat) : List Nat := x.part.filter fun l => l / 8 == k

/-- Exponents of the blocks that hold a participating lane. -/
def Ctx.blockExps (x : Ctx) (d : Nat) (e : Nat → BitVec 8) : List RegWrite := (blocksOf x.part).map fun k => .exp d k (e k)

def execBfpcvt (c : Ctl) (f : F64) (s : State) : Outcome State Fault Refusal :=
  let sf := fld f.c 3 3
  let es := fmtElems sf
  let m := fld f.c 0 3 + 1
  let ns := 4 / es
  fixedWord (.bfpcvt c f) c s fun x =>
    let bs := (blocksOf x.part).map fun k =>
      let ls := x.blockLanes k
      let v := ls.flatMap fun l => (List.range 4).map fun i => (Fmt.ofCode sf).decode (x.setElem f.a ns es l i)
      (k, ls, bfpConvert m (rmOf f.mod.toNat) (policy f) v)
    let bad := bs.flatMap fun b => b.2.2.faults.map fun i => b.2.1.getD (i / 4) 0
    match bad with
    | l :: ls => .error (0x40, ls.foldl min l)
    | [] =>
      .ok (.fld f.d.toNat (fieldWord 6 8 false) :: .ufcAdd (bs.foldl (fun n b => n + b.2.2.under) 0) ::
        bs.flatMap fun b => .exp f.d.toNat b.1 (BitVec.ofNat 8 b.2.2.exp) ::
          b.2.1.zipIdx.map fun (p : Nat × Nat) => .v f.d.toNat p.1 (packElems 8 ((List.range 4).map fun j =>
            wrapTo 8 (b.2.2.ms.getD (4 * p.2 + j) 0 * 2 ^ (8 - m)))))

def execBfpexpGet (c : Ctl) (f : F64) (s : State) : Outcome State Fault Refusal :=
  fixedWord (.bfpexpGet c f) c s fun x =>
    .ok (x.vres f.d.toNat 0 fun l => ((x.tag f.a).exp (l / 8)).setWidth 32)

def execBfpexpSet (c : Ctl) (f : F64) (s : State) : Outcome State Fault Refusal :=
  fixedWord (.bfpexpSet c f) c s fun x =>
    let t := x.tag f.a
    let d := f.d.toNat
    let field := if t.fmt == 6 then fieldWord 6 t.pln t.fill else fieldWord 6 8 false
    .ok (.fld d field :: (x.part.map fun l => .v d l (x.v f.a l)) ++
      x.blockExps d fun k => (x.v f.b ((x.blockLanes k).headD 0)).setWidth 8)

/-! ## Planes in registers (09 R239-R241) -/

/-- Byte of element `e` (0 to 31) of block `k` of a register. -/
def Ctx.blockByte (x : Ctx) (r : BitVec 7) (k e : Nat) : Nat := elem 8 (x.v r (8 * k + e / 4)) (e % 4)

def execPlpack (c : Ctl) (f : F64) (s : State) : Outcome State Fault Refusal :=
  fixedWord (.plpack c f) c s fun x =>
    .ok (x.vres f.d.toNat 0 fun l => packElems 1 ((List.range 32).map fun i => x.blockByte f.a (l / 8) i / 2 ^ (7 - l % 8)))

def execPlunpk (c : Ctl) (f : F64) (s : State) : Outcome State Fault Refusal :=
  fixedWord (.plunpk c f) c s fun x =>
    let d := f.d.toNat
    let n := f.c.toNat
    let byte := fun l j => (List.range 8).foldl (fun b p =>
      b + (if p < n && (x.v f.a (l / 8 * 8 + p)).getLsbD (4 * (l % 8) + j) then 2 ^ (7 - p) else 0)) 0
    .ok (.fld d (fieldWord 6 n false) :: (x.part.map fun l => .v d l (packElems 8 ((List.range 4).map (byte l)))) ++
      x.blockExps d (x.tag f.b).exp)

def execPtrunc (c : Ctl) (f : F64) (s : State) : Outcome State Fault Refusal :=
  fixedWord (.ptrunc c f) c s fun x =>
    let t := x.tag f.a
    let d := f.d.toNat
    if t.fmt != 6 then movC f x
    else
      let p := min f.c.toNat t.pln
      let fill := p < 8 && (if f.mod.toNat == 0 then t.fill else f.mod.toNat == 2)
      .ok (.fld d (fieldWord 6 p fill) :: (x.part.map fun l => .v d l (packElems 8 ((elems 8 (x.v f.a l)).map fun b =>
          b / 2 ^ (8 - p) * 2 ^ (8 - p)))) ++ x.blockExps d t.exp)

/-! ## Tag and counter reads (09 R242, R243) -/

def execPrec (c : Ctl) (f : F64) (s : State) : Outcome State Fault Refusal :=
  fixedWord (.prec c f) c s (sres f fun x => (x.tag f.a).field.setWidth 64)
def execPrecExp (c : Ctl) (f : F64) (s : State) : Outcome State Fault Refusal :=
  fixedWord (.precExp c f) c s (sres f fun x => (x.tag f.a).exps)

/-- The counter is read and cleared at T; an addition that lands later is added to the cleared count. -/
def ufcRead (x : Ctx) (dests : List RegName) (ws : List RegWrite) : Res :=
  if x.part.isEmpty then .fixed [(4, dests, [])] else .fixed [(4, dests, ws), (0, [], [.ufcSet 0#32])]

def execUfc (c : Ctl) (f : F64) (s : State) : Outcome State Fault Refusal :=
  word (.ufc c f) c (fun x => ufcRead x [.s f.d.toNat] [.s f.d.toNat (x.G.ufc.setWidth 64)]) s
def execUfcClr (c : Ctl) (f : F64) (s : State) : Outcome State Fault Refusal :=
  word (.ufcClr c f) c (fun x => ufcRead x [] []) s

end Sys2Proof.Machine
end

