-- ==== Sys2Proof/Machine/Scratchpad.lean ====
section
/-! DEFINITION. Scratchpad.lean: `lds`, `sts`, `ldsr`, `stsr`, `atoms`, `fe.wait`, `spin`, `sunpin` and their events
(10 R261-R265, R268, R269; 13 R327; 20 R434-R437). Accesses are performed at issue at the port core (log 4). -/

namespace Sys2Proof.Machine

open Host (Outcome)

/-! ## Destinations of engine commands (13 R315-R323) -/

/-- Bytes of scratchpad a command writes from its address. -/
def Cmd.destLen (c : Cmd) : Nat :=
  match c.op with
  | .pcopy x _ => if recKind c.brec.toNat == 3 then 144 * x else x
  | .pcopyRf x _ => 144 * x
  | .pstore .. => 0
  | .pfill x _ _ => x
  | .pxform x r _ p dir _ =>
    if dir == 1 then 0
    else if r == 1 then x * fmtBytes (bitsOf p 4 4)
    else if r == 2 then x * 2 ^ p
    else if r == 3 then 4 * x * 2 ^ p
    else if r == 4 then 144 * x
    else 0
  | .qmark .. => 16
  | .qfence .. => 0

/-- The halted queue whose pending or faulted command has this granule in its destination (13 R321). -/
def State.haltedOver (s : State) (tid addr : Nat) : Option (Nat × Nat) :=
  let qs := (s.team tid).queues.zipIdx
  qs.findSome? fun (q, i) =>
    if q.halted && q.pending.any fun c => overlaps c.addr c.destLen (addr / 16 * 16) 16 then
      some (i, match q.flt with | some f => f.1 | none => 0)
    else none

/-- INFO of QUEUE_FAULT and of QUEUE records (21 R445). -/
def queueInfo (q code : Nat) : Nat := q + 256 * code

/-! ## Checks and rounds -/

/-- The alignment that a scratchpad access needs (10 R249 step 4): none, to lie within one granule where it is FE-qualified (04 R111),
its own size where it is an atomic (10 R264). The natural alignment of 10 R248 is that of global accesses (DEDUCED, log 39). -/
inductive SpAlign where
  | any | granule | natural
  deriving DecidableEq, Repr

def SpAlign.ok (k : SpAlign) (o : Int) (s : Nat) : Bool :=
  match k with
  | .any => true
  | .granule => o % 16 + s ≤ 16
  | .natural => o % s == 0

/-- Steps 3 and 4 of 10 R249 on scratchpad offsets: SPAD_NOTMAPPED, MISALIGNED; the accesses as team-space addresses. -/
def Ctx.spCheck (x : Ctx) (own : Bool) (al : SpAlign) (offs : List (Nat × Int)) (s : Nat) : Except (Nat × Nat × Nat) (List SAcc) :=
  let len := if own then x.s.slotLen x.team else x.s.spaceLen x.team
  let base := if own then x.s.slotBase x.team x.G else 0
  match firstBad offs fun p => if p.2 < 0 || (len : Int) < p.2 + s then some (0x20, p.1, wrapTo 64 p.2) else none with
  | some e => .error e
  | none =>
    match firstBad offs fun p => if al.ok p.2 s then none else some (0x13, p.1, wrapTo 64 p.2) with
    | some e => .error e
    | none => .ok (offs.map fun p => ⟨p.1, base + p.2.toNat, s⟩)

/-- One round of 10 R263: the lanes, in order, whose pages fit among 8 pages, and the lanes left. -/
def takeRound (as : List SAcc) : List Nat × List SAcc × List SAcc :=
  as.foldl (fun (r : List Nat × List SAcc × List SAcc) a =>
    let new := (pagesOf a.addr a.size).filter fun p => !(r.1.contains p)
    if r.1.length + new.length ≤ 8 then (r.1 ++ new, r.2.1 ++ [a], r.2.2) else (r.1, r.2.1, r.2.2 ++ [a])) ([], [], [])

/-- The outcome of accesses that need pages. -/
inductive SpRes (β : Type) where
  | ok (s : State) (b : β)
  /-- no frame qualifies; the pages still wanted -/
  | starve (s : State) (pages : List Nat)
  /-- uncorrectable data of a page: the lane that wants it and its address -/
  | bad (s : State) (lane va : Nat)

/-- Pages made resident one by one for an access of core `core`, whose STB takes their entries (20 R433); what has become resident
stays so. -/
def State.bring (s : State) (core tid : Nat) (pages : List Nat) : SpRes Unit :=
  pages.foldl (fun (r : SpRes Unit) p => match r with
    | .ok s _ =>
      let s : State := s.stbFill core tid p
      match s.fillPage tid p (pages.map fun q => (tid, q)) with
      | .ok s => .ok s ()
      | .error 0x60 => .bad s 0 (p * 4096 + (s.badBacking tid p).getD 0)
      | .error _ => .starve s (pages.filter fun q => (s.frameOf tid q).isNone)
    | r => r) (.ok s ())

/-- The pages of regions made resident, and their words checked for one that cannot be corrected (21 R453). -/
def State.bringRead (s : State) (core tid : Nat) (regions : List (Nat × Nat)) : SpRes Unit :=
  match s.bring core tid (regions.flatMap fun r => pagesOf r.1 r.2) with
  | .ok s u => match regions.findSome? fun r => s.spBad tid r.1 r.2 with
    | some va => .bad s 0 va
    | none => .ok s u
  | r => r

/-- What a round of lanes refuses: the first lane that reads a word that cannot be corrected. -/
def State.roundBad (s : State) (tid : Nat) (reads : State → SAcc → Bool) (as : List SAcc) : Option (Nat × Nat) :=
  as.findSome? fun a => if reads s a then (s.spBad tid a.addr a.size).map fun va => (a.lane, va) else none

/-- The rounds of an instruction: pages resident, then each lane in order (10 R263); `reads` tells which lanes read. A round that finds no frame, or whose data
is uncorrectable, leaves nothing of the rounds before it: `s0` is the state before the first (20 R436: no effect in any lane). The
fuel is the number of lanes. -/
def spRoundsFrom {β : Type} (s0 : Option State) (core tid : Nat) (reads : State → SAcc → Bool) (f : State → β → SAcc → State × β) :
    Nat → State → β → List SAcc → SpRes β
  | 0, s, b, _ => .ok s b
  | n + 1, s, b, as =>
    match as with
    | [] => .ok s b
    | _ =>
      let r := takeRound as
      match s.bring core tid r.1 with
      | .ok s1 _ =>
        match s1.roundBad tid reads r.2.1 with
        | some (lane, va) => .bad (s0.getD s1) lane va
        | none =>
          let d := r.2.1.foldl (fun (sb : State × β) a => f sb.1 sb.2 a) (s1, b)
          spRoundsFrom (some (s0.getD s)) core tid reads f n d.1 d.2 r.2.2
      | .starve s1 ps => .starve (s0.getD s1) ps
      | .bad s1 _ va => .bad (s0.getD s1) ((r.2.1.find? fun a => (pagesOf a.addr a.size).contains (va / 4096)).map (·.lane) |>.getD 0) va

def spRounds {β : Type} (core tid : Nat) (reads : State → SAcc → Bool) (f : State → β → SAcc → State × β) (n : Nat) (s : State) (b : β)
    (as : List SAcc) : SpRes β :=
  spRoundsFrom none core tid reads f n s b as

/-- Every lane reads, or none does. -/
def allRead : State → SAcc → Bool := fun _ _ => true
def noneReads : State → SAcc → Bool := fun _ _ => false
/-- A lane reads where its granule is full. -/
def readsFull (tid : Nat) : State → SAcc → Bool := fun s a => s.feGet tid a.addr

/-- The word waits for frames (20 R436). -/
def Ctx.starve (x : Ctx) (s : State) (pages : List Nat) : Res :=
  .stall (s.modGroup x.g fun G => { G with want := pages }) .frame true

/-! ## Loads and stores -/

/-- One FE attempt of a lane whose page is resident: its writes, when the granule is full (10 R262, 04 R111). -/
def feTry (tid sz d : Nat) (take : Bool) (s : State) (b : List RegWrite × List SAcc) (a : SAcc) : State × (List RegWrite × List SAcc) :=
  if s.feGet tid a.addr then
    let w := regWrites d a.lane (loadVals sz (s.spRead tid a.addr a.size))
    (if take then s.feSet tid a.addr false else s, (b.1 ++ w, b.2))
  else (s, (b.1, b.2 ++ [a]))

/-- A lane whose granule is empty lies in the destination of a halted queue. -/
def State.feHalted (s : State) (tid : Nat) (addrs : List Nat) : Option (Nat × Nat × Nat) :=
  addrs.findSome? fun a => if s.feGet tid a then none else (s.haltedOver tid a).map fun q => (a, q)

def Ctx.spLoad (x : Ctx) (f : M96) (own : Bool) : Res :=
  let sz := fld f.c 4 3
  let n := sizeOf' sz
  let d := f.d.toNat
  let dests := vset f.d (dataRegs sz)
  let scope := fld f.b 4 3
  let fe := fld f.c 2 2
  if x.part.isEmpty then .go x.s
  else match x.spCheck own (if fe == 0 then .any else .granule) (x.offsets f.mod f.a f.imm.toInt n) n with
    | .error (code, lane, va) => .trap x.s code lane va 0
    | .ok as =>
      let tags := x.known d (dataRegs sz) []
      if !x.G.clear then .stall x.s .other true
      else if fe == 0 then
        match spRounds x.G.core x.tid allRead (fun s (b : List RegWrite) a =>
            (s, b ++ regWrites d a.lane (loadVals sz (s.spRead x.tid a.addr a.size)))) as.length x.s tags as with
        | .ok s ws => .out s { x.oword dests (.land ws) with acq := scope }
        | .starve s ps => x.starve s ps
        | .bad s lane va => .out s (x.oword dests (.bad lane va))
      else match x.s.feHalted x.tid (as.map (·.addr)) with
        | some (a, q, code) => .trap x.s 0x35 ((as.find? fun y => y.addr == a).map (·.lane) |>.getD 0) 0 (queueInfo q code)
        | none =>
          match spRounds x.G.core x.tid (readsFull x.tid) (feTry x.tid sz d (fe == 1)) as.length x.s ([], []) as with
          | .ok s (ws, pend) =>
            if pend.isEmpty then .out s { x.oword dests (.land (tags ++ ws)) with acq := scope }
            else .hold (s.modGroup x.g fun G => G.putVar (tags ++ ws))
              { x.holding dests (.feLoad pend (fe == 1) sz d) with acq := scope, isLoad := true }
          | .starve s ps => x.starve s ps
          | .bad s lane va => .out s (x.oword dests (.bad lane va))

def Ctx.spStore (x : Ctx) (f : M96) (own : Bool) : Res :=
  let n := sizeOf' (fld f.c 4 3)
  if x.part.isEmpty then .go x.s
  else match x.spCheck own (if fld f.c 2 2 == 1 then .granule else .any) (x.offsets f.mod f.a f.imm.toInt n) n with
    | .error (code, lane, va) => .trap x.s code lane va 0
    | .ok as =>
      if !x.G.clear then .stall x.s .other true
      else x.relThen (fld f.b 4 3) false
        (match spRounds x.G.core x.tid noneReads (fun s (_ : Unit) a =>
            let s := s.spWrite x.tid a.addr (x.storeBytes f.d n a.lane)
            (if fld f.c 2 2 == 1 then s.feSet x.tid a.addr true else s, ())) as.length x.s () as with
        | .ok s _ => .go s
        | .starve s ps => x.starve s ps
        | .bad s lane va => .out s (x.oword [] (.bad lane va)))

def execLds (c : Ctl) (f : M96) (s : State) : Outcome State Fault Refusal := word (.lds c f) c (fun x => x.spLoad f true) s
def execLdsr (c : Ctl) (f : M96) (s : State) : Outcome State Fault Refusal := word (.ldsr c f) c (fun x => x.spLoad f false) s
def execSts (c : Ctl) (f : M96) (s : State) : Outcome State Fault Refusal := word (.sts c f) c (fun x => x.spStore f true) s
def execStsr (c : Ctl) (f : M96) (s : State) : Outcome State Fault Refusal := word (.stsr c f) c (fun x => x.spStore f false) s

/-! ## atoms (10 R264, R265) -/

def execAtoms (c : Ctl) (f : M96) (s : State) : Outcome State Fault Refusal :=
  word (.atoms c f) c (fun x =>
    let n := if atomWide f then 8 else 4
    let nr := if atomWide f then 2 else 1
    let scope := fld f.b 4 3
    let ret := atomRet f
    let acq := if atomSem f % 2 == 1 then scope else 0
    if x.part.isEmpty then .go x.s
    else match x.spCheck true .natural (x.offsets f.mod f.a (atomImm f) n) n with
      | .error (code, lane, va) => .trap x.s code lane va 0
      | .ok as =>
        if !x.G.clear then .stall x.s .other true
        else x.relThen (if 2 ≤ atomSem f then scope else 0) false
          (match spRounds x.G.core x.tid allRead (fun s (b : List RegWrite) a =>
              let old := s.spReadLE x.tid a.addr n
              let new := atomNew (atomOp f) (atomT f) old (x.atomArg f f.c a.lane) (x.atomArg f f.d a.lane)
              (s.spWrite x.tid a.addr (leBytes n new), if ret then b ++ oldWrites f.d.toNat a.lane (atomWide f) old else b))
              as.length x.s (if ret then x.known f.d.toNat nr [] else []) as with
          | .ok s ws =>
            if ret then .out s { x.oword (vset f.d nr) (.owed ws) with acq := acq } else .go (s.l1Acquire x.G.core acq)
          | .starve s ps => x.starve s ps
          | .bad s lane va => .out s (x.oword (if ret then vset f.d nr else []) (.bad lane va)))) s

/-! ## fe.wait (13 R327) -/

/-- Granules of a list found full leave it; their pages are made resident. -/
def State.feTest (s : State) (core tid : Nat) (pend : List Nat) : SpRes (List Nat) :=
  spRounds core tid noneReads (fun s (b : List Nat) a => (s, if s.feGet tid a.addr then b else b ++ [a.addr])) pend.length s []
    (pend.map fun a => ⟨0, a, 16⟩)

def execFeWait (c : Ctl) (f : M96) (s : State) : Outcome State Fault Refusal :=
  groupWide (.feWait c f) c s fun x =>
    let n := f.c.toNat + 1
    let o := (x.sreg f.a).toInt + f.imm.toInt
    let own := f.mod.toNat == 0
    let len := if own then x.s.slotLen x.team else x.s.spaceLen x.team
    let base := if own then x.s.slotBase x.team x.G else 0
    if o < 0 || (len : Int) < o + 16 * n then .trap x.s 0x20 0 (wrapTo 64 o) 0
    else if o % 16 != 0 then .trap x.s 0x13 0 (wrapTo 64 o) 0
    else
      let gs := (List.range n).map fun i => base + o.toNat + 16 * i
      match x.s.feHalted x.tid gs with
      | some (_, q, code) => .trap x.s 0x35 0 0 (queueInfo q code)
      | none =>
        if !x.G.clear then .stall x.s .other true
        else match x.s.feTest x.G.core x.tid gs with
          | .ok s [] => .go s
          | .ok s pend => .hold s (x.holding [] (.feWait pend))
          | .starve s ps => x.starve s ps
          | .bad s lane va => .out s (x.oword [] (.bad lane va))

/-- An issued word waits for scratchpad frames (20 R436). -/
def State.starveWait (s : State) (g : Nat) (pages : List Nat) : State :=
  s.modGroup g fun G => { G with since := if G.want.isEmpty then s.clock else G.since, want := pages }

/-- The wait is recorded, unless it already stands so. -/
def State.starveNew (s s' : State) (g : Nat) (pages : List Nat) : Option State :=
  if (s.group g).want == pages then none else some (s'.starveWait g pages)

/-- A waiting word is taken back by QUEUE_FAULT (13 R321): the lanes `stay` that it has not performed remain at the word, and the
others have been performed once and go on (10 R262). -/
def State.queueFaultWait (s : State) (g : Nat) (o : OWord) (stay : List Nat) (lane q code : Nat) : State :=
  (s.takeBackFor g o stay).groupFault g ⟨0x35, 0, lane, queueInfo q code, o.pc, 0, false, stay, o.next, false, 0⟩

/-! ## Tile operations are accepted (11 R271) -/

/-- The core's tile queue has no free entry. -/
def State.tileFull (s : State) (core : Nat) : Bool := decide (Config.tileQueueDepth ≤ (s.core core).ops.length)

/-- The physical tile of a tile name of a group (02 R62). -/
def State.physTile (s : State) (g tile : Nat) : Nat :=
  let G := s.group g
  ((s.team G.team).tmap.getD (s.slotOf (s.team G.team) G) []).getD tile 0

/-- The engine accepts an operation of word `word` of a group. -/
def State.acceptTile (s : State) (g word : Nat) (pc : Word) (tile : Nat) (op : TOp) : State :=
  let ph := s.physTile g tile
  s.modCore (s.group g).core fun c => { c with ops := c.ops ++ [⟨g, word, pc, tile, ph, op⟩] }

/-- The lane values that little-endian bytes hold. -/
def lanesOf : List Byte → List Lane32
  | a :: b :: c :: d :: bs => BitVec.ofNat 32 (leNat [a, b, c, d]) :: lanesOf bs
  | _ => []

/-- Granules of `acc.ld.fe` found full are read (11 R287); what is left, and all that has been read. -/
def State.tileFeTest (s : State) (core tid : Nat) (pend : List Nat) (got : List (Nat × List Byte)) : SpRes (List Nat × List (Nat × List Byte)) :=
  spRounds core tid (readsFull tid) (fun s (b : List Nat × List (Nat × List Byte)) a =>
      (s, if s.feGet tid a.addr then (b.1, b.2 ++ [(a.addr, s.spRead tid a.addr 16)]) else (b.1 ++ [a.addr], b.2)))
    pend.length s ([], got) (pend.map fun a => ⟨0, a, 16⟩)

/-- The tile's values from granules read in any order. -/
def tileVals (addr : Nat) (got : List (Nat × List Byte)) : List Lane32 :=
  lanesOf ((List.range 1024).flatMap fun i => (got.lookup (addr + 16 * i)).getD (List.replicate 16 0#8))

/-- FE_LANE_ATTEMPT: pending lanes whose granules are full are performed; a page is brought in only for those (10 R262). -/
def execFeLaneAttempt (g word : Nat) (s : State) : Outcome State Fault Refusal :=
  onWait s g word fun o => match o.kind with
    | .feLoad pend take sz d =>
      let G := s.group g
      let tid := G.team
      let full := pend.filter fun a => s.feGet tid a.addr
      match s.feHalted tid (pend.map (·.addr)) with
      | some (a, q, code) => some (s.queueFaultWait g o (pend.map (·.lane)) ((pend.find? fun y => y.addr == a).map (·.lane) |>.getD 0) q code)
      | none =>
        match spRounds G.core tid (readsFull tid) (feTry tid sz d take) full.length s ([], []) full with
        | .ok s (ws, left) =>
          let rest := pend.filter fun a => !(full.contains a) || left.contains a
          if rest.isEmpty then some (s.complete g o ws)
          else if rest.length == pend.length then none
          else some (s.modGroup g fun G =>
            { G.putVar ws with outst := (G.putVar ws).outst.map fun y => if y.id == o.id then { y with kind := .feLoad rest take sz d } else y })
        | .starve s' ps => s.starveNew s' g ps
        | .bad s lane va => some (s.lateFault g o lane va)
    | .accLdFe tile addr pend got =>
      let G := s.group g
      let tid := G.team
      let full := pend.filter (s.feGet tid)
      match s.feHalted tid pend with
      | some (_, q, code) => some (s.queueFaultWait g o o.held 0 q code)
      | none =>
        match s.tileFeTest G.core tid full got with
        | .ok s (left, got) =>
          let rest := pend.filter fun a => !(full.contains a) || left.contains a
          if rest.isEmpty && s.tileFull (s.group g).core then none
          else
            let put := fun (k : OKind) => s.modGroup g fun G => { G with outst := G.outst.map fun y => if y.id == o.id then { y with kind := k } else y }
            if rest.isEmpty then some ((put .tile).acceptTile g o.id o.pc tile (.ld (tileVals addr got)))
            else if rest.length == pend.length then none
            else some (put (.accLdFe tile addr rest got))
        | .starve s' ps => s.starveNew s' g ps
        | .bad s _ va => some (s.lateFault g o 0 va)
    | _ => none

/-- FE_WAIT_SATISFY: granules found full leave the wait; it ends when none is left (13 R327). -/
def execFeWaitSatisfy (g word : Nat) (s : State) : Outcome State Fault Refusal :=
  onWait s g word fun o => match o.kind with
    | .feWait pend =>
      let G := s.group g
      let tid := G.team
      let full := pend.filter (s.feGet tid)
      match s.feHalted tid pend with
      | some (_, q, code) => some (s.queueFaultWait g o o.held 0 q code)
      | none =>
        match s.feTest G.core tid full with
        | .ok s left =>
          let rest := pend.filter fun a => !(full.contains a) || left.contains a
          if rest.isEmpty then some (s.complete g o [])
          else if rest.length == pend.length then none
          else some (s.modGroup g fun G => { G with outst := G.outst.map fun y => if y.id == o.id then { y with kind := .feWait rest } else y })
        | .starve s' ps => s.starveNew s' g ps
        | .bad s _ va => some (s.lateFault g o 0 va)
    | _ => none

/-! ## spin, sunpin (10 R268, R269) -/

/-- The pages of a range of the group's slot; none where it leaves the slot. -/
def Ctx.pinRange (x : Ctx) (f : F64) : Option (List Nat) :=
  let a := (x.sreg f.a).toNat
  let n := (x.sreg f.b).toNat
  if n == 0 then some []
  else if x.s.slotLen x.team < a + n then none
  else some (pagesOf (x.s.slotBase x.team x.G + a) n)

/-- Frames of a core that hold pinned pages; those of a saved team, which keep their PIN, count too (DESIGN CHOICE, log 38). -/
def State.pinnedFrames (s : State) (core : Nat) : Nat :=
  ((s.core core).frames.filter fun f => l0Pin (s.rdMem (s.l0Addr (s.team f.team) f.page) 8)).length

def execSpin (c : Ctl) (f : F64) (s : State) : Outcome State Fault Refusal :=
  groupWide (.spin c f) c s fun x =>
    let done := fun (s : State) (v : Word) => Res.out s (x.oword [.s f.d.toNat] (.land [.s f.d.toNat v]))
    match x.pinRange f with
    | none => .trap x.s 0x20 0 (x.sreg f.a).toNat 0
    | some ps =>
      let new := ps.filter fun p => !(l0Pin (x.s.rdMem (x.s.l0Addr x.team p) 8))
      if ps.isEmpty then done x.s 1#64
      else if Config.maxPinned < x.s.pinnedFrames x.G.core + new.length then done x.s 0#64
      else match x.s.bring x.G.core x.tid ps with
        | .ok s _ => done (ps.foldl (fun s p => s.l0Mod x.tid p fun e => setBits e 3 1 1) s) 1#64
        | .starve s w => x.starve s w
        | .bad s lane va => .out s (x.oword [.s f.d.toNat] (.bad lane va))

def execSunpin (c : Ctl) (f : F64) (s : State) : Outcome State Fault Refusal :=
  groupWide (.sunpin c f) c s fun x =>
    match x.pinRange f with
    | none => .trap x.s 0x20 0 (x.sreg f.a).toNat 0
    | some ps => .go (ps.foldl (fun s p => s.l0Mod x.tid p fun e => setBits e 3 1 0) x.s)

/-! ## PAGE_FILL, SPAD_STARVED_TIMEOUT (20 R434-R436) -/

/-- A pinned page is no longer waited for. -/
def State.unpinned (s : State) (team page : Nat) : State := s.modTeam team fun t => { t with pins := t.pins.filter (· != page) }

/-- The port core fills a page that some group of the team waits for, or a pinned page of a team that has resumed (20 R437); one whose
backing page is refused is not waited for. -/
def execPageFill (team page : Nat) (s : State) : Outcome State Fault Refusal :=
  let t := s.team team
  let pin := t.life == .running && t.pins.contains page
  event s (if pin || t.groups.any fun g => (s.group g).want.contains page then
      match s.fillPage team page ((t.groups.flatMap fun g => (s.group g).want.map fun p => (team, p)) ++ t.pins.map fun p => (team, p)) with
      | .ok s =>
        let s : State := s.unpinned team page
        some { s with groups := s.groups.map fun G => if G.team == team then { G with want := G.want.filter (· != page) } else G }
      | .error c => if pin && c == 0x60 then some (s.unpinned team page) else none
    else none)

/-- A word that is outstanding while it needs scratchpad pages. -/
def OKind.wantsPages : OKind → Bool
  | .feLoad .. | .accLdFe .. | .feWait .. | .gwalk .. => true
  | _ => false

/-- The lanes that a waiting word has not performed. -/
def OWord.waitingLanes (o : OWord) : List Nat :=
  match o.kind with
  | .feLoad pend _ _ _ => pend.map (·.lane)
  | _ => o.held

/-- After 100 µs without a frame the waiting word takes SPAD_STARVED, with no effect in any lane that waits. -/
def execSpadStarvedTimeout (g : Nat) (s : State) : Outcome State Fault Refusal :=
  let G := s.group g
  event s (if s.runs g && !G.want.isEmpty && G.since + 100 * Config.cyclesPerUs ≤ s.clock then
      match G.suspend with
      | some (pc, .frame) =>
        let next := match s.fetch g pc with | .word i => nextPc pc i.size | _ => pc
        let frag := G.fragment pc
        some (s.groupFault g ⟨0x21, 0, frag.headD 0, 0, pc, G.want.headD 0 * 4096, false, frag, next, false, 0⟩)
      | _ => (G.outst.find? fun o => o.kind.wantsPages).map fun o =>
        let s : State := s.modCore G.core fun k => { k with walks := k.walks.filter fun w => w != (g, o.id) }
        let stay := o.waitingLanes
        (s.takeBackFor g o stay).groupFault g ⟨0x21, 0, stay.headD 0, 0, o.pc, G.want.headD 0 * 4096, false, stay, o.next, false, 0⟩
    else none)

end Sys2Proof.Machine
end

