-- ==== Sys2Proof/Machine/Engine.lean ====
section
/-! DEFINITION. Engine.lean: engine queues, their commands at issue and in the plane copy engines (13 R311-R323; 05
R139-R142). Each event carries on the command at the head of a queue. -/

namespace Sys2Proof.Machine

open Host (Outcome)

/-! ## Issue (13 R312, R313) -/

/-- The region a scratchpad operand names: team-space address, or SPAD_NOTMAPPED, or MISALIGNED. -/
def Ctx.region (x : Ctx) (rem : Bool) (a len : Nat) : Except (Nat × Nat) Nat :=
  let lim := if rem then x.s.spaceLen x.team else x.s.slotLen x.team
  if lim < a + len then .error (0x20, a)
  else if a % 16 != 0 then .error (0x13, a)
  else .ok ((if rem then 0 else x.s.slotBase x.team x.G) + a)

/-- Steps 2, 3 and 4 of 10 R249 on a command, in order (13 R313): what each finds. -/
structure CmdCheck where
  bounds : Option (Nat × Nat)
  range : Option (Nat × Nat)
  align : Option (Nat × Nat)

def CmdCheck.none : CmdCheck := ⟨.none, .none, .none⟩

/-- A command's `n` bytes from offset `o` of a KIND 1 or 2 record; `al` asks for a multiple of 16. Bytes out of bounds take no
further step. -/
def globalRegion (r : Nat) (o : Int) (n : Nat) (al : Bool) : CmdCheck :=
  let lo := (max o 0).toNat
  let hi := (min (o + n) (recExtent r)).toNat
  let live := recKind r != 0 && lo < hi
  let a := recAddr r lo
  let z := recAddr r (hi - 1)
  { bounds := if recStrict r && !(recIn r o n) then some (0x10, 0) else none
    range := if !live then none else if 2 ^ 56 ≤ a then some (0x11, a) else if 2 ^ 56 ≤ z then some (0x12, a) else none
    align := if live && al && (if 0 ≤ o then (a : Int) else recBase r + o) % 16 != 0 then some (0x13, a) else none }

/-- `x` staged lines from element `o` of a KIND 3 record. -/
def planeRegion (r : Nat) (o : Int) (x kk : Nat) : CmdCheck :=
  let e := o + 128 * x
  let lo := (max o 0).toNat
  let hi := (min e (recExtent r)).toNat
  let spans := (expAddr r (lo / 32), expAddr r ((hi - 1) / 32)) :: (List.range kk).map fun j => (planeAddr r j lo, planeAddr r j (hi - 1))
  { bounds := if recStrict r && !(0 ≤ o && e ≤ (recExtent r : Int)) then some (0x10, 0) else none
    range := if hi ≤ lo then none else spans.findSome? fun p =>
      if 2 ^ 56 ≤ p.1 then some (0x11, p.1) else if 2 ^ 56 ≤ p.2 then some (0x12, p.1) else none
    align := if o % 128 != 0 || recBase r % 128 != 0 || recMoff r % 128 != 0 || recPstride r % 128 != 0 then
      some (0x13, expAddr r (lo / 32)) else none }

/-- Steps 2 to 4 over a command's global part and its scratchpad regions: bounds, then ranges, then alignments. -/
def Ctx.regions (x : Ctx) (g : CmdCheck) (rem : Bool) (rs : List (Nat × Nat)) : Option (Nat × Nat) :=
  let lim := if rem then x.s.spaceLen x.team else x.s.slotLen x.team
  ([g.bounds, g.range] ++ (rs.map fun (r : Nat × Nat) => if lim < r.1 + r.2 then some (0x20, r.1) else none) ++ [g.align] ++
    rs.map fun (r : Nat × Nat) => if r.1 % 16 != 0 then some (0x13, r.1) else none).findSome? id

/-- The team-space address of a scratchpad operand. -/
def Ctx.regionAt (x : Ctx) (rem : Bool) (a : Nat) : Nat := (if rem then 0 else x.s.slotBase x.team x.G) + a

/-- The routine table's entry: address and size when it is VALID with no reserved bit (18 R386). -/
def State.routine (s : State) (ten n : Nat) : Option (Nat × Nat) :=
  let e := s.rdMem ((s.ten ten).rtbase + 16 * n) 16
  if bitAt e 0 && bitsOf e 96 32 == 0 && bitsOf e 1 11 == 0 && bitsOf e 52 12 == 0 then some (bitsOf e 12 40 * 4096, bitsOf e 64 32) else none

def Team.queue (t : Team) (q : Nat) : EngQueue := t.queues.getD q ⟨0, 0, [], true, none, 0, none⟩

/-- Words of the group that a `.rel` command follows (05 R140). -/
def Group.openWords (G : Group) : List Nat := (G.outst.filter fun o => (o.isLoad || o.isStore) && !o.kind.isWait && !o.unOnly).map (·.id)

/-- Words of a group whose forwarded accesses were lost and not reported yet (05 R148). -/
def State.lostWords (s : State) (g : Nat) : List Nat :=
  (s.sent.filter fun q => q.g == g && q.lost && (q.kind == .fwdStore || q.kind == .fwdLoad)).map (·.word)

/-- Accept a command into queue `q` (13 R311). -/
def Ctx.accept (x : Ctx) (s : State) (q : Nat) (op : Nat → CmdOp) (addr : Nat) (brec : Rec256) (off : Int) (rel : Bool) : State :=
  s.modTeam x.tid fun t => { t with queues := modAt t.queues q fun e =>
    { e with accepted := e.accepted + 1,
             pending := e.pending ++ [{ pc := x.pc, op := op (e.accepted + 1), addr := addr, brec := brec, off := off,
                                        levelS := x.G.levelS, core := x.G.core, g := x.g, seq := x.G.seq, ord := e.accepted + 1, pos := 0,
                                        after := if rel then (x.G.openWords ++ s.lostWords x.g).map fun w => (x.g, w) else [],
                                        performed := false }] } }

/-- Issue of a command to queue `q`: ILLEGAL_INSTR for a queue the kernel has not, room, then `chk`, then QUEUE_FAULT. -/
def Ctx.command (x : Ctx) (q : Nat) (chk : Except (Nat × Nat) State) : Res :=
  let e := x.team.queue q
  if x.hdr.queues ≤ q then .trap x.s 0x01 0 0 0
  else if Config.engineQueueDepth ≤ e.pending.length then .stall x.s .room false
  else match chk with
    | .error (code, va) => .trap x.s code 0 va 0
    | .ok s =>
      if e.halted then .trap x.s 0x35 0 0 (queueInfo q (match e.flt with | some f => f.1 | none => 0))
      else .go s

def cmdQueue (w : W128) : Nat := fld w.d 0 3
def cmdRel (w : W128) : Bool := fld w.d 3 1 == 1
def cmdRem (w : W128) : Bool := fld w.d 4 1 == 1

/-- A data command over a record: its fields, the record, then steps 2 to 4, and acceptance. -/
def Ctx.dataCmd (x : Ctx) (w : W128) (kinds : List Nat) (fields : Nat → Bool) (chk : Nat → Int → CmdCheck) (len : Nat → Nat) (op : CmdOp) : Res :=
  let r := (x.breg w.b).toNat
  let o := (x.sreg w.c).toInt
  let a := (x.sreg w.a).toNat
  x.command (cmdQueue w)
    (if recBad r kinds || !fields r then .error (0x02, 0)
     else match x.regions (chk r o) (cmdRem w) [(a, len r)] with
       | some e => .error e
       | none => .ok (x.accept x.s (cmdQueue w) (fun _ => op) (x.regionAt (cmdRem w) a) (x.breg w.b) o (cmdRel w)))

/-- The count and k of `pcopy` and `pstore` (13 R315, R317). -/
def copyFields (w : W128) (r : Nat) : Bool :=
  let n := w.x.toNat
  let k := w.y.toNat
  if recKind r == 3 then k != 0 && n ≤ 2 ^ 16 else k == 0 && n % 16 == 0 && n ≤ 2 ^ 24

def copyCheck (w : W128) (r : Nat) (o : Int) : CmdCheck :=
  if recKind r == 3 then planeRegion r o w.x.toNat (min w.y.toNat (recMw r)) else globalRegion r o w.x.toNat true

def stagedLen (w : W128) (r : Nat) : Nat := if recKind r == 3 then 144 * w.x.toNat else w.x.toNat

def execPcopy (c : Ctl) (w : W128) (s : State) : Outcome State Fault Refusal :=
  groupWide (.pcopy c w) c s fun x => x.dataCmd w [1, 2, 3] (copyFields w) (copyCheck w) (stagedLen w) (.pcopy w.x.toNat w.y.toNat)

def execPcopyRf (c : Ctl) (w : W128) (s : State) : Outcome State Fault Refusal :=
  groupWide (.pcopyRf c w) c s fun x =>
    x.dataCmd w [3] (fun _ => true) (fun r o => planeRegion r o w.x.toNat (min w.y.toNat (recMw r))) (fun _ => 144 * w.x.toNat)
      (.pcopyRf w.x.toNat w.y.toNat)

def execPstore (c : Ctl) (w : W128) (s : State) : Outcome State Fault Refusal :=
  groupWide (.pstore c w) c s fun x => x.dataCmd w [1, 2, 3] (copyFields w) (copyCheck w) (stagedLen w) (.pstore w.x.toNat w.y.toNat)

def execPfill (c : Ctl) (w : W128) (s : State) : Outcome State Fault Refusal :=
  groupWide (.pfill c w) c s fun x =>
    let a := (x.sreg w.a).toNat
    x.command (cmdQueue w) (match x.regions .none (cmdRem w) [(a, w.x.toNat)] with
      | some e => .error e
      | none => .ok (x.accept x.s (cmdQueue w)
          (fun _ => .pfill w.x.toNat ((x.sreg w.c).setWidth 32) w.mod.toNat) (x.regionAt (cmdRem w) a) 0#256 0 (cmdRel w)))

/-- Bytes of the source of a routine, in global memory or in a second scratchpad region (13 R320). -/
def routineSrc (r n p : Nat) : Nat :=
  if r == 1 then n * fmtBytes (bitsOf p 0 4) else if r == 2 then 4 * n else if r == 3 then 4 * n * 2 ^ p
  else if r == 4 then 512 * n else 0

/-- The parameter and direction a routine of 13 R320 accepts; other numbers are not known to the model. The spec gives RESERVED_FIELD
for a parameter only; a direction that the row does not list counts as one (DESIGN CHOICE, log 23). -/
def routineOk (r p dir : Nat) : Bool :=
  if r == 1 then 1 ≤ bitsOf p 0 4 && bitsOf p 0 4 ≤ 5 && 1 ≤ bitsOf p 4 4 && bitsOf p 4 4 ≤ 5
  else if r == 2 then dir == 0 && p ≤ 4
  else if r == 3 then dir == 0 && p ≤ 10
  else if r == 4 then dir != 1 && 2 ≤ p && p ≤ 8
  else true

/-- `pxform` at issue: the regions that the routine number and its parameter give are checked (13 R313, R319, R320). A record of KIND 3
raises RESERVED_FIELD, `.rem` applies to both scratchpad regions, and the global address needs no alignment (DESIGN CHOICE, log 23). -/
def execPxform (c : Ctl) (w : W128) (s : State) : Outcome State Fault Refusal :=
  groupWide (.pxform c w) c s fun x =>
    let n := w.x.toNat
    let y := w.y.toNat
    let rt := bitsOf y 0 8
    let p := bitsOf y 16 8
    let dir := w.mod.toNat
    let known := 1 ≤ rt && rt ≤ 4 && routineOk rt p dir
    let src := if known then routineSrc rt n p else 0
    let r := (x.breg w.b).toNat
    let o := (x.sreg w.c).toInt
    let oN := (x.sreg w.c).toNat
    let a := (x.sreg w.a).toNat
    let cmd : Cmd := { pc := x.pc, op := .pxform n rt 0 p 0 none, addr := 0, brec := 0#256, off := 0, levelS := true, core := 0, g := 0, seq := 0,
                       ord := 0, pos := 0, after := [], performed := false }
    let dst := if known then cmd.destLen else 0
    -- the gather's indices, and the source of a scratchpad to scratchpad routine, are a second scratchpad region
    let second := dir == 2 || (dir == 0 && rt == 2)
    let chk := if !second && known then globalRegion r o (if dir == 1 then dst else src) false else .none
    let rs := (if second then [(oN, src)] else []) ++ [(a, if dir == 1 then src else dst)]
    x.command (cmdQueue w)
      (if dir != 2 && recBad r [1, 2] then .error (0x02, 0)
       else match x.regions chk (cmdRem w) rs with
        | some e => .error e
        | none =>
          let off : Int := if second then (x.regionAt (cmdRem w) oN : Int) else o
          .ok (x.accept x.s (cmdQueue w) (fun _ => .pxform n rt (bitsOf y 8 8) p dir (x.s.routine x.ten rt)) (x.regionAt (cmdRem w) a)
            (x.breg w.b) off (cmdRel w)))

/-- `qmark`: the count includes the marker (13 R323). -/
def execQmark (c : Ctl) (f : F64) (s : State) : Outcome State Fault Refusal :=
  groupWide (.qmark c f) c s fun x =>
    x.command f.d.toNat (match x.region (f.c.toNat == 1) (x.sreg f.a).toNat 16 with
      | .error e => .error e
      | .ok addr => .ok (x.accept x.s f.d.toNat (fun n => .qmark (x.sreg f.b) n) addr 0#256 0 false))

/-- The queues of a mask (13 R322). -/
def maskQueues (f : F64) : List Nat := (List.range 8).filter fun q => bitAt (f.b.toNat + 128 * fld f.c 6 1) q

/-- Checks on every queue of a mask: ILLEGAL_INSTR, room where it is wanted, QUEUE_FAULT. -/
def Ctx.masked (x : Ctx) (qs : List Nat) (room : Bool) (k : Res) : Res :=
  if qs.any fun q => x.hdr.queues ≤ q then .trap x.s 0x01 0 0 0
  else if room && qs.any fun q => Config.engineQueueDepth ≤ (x.team.queue q).pending.length then .stall x.s .room false
  else match qs.find? fun q => (x.team.queue q).halted with
    | some q => .trap x.s 0x35 0 0 (queueInfo q (match (x.team.queue q).flt with | some f => f.1 | none => 0))
    | none => k

/-- `qfence` is accepted into every named queue; commands accepted before it must complete first (05 R141). -/
def execQfence (c : Ctl) (f : F64) (s : State) : Outcome State Fault Refusal :=
  groupWide (.qfence c f) c s fun x =>
    let qs := maskQueues f
    let upto := qs.map fun q => (q, (x.team.queue q).accepted)
    x.masked qs true (.go (qs.foldl (fun s q =>
      x.accept s q (fun _ => .qfence (laneBits qs) upto) 0 0#256 0 false) x.s))

def Team.counted (t : Team) (upto : List (Nat × Nat)) : Bool := upto.all fun u => u.2 ≤ (t.queue u.1).completed

/-- `qwait` (13 R322): an acquire at `.dev` once the commands accepted by its issue have completed. -/
def execQwait (c : Ctl) (f : F64) (s : State) : Outcome State Fault Refusal :=
  groupWide (.qwait c f) c s fun x =>
    let qs := maskQueues f
    let upto := qs.map fun q => (q, (x.team.queue q).accepted)
    x.masked qs false
      (if x.team.counted upto then .go (x.s.l1Acquire x.G.core 4)
       else .hold x.s { x.holding [] (.qWait upto) with acq := 4 })

/-- QWAIT_SATISFY; a queue of the mask that has halted raises QUEUE_FAULT instead. -/
def execQwaitSatisfy (g word : Nat) (s : State) : Outcome State Fault Refusal :=
  onWait s g word fun o => match o.kind with
    | .qWait upto =>
      let t := s.team (s.group g).team
      if t.counted upto then some (s.complete g o [])
      else match upto.find? fun u => (t.queue u.1).halted with
        | some u => some (s.queueFaultWait g o o.held 0 u.1 (match (t.queue u.1).flt with | some f => f.1 | none => 0))
        | none => none
    | _ => none

/-- TOKWAIT_TAKE: a waiting `tokwait` takes the token (07 R192). -/
def execTokwaitTake (g word : Nat) (s : State) : Outcome State Fault Refusal :=
  onWait s g word fun o => match o.kind with
    | .tokWait =>
      let G := s.group g
      let h := (s.core G.core).token.getD G.quarter none
      if h == none || h == some g then
        some ((s.modCore G.core fun k => { k with token := modAt k.token G.quarter fun _ => some g }).complete g o [])
      else none
    | _ => none

/-! ## The engine -/

/-- How a line of a command ends early: its queue halts; or it waits, having done nothing but ask for what it lacks; or its page finds
no frame. -/
inductive EFail where
  | halt (s : State) (code va : Nat)
  | wait (ask : State → State)
  | frame (page : Nat)

/-- The requester number of a queue. -/
def queueWho (tid q : Nat) : Nat := 10 ^ 9 + 16 * tid + q

/-- What an engine works with: the state, the team and queue, the command. -/
structure Eng where
  tid : Nat
  q : Nat
  c : Cmd

def Eng.ten (e : Eng) (s : State) : Nat := (s.team e.tid).ten
def Eng.who (e : Eng) : Nat := queueWho e.tid e.q

/-- SO accesses of the issuing group that come before those of the command are not complete (05 R121). -/
def Eng.soWaits (e : Eng) (s : State) : Bool :=
  ((s.group e.c.g).outst.any fun o => o.so && o.id < e.c.seq) || s.soCmds e.tid e.c.g e.c.seq

/-- Steps 5 and 6 for one line of a command (13 R313). -/
def Eng.line (e : Eng) (s : State) (va : Nat) (how : How) : Except EFail XLine :=
  if 2 ^ 56 ≤ va then .error (.halt s 0x11 va)
  else match s.xlate e.c.core (e.ten s) e.c.levelS e.who va how true with
  | .ok l =>
    if how.needR && l.own == .here && s.poisoned l.pa then .error (.halt s 0x60 va)
    else if (l.kind == .so && e.soWaits s) || (l.own == .here && s.hbmWaits l.pa) then .error (.wait id)
    else .ok l
  | .fault code => .error (.halt (s.atsForget e.who) code va)
  | .dead _ => .error (.halt s 0x33 va)
  | .hostPage => .error (.wait id)
  | .miss | .missHost => .error (.wait fun s => (s.pendWalk e.c.core (e.ten s) e.who e.c.pc va).getD s)
  | .ats => .error (.wait fun s => s.atsAsk e.c.core (e.ten s) e.who va how)

/-- Read `n` bytes inside one line; a line of a peer comes whole, as the answer to a forwarded access. -/
def Eng.read (e : Eng) (s : State) (va n cls : Nat) : Except EFail (List Byte × State) :=
  match e.line s va .load with
  | .error f => .error f
  | .ok l => match l.own with
    | .here => .ok (s.homeRead .here l.pa n, s.touch l.pa cls false)
    | .host => .ok (s.homeRead .host l.pa n, s)
    | .peer p => match s.askedLine .engLoad e.who p l.pa n with
      | .got bs => .ok (bs, s)
      | .dead => .error (.halt s 0x33 va)
      | .pending => .error (.wait id)
      | .unasked => .error (.wait fun s => s.askLine .engLoad (e.ten s) e.tid e.who e.c.ord p l.pa va l.cnt)

/-- A byte that an engine writes: address, depth class, mask of the bits it writes, value. -/
abbrev EngByte := Nat × Nat × Byte × Byte

/-- Write bytes of one line as one write (05 R137: a peer's at line grain). -/
def Eng.writeLine (e : Eng) (s : State) (ws : List EngByte) : Except EFail State :=
  match ws with
  | [] => .ok s
  | w0 :: _ => match e.line s w0.1 .store with
    | .error f => .error f
    | .ok l =>
      let b := lineBytes (ws.map fun w => (w.1 % 128, [w.2.2.1], [w.2.2.2]))
      match l.own with
      | .peer p => .ok (s.forwardTo .engStore (e.ten s) e.tid e.who e.c.ord p (l.pa / 128 * 128) w0.1 128 l.cnt (.writeMasked b.1 b.2)).2
      | own =>
        let lo := (ws.map fun w => w.1 % 128).foldl min 128
        let n := (ws.map fun w => w.1 % 128).foldl max 0 + 1 - lo
        let pa := l.pa / 128 * 128 + lo
        let s : State := match own with | .here => s.touch l.pa w0.2.1 true | _ => s
        .ok (s.homeWrite own pa (maskInto (s.homeRead own pa n) ((b.1.drop lo).take n) ((b.2.drop lo).take n)))

/-- Write bytes, line by line in the order in which the lines come. -/
def Eng.writes (e : Eng) (s : State) (ws : List EngByte) : Except EFail State :=
  (ws.foldl (fun (ls : List Nat) w => if ls.contains (w.1 / 128) then ls else ls ++ [w.1 / 128]) []).foldlM
    (fun s l => e.writeLine s (ws.filter fun w => w.1 / 128 == l)) s

/-- Pages of scratchpad made resident for the engine; their port core's STB takes the entries. -/
def Eng.pages (e : Eng) (s : State) (addr n : Nat) (rd : Bool) : Except EFail State :=
  let core := s.portCore (s.team e.tid) addr
  match if rd then s.bringRead core e.tid [(addr, n)] else s.bring core e.tid (pagesOf addr n) with
  | .ok s _ => .ok s
  | .starve _ ps => .error (.frame (ps.headD 0))
  | .bad s _ va => .error (.halt s 0x60 va)

/-- Scratchpad bytes read and written by the engine; written granules become full. -/
def Eng.spGet (e : Eng) (s : State) (addr n : Nat) : Except EFail (List Byte × State) :=
  (e.pages s addr n true).map fun s => (s.spRead e.tid addr n, s)
def Eng.spPut (e : Eng) (s : State) (addr : Nat) (bs : List Byte) : Except EFail State :=
  (e.pages s addr bs.length false).map fun s => s.spWriteFull e.tid addr bs

/-- A byte at an offset of the command's KIND 0, 1 or 2 record; out of bounds it reads as zero (13 R313). -/
def Eng.byteAt (e : Eng) (s : State) (o : Int) : Except EFail (Byte × State) :=
  let r := e.c.brec.toNat
  if recIn r o 1 then (e.read s (recAddr r o.toNat) 1 0).map fun p => (p.1.headD 0#8, p.2) else .ok (0#8, s)

/-- `n` bytes from an offset: one read where they lie in bounds and in one line, else byte by byte. -/
def Eng.bytesAt (e : Eng) (s : State) (o : Int) (n : Nat) : Except EFail (List Byte × State) :=
  let r := e.c.brec.toNat
  let a := recAddr r o.toNat
  if recIn r o n && recAddr r (o.toNat + n - 1) == a + n - 1 && a / 128 == (a + n - 1) / 128 then e.read s a n 0
  else (List.range n).foldlM (fun (p : List Byte × State) (i : Nat) =>
    (e.byteAt p.2 (o + (i : Int))).map fun b => (p.1 ++ [b.1], b.2)) ([], s)

/-- The writes of bytes from an offset; those out of bounds are not written. -/
def Eng.bytesTo (e : Eng) (o : Int) (bs : List Byte) : List EngByte :=
  bs.zipIdx.filterMap fun b => if recIn e.c.brec.toNat (o + b.2) 1 then some (recAddr e.c.brec.toNat (o + b.2).toNat, 0, 0xFF#8, b.1) else none

/-! ## Commands, line by line (13 R313): each does its line `u` -/

/-- In-bound exponents of staged line `f`, one read each (13 R315). -/
def Eng.exps (e : Eng) (s : State) (f : Int) : Except EFail (List Byte × State) :=
  let r := e.c.brec.toNat
  (List.range 4).foldlM (fun (p : List Byte × State) (b : Nat) =>
    let i := f + 32 * b
    if recIn r i 1 then (e.read p.2 (expAddr r (i.toNat / 32)) 1 0).map fun x => (p.1 ++ x.1, x.2) else .ok (p.1 ++ [0#8], p.2)) ([], s)

/-- Planes `p … k - 1` of the in-bound elements of the line at element `f`, merged into `bytes`. -/
def Eng.planes (e : Eng) (s : State) (f : Int) (p k : Nat) (bytes : List Byte) : Except EFail (List Byte × State) :=
  let r := e.c.brec.toNat
  let idx := (List.range 16).filter fun (q : Nat) => (List.range 8).any fun (i : Nat) => recIn r (f + (8 * q + i : Nat)) 1
  ((List.range k).filter fun j => p ≤ j).foldlM (fun (b : List Byte × State) j =>
    match idx with
    | [] => .ok b
    | q0 :: _ =>
      let va := planeAddr r j ((f + (8 * q0 : Nat)).toNat)
      (e.read b.2 va idx.length (j + 1)).map fun got =>
        let merged := b.1.zipIdx.map fun (x : Byte × Nat) =>
          if recIn r (f + x.2) 1 then setBit x.1 (7 - j) ((got.1.getD (x.2 / 8 - q0) 0#8).getLsbD ((f + x.2).toNat % 8)) else x.1
        (merged, got.2)) (bytes, s)

/-- A staged line (13 R314). -/
def stagedBytes (mant exps : List Byte) (pln : Nat) (unf : List Nat) : List Byte :=
  mant ++ exps ++ [BitVec.ofNat 8 pln, 0#8, 0#8, 0#8] ++ unf.map (BitVec.ofNat 8) ++ List.replicate 4 0#8

/-- 13 R315: a staged line, or 128 bytes. -/
def Eng.pcopy (e : Eng) (x k u : Nat) (s : State) : Except EFail State :=
  let r := e.c.brec.toNat
  if recKind r == 3 then do
    let kk := min k (recMw r)
    let f := e.c.off + (128 * u : Nat)
    let (ex, s) ← e.exps s f
    let (m, s) ← e.planes s f 0 kk (List.replicate 128 0#8)
    e.spPut s (e.c.addr + 144 * u) (stagedBytes m ex (if kk == recMw r then 8 else kk) [0, 0, 0, 0])
  else (((List.range 8).map fun i => 128 * u + 16 * i).filter (· < x)).foldlM (fun s (i : Nat) => do
    let (bs, s) ← e.bytesAt s (e.c.off + i) 16
    e.spPut s (e.c.addr + i) bs) s

/-- 13 R316. -/
def Eng.pcopyRf (e : Eng) (k u : Nat) (s : State) : Except EFail State := do
  let r := e.c.brec.toNat
  let kk := min k (recMw r)
  let a := e.c.addr + 144 * u
  let (line, s) ← e.spGet s a 144
  let p := (line.getD 132 0#8).toNat
  if p == 8 || kk ≤ p then .ok s
  else do
    let (m, s) ← e.planes s (e.c.off + (128 * u : Nat)) p kk (line.take 128)
    e.spPut s a (m ++ (line.drop 128).take 4 ++ [BitVec.ofNat 8 (if kk == recMw r then 8 else kk)] ++ line.drop 133)

/-- Masked bytes of one plane of a staged line: bits of in-bound elements. -/
def planeMask (r : Nat) (f : Int) (j : Nat) (mant : List Byte) (q : Nat) : Nat × Byte × Byte :=
  let mv := (List.range 8).foldl (fun (mv : Nat × Nat) (i : Nat) =>
    if recIn r (f + (8 * q + i : Nat)) 1 then
      (mv.1 + 2 ^ i, mv.2 + ((mant.getD (8 * q + i) 0#8).getLsbD (7 - j)).toNat * 2 ^ i) else mv) (0, 0)
  (q, BitVec.ofNat 8 mv.1, BitVec.ofNat 8 mv.2)

/-- The writes of a staged line: its in-bound exponents, then a masked chunk of each plane (13 R317). -/
def stagedWrites (r : Nat) (f : Int) (kk : Nat) (line : List Byte) : List EngByte :=
  ((List.range 4).filterMap fun (b : Nat) =>
    if recIn r (f + (32 * b : Nat)) 1 then some (expAddr r ((f + (32 * b : Nat)).toNat / 32), 0, 0xFF#8, line.getD (128 + b) 0#8) else none) ++
  (List.range kk).flatMap fun (j : Nat) => (((List.range 16).map (planeMask r f j line)).filter fun b => b.2.1 != 0#8).map fun b =>
    (planeAddr r j ((f + (8 * b.1 : Nat)).toNat), j + 1, b.2.1, b.2.2)

/-- 13 R317: a staged line, or 128 bytes. -/
def Eng.pstore (e : Eng) (x k u : Nat) (s : State) : Except EFail State :=
  let r := e.c.brec.toNat
  if recKind r == 3 then do
    let (line, s) ← e.spGet s (e.c.addr + 144 * u) 144
    e.writes s (stagedWrites r (e.c.off + (128 * u : Nat)) (min k (recMw r)) line)
  else do
    let (bs, s) ← e.spGet s (e.c.addr + 128 * u) (min 128 (x - 128 * u))
    e.writes s (e.bytesTo (e.c.off + (128 * u : Nat)) bs)

/-- 13 R318: a granule. -/
def Eng.pfill (e : Eng) (val : Lane32) (fe u : Nat) (s : State) : Except EFail State := do
  let a := e.c.addr + 16 * u
  let s ← e.pages s a 16 false
  let s := s.spWrite e.tid a ((List.range 4).flatMap fun _ => leBytes 4 val.toNat)
  .ok (if fe == 0 then s else s.feSet e.tid a (fe == 1))

/-! ## Routines (13 R320) -/

/-- An element of `n` bytes at an offset: zeros unless every byte is in bounds (02 R57). -/
def Eng.elemAt (e : Eng) (s : State) (o : Int) (n : Nat) : Except EFail (List Byte × State) :=
  if recIn e.c.brec.toNat o n then e.bytesAt s o n else .ok (List.replicate n 0#8, s)

/-- An element of a routine's source: global (direction 00), the second scratchpad region (10), or the region at sA (01). -/
def Eng.srcBytes (e : Eng) (dir : Nat) (s : State) (i n : Nat) : Except EFail (List Byte × State) :=
  if dir == 0 then e.elemAt s (e.c.off + i) n
  else if dir == 2 then e.spGet s (e.c.off.toNat + i) n
  else e.spGet s (e.c.addr + i) n

/-- Elements of `n` bytes from the source, in order. -/
def Eng.srcElems (e : Eng) (dir n : Nat) (is : List Nat) (s : State) : Except EFail (List Nat × State) :=
  is.foldlM (fun (b : List Nat × State) (i : Nat) => (e.srcBytes dir b.2 (i * n) n).map fun got => (b.1 ++ [leNat got.1], got.2)) ([], s)

/-- Consecutive elements of `n` bytes of a routine's destination, from element `i`: scratchpad at sA, or global (direction 01), where
each is written when it is in bounds. -/
def Eng.dstElems (e : Eng) (dir n i : Nat) (vs : List Nat) (s : State) : Except EFail State :=
  if vs.isEmpty then .ok s
  else if dir != 1 then e.spPut s (e.c.addr + i * n) (vs.flatMap (leBytes n))
  else e.writes s (vs.zipIdx.flatMap fun v =>
    let o : Int := e.c.off + ((i + v.2) * n : Nat)
    if recIn e.c.brec.toNat o n then e.bytesTo o (leBytes n v.1) else [])

/-- 128 elements. Those before one that the policy faults are written. -/
def Eng.convert (e : Eng) (n pol p dir u : Nat) (s : State) : Except EFail State := do
  let sf := bitsOf p 0 4
  let df := bitsOf p 4 4
  let (xs, s) ← e.srcElems dir (fmtBytes sf) (((List.range 128).map (128 * u + ·)).filter (· < n)) s
  let cv := if sf == 1 then (Fmt.ofCode df).resolve else (Fmt.ofCode df).convert
  let vs := ((xs.map fun v => cv .rne pol ((Fmt.ofCode sf).decode v)).takeWhile (·.isSome)).filterMap id
  let s ← e.dstElems dir (fmtBytes df) (128 * u) vs s
  if vs.length < xs.length then .error (.halt s 0x40 0) else .ok s

/-- An element. -/
def Eng.gather (e : Eng) (p u : Nat) (s : State) : Except EFail State := do
  let r := e.c.brec.toNat
  let (ix, s) ← e.spGet s (e.c.off.toNat + 4 * u) 4
  let o : Int := ((leNat ix * 2 ^ p : Nat) : Int)
  if recStrict r && !(recIn r o (2 ^ p)) then .error (.halt s 0x10 0)
  else match if recIn r o (2 ^ p) then rangeFault 0 (recAddr r o.toNat) (recAddr r (o.toNat + 2 ^ p - 1)) else none with
    | some (code, _, va) => .error (.halt s code va)
    | none => do
      let (bs, s) ← e.elemAt s o (2 ^ p)
      e.spPut s (e.c.addr + u * 2 ^ p) bs

/-- 32 source elements. -/
def Eng.transpose (e : Eng) (n p u : Nat) (s : State) : Except EFail State :=
  (((List.range 32).map (32 * u + ·)).filter (· < n * 2 ^ p)).foldlM (fun s (i : Nat) => do
    let (bs, s) ← e.elemAt s (e.c.off + (4 * i : Nat)) 4
    e.spPut s (e.c.addr + 4 * (i % 2 ^ p * n + i / 2 ^ p)) bs) s

/-- A staged line. -/
def Eng.quantise (e : Eng) (pol p dir u : Nat) (s : State) : Except EFail State := do
  let (xs, s) ← e.srcElems dir 4 ((List.range 128).map (128 * u + ·)) s
  let bs := (List.range 4).map fun b => bfpConvert p .rne pol (((xs.drop (32 * b)).take 32).map Fmt.f32.decode)
  if bs.any fun b => !b.faults.isEmpty then .error (.halt s 0x40 0)
  else
    let mant := bs.flatMap fun b => b.ms.map fun m => BitVec.ofNat 8 (wrapTo 8 (m * 2 ^ (8 - p)))
    e.spPut s (e.c.addr + 144 * u) (stagedBytes mant (bs.map fun b => BitVec.ofNat 8 b.exp) 8 (bs.map (·.under)))

/-- An installed routine whose number 13 R320 does not name: what it writes is a free value, and it writes through the issuing team's
space and translations (13 R319; DESIGN CHOICE, log 23). -/
def Eng.installed (e : Eng) (s : State) : Except EFail State :=
  match (Config.routineWrites s.free).foldlM (fun (s : State) (w : Bool × Nat × List Byte) =>
    if w.1 then
      if s.spaceLen (s.team e.tid) < w.2.1 + w.2.2.length then .error (.halt s 0x20 w.2.1) else e.spPut s w.2.1 w.2.2
    else e.writes s (w.2.2.zipIdx.map fun b => (w.2.1 + b.2, 0, 0xFF#8, b.1))) s with
  | .ok s => .ok s.draw.2
  | .error (.halt s code va) => .error (.halt s.draw.2 code va)
  | .error f => .error f

/-- The routines of 13 R320 by number. -/
def Eng.routine (e : Eng) (n rt pol p dir u : Nat) (s : State) : Except EFail State :=
  if rt == 1 then e.convert n pol p dir u s
  else if rt == 2 then e.gather p u s
  else if rt == 3 then e.transpose n p u s
  else if rt == 4 then e.quantise pol p dir u s
  else e.installed s

/-! ## Performing the head of a queue -/

/-- The head command completes (13 R311). -/
def State.popCmd (s : State) (tid q : Nat) : State :=
  (s.forget .engLoad (queueWho tid q)).modTeam tid fun t => { t with queues := modAt t.queues q fun e =>
    { e with pending := e.pending.drop 1, completed := e.completed + 1, starve := none } }

/-- The head command of a queue changes. -/
def State.modHead (s : State) (tid q : Nat) (starve : Option Nat) (f : Cmd → Cmd) : State :=
  s.modTeam tid fun t => { t with queues := modAt t.queues q fun e => { e with pending := modAt e.pending 0 f, starve := starve } }

/-- TAKING A QUEUE FAULT: the queue halts and its record is posted; action 0 performs the command from its start (13 R321, 21 R444,
R447). -/
def State.haltQueue (s : State) (tid q code va : Nat) (pc : Word) : State :=
  let t := s.team tid
  let s : State := (s.forget .engLoad (queueWho tid q)).modHead tid q none fun c => { c with pos := 0, performed := false }
  let s : State := (s.modTeam tid fun t => { t with queues := modAt t.queues q fun e => { e with halted := true, flt := some (code, pc, va) } }).putQueue tid q
  s.post t.ten { flt := ⟨code, 2, 0, queueInfo q code, pc, va, false, [], 0#64, false, s.clock⟩, team := t.idx, gidx := 0xFFFF,
                 cluster := t.cluster, cr := (s.launch t.launch).crva, cslot := t.slot, target := .queue tid q, seq := 0 }

/-- The command at the head of a queue may start: its team has its cores, or has finished (log 30), the queue is not halted, and what a
`.rel` command follows is performed. -/
def State.headCmd (s : State) (tid q : Nat) : Option Cmd :=
  let t := s.team tid
  let e := t.queue q
  if e.halted || !(t.life == .running || t.life == .stopping || t.life == .halted || t.lingers) then none
  else match e.pending with
    | [] => none
    | c :: _ => if c.after.any fun w => (s.word? w.1 w.2).isSome then none else some c

/-- An access that a `.rel` command follows was lost with its peer: the command does not start (05 R140). That the queue halts with
PEER_DEAD is the model's choice, after 05 R148, which names groups (DESIGN CHOICE, log 5). -/
def State.lostBefore (s : State) (c : Cmd) : Option Sent :=
  s.sent.find? fun q => q.lost && (q.kind == .fwdStore || q.kind == .fwdLoad) && c.after.contains (q.g, q.word)

/-- The head command has been carried out: it completes when every peer has acknowledged what it forwarded (05 R139); a peer that
dies first halts the queue at the address of the store that was lost (13 R321). -/
def State.closeCmd (s : State) (tid q : Nat) (c : Cmd) : State :=
  let who := queueWho tid q
  match s.sent.find? fun p => p.kind == .engStore && p.g == who && p.lost with
  | some p =>
    ({ s with sent := s.sent.filter fun x => !(x.kind == .engStore && x.g == who && x.lost) } : State).haltQueue tid q 0x33 p.va c.pc
  | none => if s.storesOpen .engStore who then s.modHead tid q none fun c => { c with performed := true } else s.popCmd tid q

/-- Lines of a command. -/
def Cmd.lines (c : Cmd) : Nat :=
  match c.op with
  | .pcopy x _ | .pstore x _ => if recKind c.brec.toNat == 3 then x else (x + 127) / 128
  | .pcopyRf x _ => x
  | .pfill x _ _ => (x + 15) / 16
  | .pxform x rt _ p _ _ => if rt == 1 then (x + 127) / 128 else if rt == 2 || rt == 4 then x else if rt == 3 then (x * 2 ^ p + 31) / 32 else 1
  | .qmark .. => 1
  | .qfence .. => 0

/-- Lines are carried out from line `k` on until one ends early: the lines done, the state after them, and how it ended. The fuel is
the number of lines left. -/
def Eng.run (e : Eng) (f : Nat → State → Except EFail State) : Nat → Nat → State → Nat × State × Option EFail
  | 0, k, s => (k, s, none)
  | n + 1, k, s => match f k s with
    | .ok s => e.run f n (k + 1) (s.forget .engLoad e.who)
    | .error x => (k, s, some x)

/-- The head command finds no frame for a page; after 100 µs its queue halts with SPAD_STARVED (20 R436). -/
def State.cmdStarves (s : State) (tid q k page : Nat) (c : Cmd) : State :=
  let since := ((s.team tid).queue q).starve.getD s.clock
  if since + 100 * Config.cyclesPerUs ≤ s.clock then s.haltQueue tid q 0x21 (page * 4096) c.pc
  else s.modHead tid q (some since) fun c => { c with pos := k }

/-- Carry on the head command: `k` gives what it does for each line, where the event knows it. What it has done stays done while it
waits for a line. -/
def performHead (tid q : Nat) (s : State) (k : Eng → Option (Nat → State → Except EFail State)) : Outcome State Fault Refusal :=
  event s ((s.headCmd tid q).bind fun c => (k ⟨tid, q, c⟩).map fun f =>
    match s.lostBefore c with
    | some p => s.haltQueue tid q 0x33 p.va c.pc
    | none =>
      if c.performed then s.closeCmd tid q c
      else
        let r := Eng.run ⟨tid, q, c⟩ f (c.lines - c.pos) c.pos s
        match r.2.2 with
        | none => r.2.1.closeCmd tid q c
        | some (.wait ask) => (ask r.2.1).modHead tid q none fun c => { c with pos := r.1 }
        | some (.frame p) => r.2.1.cmdStarves tid q r.1 p c
        | some (.halt s code va) => s.haltQueue tid q code va c.pc)

def execPcopyPerform (team q : Nat) (s : State) : Outcome State Fault Refusal :=
  performHead team q s fun e => match e.c.op with | .pcopy x k => some (e.pcopy x k) | _ => none
def execPcopyRfPerform (team q : Nat) (s : State) : Outcome State Fault Refusal :=
  performHead team q s fun e => match e.c.op with | .pcopyRf _ k => some (e.pcopyRf k) | _ => none
def execPstorePerform (team q : Nat) (s : State) : Outcome State Fault Refusal :=
  performHead team q s fun e => match e.c.op with | .pstore x k => some (e.pstore x k) | _ => none
def execPfillPerform (team q : Nat) (s : State) : Outcome State Fault Refusal :=
  performHead team q s fun e => match e.c.op with | .pfill _ v fe => some (e.pfill v fe) | _ => none

/-- The marker's granule: the value, then the queue's count (13 R323). -/
def execQmarkPerform (team q : Nat) (s : State) : Outcome State Fault Refusal :=
  performHead team q s fun e => match e.c.op with
    | .qmark v n => some fun _ s => e.spPut s e.c.addr (leBytes 8 v.toNat ++ leBytes 8 n)
    | _ => none

/-- A Harebell core runs the routine, at level S (13 R319, R320; 18 R386). A routine under a direction that its row does not list halts
the queue as a parameter out of range does (DESIGN CHOICE, log 23). -/
def execPxformRoutineRun (team q : Nat) (s : State) : Outcome State Fault Refusal :=
  performHead team q s fun e => match e.c.op with
    | .pxform n rt pol p dir entry => some fun u s =>
      if entry.isNone then .error (.halt s 0x01 0)
      else if !routineOk rt p dir then .error (.halt s 0x02 0)
      else ({ e with c := { e.c with levelS := true } } : Eng).routine n rt pol p dir u s
    | _ => none

/-- A `qfence` at the head of a queue completes when every command accepted before it in its set has (05 R141). -/
def State.closeFences (s : State) (tid : Nat) : State :=
  (List.range (s.team tid).queues.length).foldl (fun (s : State) q =>
    match ((s.headCmd tid q).map fun c => c.op : Option CmdOp) with
    | some (.qfence _ upto) => if (s.team tid).counted upto then s.popCmd tid q else s
    | _ => s) s

end Sys2Proof.Machine
end

