-- ==== Sys2Proof/Machine/Sward.lean ====
section
/-! DEFINITION. Sward.lean: continuation records from their submission to their completion (19 R397-R410, R499), admission
and placement (R404, R405), pre-emption and resumption (R407, R408; 01 R29-R32), `spawn` and `joinc` (01 R39-R42, 07
R193-R195), and the events of Sward and of the MC's port. -/

namespace Sys2Proof.Machine

open Host (Outcome)

/-! ## Records and headers (19 R397, R398) -/

def parseRec (bs : List Byte) : CRec :=
  let n := leNat bs
  let f := fun lo len => bitsOf n (8 * lo) (8 * len)
  let ctl := f 35 1
  { code := f 0 8, frame := f 8 8, join := f 16 8, cmpl := f 24 8, teams := f 32 3, prog := bitsOf ctl 0 2, slvl := bitAt ctl 2
    band := bitsOf ctl 3 3, iqs := f 36 1, chtix := f 37 2, rsvOk := bitsOf ctl 6 2 == 0 && f 39 25 == 0 }

/-- Step 3 of 19 R402 on the record's own fields. -/
def CRec.ok (r : CRec) : Bool :=
  r.rsvOk && r.prog ≤ 2 && 1 ≤ r.teams && r.iqs ≤ 16 && r.code % 32 == 0 && r.join % 16 == 0 && r.cmpl % 32 == 0

def parseHeader (bs : List Byte) : Header :=
  let n := leNat bs
  let f := fun lo len => bitsOf n (8 * lo) (8 * len)
  { magic := f 0 4, gw := f 4 1, cores := f 5 1, regs := f 6 1, acc := f 7 1, teamSz := f 8 4, scr := f 12 4, queues := f 16 1
    prog := f 17 1, chan := f 18 2, doff := f 20 4, dlen := f 24 4, dalign := f 28 1, rsvOk := f 29 35 == 0 }

/-- The header is valid for a record of progress class `prog` (19 R398). -/
def Header.ok (h : Header) (prog : Nat) : Bool :=
  h.rsvOk && h.magic == 0x31435246 && [16, 32, 64].contains h.gw && 1 ≤ h.cores && h.cores ≤ 16 && 8 ≤ h.regs && h.regs ≤ 128 &&
  h.regs % 8 == 0 && h.acc ≤ 64 && h.queues ≤ 8 && h.chan ≤ 1024 && 1 ≤ h.teamSz && h.teamSz ≤ 65536 && h.teamSz % h.gw == 0 &&
  h.teamSz / h.gw % h.cores == 0 && h.teamSz / h.cores ≤ 4096 && h.cores * h.scr * 4096 ≤ 2 ^ 26 && h.prog ≤ 2 && h.prog == prog &&
  ((h.dlen == 0 && h.doff == 0 && h.dalign == 0) ||
    (h.dlen != 0 && h.doff != 0 && h.doff % 4096 == 0 && 12 ≤ h.dalign && h.dalign ≤ 52))

/-- The band a record is queued in under a mask of permitted bands (19 R402). -/
def clampBand (mask b : Nat) : Nat :=
  match (List.range 8).find? fun i => b ≤ i && bitAt mask i with
  | some i => i
  | none => ((List.range 8).filter fun i => bitAt mask i).getLastD b

/-! ## Sward's own accesses: in the tenancy's world, at level S (19 R397; log 20) -/

/-- How an access of Sward ends early. -/
inductive SFail where
  | wait (s : State)
  | fault (s : State) (code va : Nat)

/-- What Sward does belongs to no team. -/
def noTeam : Nat := 10 ^ 9

/-- Requester numbers of Sward for ATS and page requests: a launch, and a tenancy's join records. -/
def launchWho (l : Nat) : Nat := 2 * 10 ^ 9 + l
def joinWho (ten : Nat) : Nat := 3 * 10 ^ 9 + ten

/-- Sward's lines go through the TLBs of core 0. One that misses there raises its walk, which starts and ends at once (DESIGN CHOICE, log
28: which TLBs Sward uses is not given). -/
def State.swWalk (s : State) (ten va : Nat) : State :=
  if (s.tlbLook 0 ten va).isSome then s
  else match s.walk false ten va with
    | .ok (leaf, size, es) => s.walkFill false 0 ten va leaf size es
    | .error _ => s

/-- Steps 3, 5 and 6 of 10 R249 for one line. -/
def State.swLine (s : State) (ten who va : Nat) (levelS : Bool) (how : How) : Except SFail (XLine × State) :=
  if 2 ^ 56 ≤ va then .error (.fault s 0x11 va)
  else
    let s := s.swWalk ten va
    match s.xlate 0 ten levelS who va how false with
    | .ok l =>
      if (how.needR || how == .fetch) && l.own == .here && s.poisoned l.pa then .error (.fault s 0x60 va)
      else if l.own == .here && s.hbmWaits l.pa then .error (.wait s)
      else .ok (l, s)
    | .fault code => .error (.fault (s.atsForget who) code va)
    | .dead _ => .error (.fault s 0x33 va)
    | .hostPage => .error (.wait s)
    | _ => .error (.wait (s.atsAsk 0 ten who va how))

/-- Read `n` bytes inside one line; those of a peer's page come back as the answer to a forwarded access. -/
def State.swRead (s : State) (ten who va n : Nat) : Except SFail (List Byte × State) :=
  match s.swLine ten who va true .load with
  | .error e => .error e
  | .ok (l, s) => match l.own with
    | .peer p => match s.askedLine .swLoad who p l.pa n with
      | .got bs => .ok (bs, s)
      | .dead => .error (.fault (s.forget .swLoad who) 0x33 va)
      | .pending => .error (.wait s)
      | .unasked => .error (.wait (s.askLine .swLoad ten noTeam who 0 p l.pa va l.cnt))
    | .host => .ok (s.homeRead .host l.pa n, s)
    | .here => .ok (s.homeRead .here l.pa n, s.touch l.pa 0 false)

/-- Read the 64 bytes of a record, which may start anywhere. -/
def State.swRecord (s : State) (ten who va : Nat) : Except SFail (List Byte × State) :=
  ((linePieces va 64).foldlM (fun (b : List Byte × State) p => (b.2.swRead ten who p.1 p.2).map fun g => (b.1 ++ g.1, g.2)) ([], s)).map
    fun r => (r.1, r.2.forget .swLoad who)

/-- Write bytes inside one line, at `off` from the address `va`. -/
def State.swWrite (s : State) (ten who va : Nat) (l : XLine) (off : Nat) (bs : List Byte) : State :=
  let pa := l.pa + off
  match l.own with
  | .peer p =>
    let b := lineBytes [(pa % 128, [], bs)]
    (s.forwardTo .swStore ten noTeam who 0 p (pa / 128 * 128) va 128 l.cnt (.writeMasked b.1 b.2)).2
  | .host => s.homeWrite .host pa bs
  | .here => (s.touch pa 0 true).homeWrite .here pa bs

/-! ## Shape (19 R402 step 6, R405; 21 R448) -/

/-- Groups of a team on one core, and the threads they put on quarter `q`. -/
def Header.perCore (h : Header) : Nat := h.teamSz / max h.gw 1 / max h.cores 1
def Header.onQuarter (h : Header) (q : Nat) : Nat := (h.perCore + 3 - q) / 4 * h.gw

/-- Teams of this shape that an empty core holds. -/
def Header.teamsPerCore (h : Header) (iqs : Nat) : Nat :=
  min (1024 / max (h.onQuarter 0) 1) (min (if h.acc == 0 then 1024 else 64 / h.acc) (if iqs == 0 then 1024 else 16 / iqs))

/-- Clusters of a tenancy's mask. -/
def Tenancy.clusters (t : Tenancy) : List Nat := (List.range 16).filter fun c => bitAt t.clmask c

/-- Some day one team, or for a concurrent record all of its teams, can be resident. Placement takes the coolest cores first (19
R405), so the teams of one shape fill one set of CORES cores of a cluster before they use another. -/
def State.shapeOk (s : State) (ten : Nat) (r : CRec) (h : Header) : Bool :=
  let t := s.ten ten
  let fit := 16 / max h.cores 1 * h.teamsPerCore r.iqs * t.clusters.length
  1 ≤ t.nslot && t.nslot ≤ 4096 && 1 ≤ t.slotsz && t.slotsz ≤ 1024 && slotNeed h r.iqs ≤ t.slotsz * 2 ^ 20 &&
  1 ≤ fit && (r.prog != 0 || r.teams ≤ min fit t.nslot)

/-! ## Submission (19 R402) -/

inductive SubRes where
  | done (s : State)
  /-- dropped without any answer (step 1) -/
  | dropped (s : State)
  /-- the band queue is full: a `spawn` or an enqueue by `joinc` waits -/
  | full

/-- A launch that waits for its completion record: rejected with `status`. -/
def State.reject (s : State) (ten : Nat) (r : CRec) (crva : Nat) (origin : Origin) (status : Nat) : State :=
  { s with launches := s.launches ++ [{ Launch.zero with ten := ten, crec := r, crva := crva, origin := origin, abort := some (status, 0), completed := false }] }

def Origin.outside : Origin → Bool
  | .window | .datagram .. | .mc => true
  | _ => false

/-- Half of a header, read with execute permission at the level the record asks for; none where it is refused. -/
def State.readHalf (s : State) (ten va : Nat) (slvl : Bool) : Option (List Byte) × State :=
  match s.swLine ten (joinWho ten) va slvl .fetch with
  | .ok (l, s) => (some (s.homeRead l.own l.pa 32), s.touch l.pa 0 false)
  | .error _ => (none, s)

/-- The header of a record (19 R398); none where it is refused. -/
def State.readHeader (s : State) (ten : Nat) (r : CRec) : Option Header × State :=
  if r.code < 64 then (none, s)
  else
    let a := s.readHalf ten (r.code - 64) r.slvl
    let b := a.2.readHalf ten (r.code - 32) r.slvl
    (match a.1, b.1 with
      | some x, some y => some (parseHeader (x ++ y))
      | _, _ => none, b.2)

/-- Records queued in a band: launches with a team that has not started. -/
def State.bandLen (s : State) (ten band : Nat) : Nat := ((s.ten ten).bands.getD band []).length

/-- Steps 1 to 7 of 19 R402. `aligned` says that the record's own address is a multiple of 64. -/
def State.submit (s : State) (ten : Nat) (bs : List Byte) (crva : Nat) (origin : Origin) (aligned : Bool) : SubRes :=
  let t := s.ten ten
  let r := parseRec bs
  let no := fun (s : State) st => SubRes.done (s.reject ten r crva origin st)
  if t.secure && (match origin with | .window | .datagram .. => true | _ => false) then .dropped s
  else if !t.en || t.froz then no s 0x10
  else if !r.ok || t.bandMask == 0 || !aligned then no s 0x11
  else if r.slvl && !t.slnch then no s 0x12
  else match s.readHeader ten r with
    | (none, s) => no s 0x13
    | (some h, s) =>
      if !h.ok r.prog || (h.chan != 0 && t.chtn < r.chtix + r.teams) then no s 0x13
      else if !s.shapeOk ten r h then no s 0x14
      else
        let band := clampBand t.bandMask r.band
        if Config.bandQueueDepth ≤ s.bandLen ten band then (if origin.outside then no s 0x15 else .full)
        else
          let l := s.launches.length
          let new : Launch := { Launch.zero with
            ten := ten, crec := r, hdr := h, crva := crva, origin := origin, band := band, order := s.orders, completed := false }
          let s : State := { s with launches := s.launches ++ [new], orders := s.orders + 1 }
          .done ((s.setBands ten (modAt (s.ten ten).bands band fun b => b ++ [l])).modTen ten fun t => { t with
            winAccepted := if origin == .window then t.winAccepted + 1#64 else t.winAccepted })

def SubRes.state (s : State) : SubRes → State
  | .done s => s
  | .dropped s => s
  | .full => s

/-! ## Room on cores (19 R405, 01 R18, 02 R62) -/

def Life.resident : Life → Bool
  | .running | .stopping | .halted => true
  | _ => false

/-- Threads on a quarter, of teams that are not to be ignored. -/
def State.quarterUse (s : State) (ign : List Nat) (core q : Nat) : Nat :=
  s.groups.foldl (fun n G =>
    if G.core == core && G.quarter == q && G.stage != .retired && (s.team G.team).life.resident && !(ign.contains G.team)
    then n + G.gw else n) 0

/-- Tiles and item-queue units of a core that teams hold. -/
def State.coreUse (s : State) (ign : List Nat) (core : Nat) : Nat × Nat :=
  s.teams.zipIdx.foldl (fun (n : Nat × Nat) ((t, i) : Team × Nat) =>
    if t.life.resident && t.cores.contains core && !(ign.contains i) then
      (n.1 + (s.hdrOf t).acc, n.2 + (s.launch t.launch).crec.iqs) else n) (0, 0)

/-- Insert a core behind those that are at least as cool (19 R469). -/
def insCool (allow : Nat → Nat) (c : Nat) : List Nat → List Nat
  | [] => [c]
  | x :: xs => if allow x < allow c then c :: x :: xs else x :: insCool allow c xs

/-- The CORES coolest eligible cores of a cluster; `extra` are cores that further teams of this shape already take. -/
def State.coresFor (s : State) (cl : Nat) (h : Header) (iqs : Nat) (ign extra : List Nat) : Option (List Nat) :=
  let ok := fun (c : Nat) =>
    let k := s.core c
    let n := (extra.filter (· == c)).length + 1
    let u := s.coreUse ign c
    k.floor ≤ k.allow && u.1 + n * h.acc ≤ 64 && u.2 + n * iqs ≤ 16 &&
    (List.range 4).all fun q => s.quarterUse ign c q + n * h.onQuarter q ≤ 1024
  let cool := ((List.range 16).map (16 * cl + ·)).filter ok
  let sorted := cool.foldl (fun l c => insCool (fun c => (s.core c).allow.toNat) c l) []
  if h.cores ≤ sorted.length then some (sorted.take h.cores) else none

def State.allowSum (s : State) (cs : List Nat) : Nat := cs.foldl (fun n c => n + (s.core c).allow.toNat) 0

/-- Among clusters, the one with the largest sum of ALLOW; ties to the lower number. -/
def State.bestCluster (s : State) (cls : List Nat) (h : Header) (iqs : Nat) (ign extra : List Nat) : Option (Nat × List Nat) :=
  cls.foldl (fun b cl => match s.coresFor cl h iqs ign extra with
    | none => b
    | some cs => match b with
      | none => some (cl, cs)
      | some (c0, cs0) => if s.allowSum cs0 < s.allowSum cs then some (cl, cs) else some (c0, cs0)) none

/-! ## Candidates (19 R404) -/

/-- A launch takes part in admission. -/
def Launch.open (l : Launch) : Bool := !l.completed && l.abort.isNone && !l.halted

/-- Its teams that are saved, in TEAM order. -/
def State.savedTeams (s : State) (l : Nat) : List Nat := (s.launch l).started.filter fun t => (s.team t).life == .saved

/-- The band in which a launch is considered: clamped by the mask that holds now until it is first admitted (18 R384). -/
def State.effBand (s : State) (l : Launch) : Nat :=
  if l.started.isEmpty then clampBand (s.ten l.ten).bandMask l.crec.band else l.band

/-- The TEAM number of a candidate: a saved team's, or `n` of one that has never started. -/
def State.itemIdx (s : State) (item : Option Nat) (n : Nat) : Nat :=
  match item with
  | some t => (s.team t).idx
  | none => n

/-- The TEAM number of the next new candidate. -/
def nextNew (item : Option Nat) (n : Nat) : Nat := if item.isNone then n + 1 else n

/-- Clusters where a candidate team may stand: its own for a saved team that was not pre-empted under the Mask cause (01 R16, 18
R384); else the one that pre-emption picked for it, or, without a pick, those of the mask that are picked neither for a team of its launch
nor for a candidate ahead of it. `n` is the number of a new team. -/
def State.clustersFor (s : State) (l : Nat) (item : Option Nat) (n : Nat) : List Nat :=
  let L := s.launch l
  let taken := fun (c : Nat) => s.launches.zipIdx.any fun ((x, i) : Launch × Nat) =>
    i != l && x.open && x.picks.any (·.2 == c) && x.band ≤ s.effBand L
  let free := (s.ten L.ten).clusters.filter fun c => !(taken c) && !(L.picks.any (·.2 == c))
  let choose := match L.picks.lookup (s.itemIdx item n) with | some c => [c] | none => free
  match item with
  | some t => if (s.team t).masked then choose else [(s.team t).cluster].filter fun c => !(taken c)
  | none => choose

/-- The place of one candidate: cluster and cores. -/
def State.placeFor (s : State) (l : Nat) (ign : List Nat) (item : Option Nat) (n : Nat) (extra : List Nat) : Option (Nat × List Nat) :=
  let L := s.launch l
  s.bestCluster (s.clustersFor l item n) L.hdr L.crec.iqs ign extra

/-- Places for every item in turn; none where one does not fit. -/
def State.planFrom (s : State) (l : Nat) (ign : List Nat) : List (Option Nat) → Nat → List Nat → Option (List (Option Nat × Nat × List Nat))
  | [], _, _ => some []
  | it :: its, n, extra =>
    match s.placeFor l ign it n extra with
    | none => none
    | some (c, cs) => (s.planFrom l ign its (nextNew it n) (extra ++ cs)).map fun r => (it, c, cs) :: r

def State.plan (s : State) (l : Nat) (ign : List Nat) (items : List (Option Nat)) : Option (List (Option Nat × Nat × List Nat)) :=
  s.planFrom l ign items (s.launch l).started.length []

/-- Context slots of a tenancy that teams hold. -/
def State.slotsUsed (s : State) (ten : Nat) : List Nat := (s.teams.filter fun t => t.ten == ten && (t.life.live || t.lingers)).map (·.slot)

/-- New teams among the items find free context slots. -/
def State.slotsFor (s : State) (ten : Nat) (items : List (Option Nat)) : Bool :=
  (s.slotsUsed ten).length + (items.filter (·.isNone)).length ≤ (s.ten ten).nslot

/-- What one launch offers. -/
inductive Try where
  /-- nothing waits, or it is passed over -/
  | pass
  | place (items : List (Option Nat × Nat × List Nat))
  | blocked

/-- A team waits for others of its launch to start (01 R32). -/
def Team.isBarred (t : Team) : Bool := !t.barred.isEmpty || t.barAll

/-- Saved teams one after another, passing over those that are barred or lack room in their own cluster; one that may stand in any
cluster of the mask blocks what follows (19 R404). -/
def State.trySaved (s : State) (l : Nat) (ign : List Nat) : List Nat → Try
  | [] => .pass
  | t :: ts =>
    if (s.team t).isBarred then s.trySaved l ign ts
    else match s.plan l ign [some t] with
      | some p => .place p
      | none => if (s.team t).masked then .blocked else s.trySaved l ign ts

/-- The teams of a concurrent launch that must be admitted together: all of them, or, after a pre-emption, those that have not
finished, once each is saved (01 R30, 19 R407). -/
def State.jointItems (s : State) (l : Nat) : List (Option Nat) :=
  let L := s.launch l
  if L.started.isEmpty then List.replicate L.crec.teams none
  else if L.started.all fun t => (s.team t).life == .saved || (s.team t).life == .finished then (s.savedTeams l).map some else []

def State.tryLaunch (s : State) (l : Nat) (ign : List Nat) : Try :=
  let L := s.launch l
  if L.crec.prog == 0 then
    let items := s.jointItems l
    if items.isEmpty || !(s.slotsFor L.ten items) then .pass
    else match s.plan l ign items with
      | some p => .place p
      | none => .pass
  else match s.trySaved l ign (s.savedTeams l) with
    | .place p => .place p
    | .blocked => .blocked
    | .pass =>
      if L.crec.teams ≤ L.started.length then .pass
      else if L.crec.prog == 2 && L.tfin < L.started.length then .pass
      else if !(s.slotsFor L.ten [none]) then .blocked
      else match s.plan l ign [none] with
        | some p => .place p
        | none => .blocked

/-- Insert by queue order. -/
def insOrder (s : State) (l : Nat) : List Nat → List Nat
  | [] => [l]
  | x :: xs => if (s.launch l).order < (s.launch x).order then l :: x :: xs else x :: insOrder s l xs

/-- Open launches of a tenancy's band, in queue order. A record that has not been admitted yet needs a permitted band (18 R384). -/
def State.bandLaunches (s : State) (ten band : Nat) : List Nat :=
  if (s.ten ten).froz then []
  else (((List.range s.launches.length).filter fun l =>
    let x := s.launch l
    x.ten == ten && x.open && s.effBand x == band && (!x.started.isEmpty || (s.ten ten).bandMask != 0)).foldl (fun acc l => insOrder s l acc) [])

/-- The first launch of a list that can be admitted; a launch that is blocked ends the search. -/
def State.firstTry (s : State) (ign : List Nat) : List Nat → Option (Nat × List (Option Nat × Nat × List Nat))
  | [] => none
  | l :: ls => match s.tryLaunch l ign with
    | .pass => s.firstTry ign ls
    | .place p => some (l, p)
    | .blocked => none

/-- Tenancies in rotation, starting after the one last admitted in the band. -/
def State.rotated (s : State) (band : Nat) : List Nat := (List.range 16).map fun k => (s.rotation.getD band 15 + 1 + k) % 16

/-- The decision of 19 R404: launch, and for each team admitted its identity (none for a new one), cluster and cores. -/
def State.decision (s : State) : Option (Nat × List (Option Nat × Nat × List Nat)) :=
  (List.range 8).findSome? fun band => (s.rotated band).findSome? fun ten => s.firstTry [] (s.bandLaunches ten band)

/-! ## Starting a team (19 R405, R406; 20 R432; 02 R46) -/

/-- The lane a group starts with. -/
def startLane (pc : Word) : Lane := ⟨pc, Config.noMeet, 0#7, .active, 0⟩

/-- A group as it starts (02 R46, 19 R406). -/
def startGroup (team gidx gw core quarter sliceOff : Nat) (levelS : Bool) (pc frame : Word) (clock : Nat) : Group :=
  { Group.zero with
    team := team, gidx := gidx, gw := gw, core := core, quarter := quarter, sliceOff := sliceOff, levelS := levelS,
    lanes := List.replicate gw (startLane pc),
    v := List.replicate 128 ⟨List.replicate gw 0#32, ⟨0#64, 0#16⟩⟩,
    s := frame :: List.replicate 63 0#64, b := List.replicate 16 0#256, d := List.replicate 8 Config.descrReset,
    readyAt := clock, lastIssue := clock, stage := .running }

def startBar : Bar := ⟨0, 0, false, 2, []⟩
def startQueue : EngQueue := ⟨0, 0, [], false, none, 0, none⟩

/-- Slice offsets a group may take (01 R17). -/
def sliceOffs (gw : Nat) : List Nat := if gw == 16 then [0, 4, 8, 12] else if gw == 32 then [0, 8] else [0]

/-- The offset whose slices carry the fewest threads of resident groups, those in `later` apart, which have no place yet; ties to the
lowest (19 R405). -/
def State.pickOff (s : State) (core q gw : Nat) (later : List Nat) : Nat :=
  let load := fun (o : Nat) => s.groups.zipIdx.foldl (fun n ((G, i) : Group × Nat) =>
    if G.core == core && G.quarter == q && G.stage != .retired && (s.team G.team).life.resident && !(later.contains i) then
      n + 4 * (min (o + gw / 4) (G.sliceOff + G.gw / 4) - max o G.sliceOff)
    else n) 0
  (sliceOffs gw).foldl (fun b o => if load o < load b then o else b) 0

/-- Quarter of a group of a team with `n` groups on each core. -/
def quarterOf (gidx n : Nat) : Nat := gidx % max n 1 % 4

/-- The lowest free physical tiles of a core. -/
def State.freeTiles (s : State) (core n : Nat) : List Nat :=
  ((List.range 64).filter fun i => !((s.core core).tileOwner.any fun o => o.1 == i)).take n

/-- A team takes tiles on its cores, with the contents given (zeros where none). -/
def State.takeTiles (s : State) (tid : Nat) (cores : List Nat) (n : Nat) (vals : List (List (List Lane32))) : State :=
  let maps := cores.map fun c => s.freeTiles c n
  let s : State := (cores.zip maps).zipIdx.foldl (fun (s : State) x =>
    let mine := x.1.2
    let old := vals.getD x.2 []
    s.modCore x.1.1 fun c => { c with
      tileOwner := c.tileOwner ++ mine.map fun i => (i, tid)
      tiles := (c.tiles.filter fun y => !(mine.contains y.1)) ++ mine.zipIdx.filterMap fun m => (old[m.2]?).map fun v => (m.1, v) }) s
  s.modTeam tid fun t => { t with tmap := maps }

/-- Build the team's scratchpad page table (20 R431, R432). -/
def State.buildSpt (s : State) (tid : Nat) : State :=
  let t := s.team tid
  let pages := t.cores.length * (s.hdrOf t).scr
  let blocks := (pages + 127) / 128
  let root := s.sptRoot t
  let l0 := s.region t 3
  let m := Cells.clear (Cells.clear s.mem root 2048) l0 (5120 * blocks)
  let m := (List.range blocks).foldl (fun m i => Cells.writeLE m (root + 8 * i) 8 (l0 + 5120 * i + 1)) m
  let m := (List.range pages).foldl (fun m p => Cells.writeLE m (l0 + 5120 * (p / 128) + 8 * (p % 128)) 8 (s.region t 5 + 4096 * p + 1)) m
  { s with mem := m }

/-- The team's waiting siblings are told that one of them has started (01 R32). -/
def State.unbar (s : State) (l idx : Nat) (allStarted : Bool) : State :=
  { s with teams := s.teams.map fun t =>
      if t.launch == l then { t with barred := t.barred.filter (· != idx), barAll := t.barAll && !allStarted } else t }

/-- One more admission of a launch in its band: of the team of number `idx`. -/
def State.noteAdmit (s : State) (l idx : Nat) : State :=
  let L := s.launch l
  let band := s.effBand L
  let s : State := s.modLaunch l fun x => { x with band := band, picks := x.picks.filter (·.1 != idx), tstart := if x.started.isEmpty then s.clock else x.tstart }
  { s with rotation := modAt s.rotation band fun _ => L.ten, admits := s.admits + 1 }

/-- The register lines of a team's groups take their place in the register caches (00 R4). -/
def State.fitTeam (s : State) (tid : Nat) : State :=
  (s.team tid).groups.foldl (fun s g => s.fitLines (s.group g).core g Config.regCacheLines) s

/-- A team that has never started starts on the cores given. -/
def State.startTeam (s : State) (l cl : Nat) (cores : List Nat) : State :=
  let L := s.launch l
  let h := L.hdr
  let tid := s.teams.length
  let slot := ((List.range (s.ten L.ten).nslot).find? fun i => !((s.slotsUsed L.ten).contains i)).getD 0
  let idx := L.started.length
  let n := h.perCore
  let s : State := s.noteAdmit l idx
  let team : Team := { Team.zero with
    launch := l, idx := idx, ten := L.ten, slot := slot, life := .running, cluster := cl, cores := cores,
    groups := (List.range (h.teamSz / max h.gw 1)).map (s.groups.length + ·), bars := List.replicate 16 startBar,
    queues := List.replicate 8 startQueue, items := cores.map fun _ => [], startAt := s.clock, admitNo := s.admits, firstAdmit := s.admits }
  let s : State := { s with teams := s.teams ++ [team] }
  let s : State := s.modLaunch l fun x => { x with started := x.started ++ [tid] }
  let s : State := (s.takeTiles tid cores h.acc []).buildSpt tid
  let s : State := (List.range (h.teamSz / max h.gw 1)).foldl (fun (s : State) g =>
    let core := cores.getD (g / max n 1) 0
    let q := quarterOf g n
    { s with groups := s.groups ++ [startGroup tid g h.gw core q (s.pickOff core q h.gw []) L.crec.slvl (BitVec.ofNat 64 L.crec.code)
        (BitVec.ofNat 64 L.crec.frame) s.clock] }) s
  let s : State := cores.foldl (fun s c => s.l1Acquire c 4) s
  let s : State := (s.fitTeam tid).writeTeam tid []
  let all := L.crec.teams ≤ idx + 1
  let s : State := if all then s.unqueue l else s
  s.unbar l idx all

/-! ## Pre-emption and resumption (19 R407, R408; 20 R437) -/

/-- A saved team runs again on the cores given: its slots' pages leave cores they no longer stand on, its barriers, queues, items,
tiles and groups are restored from its context, its groups wait for its pinned pages, and each core does what `fence.sys.all` does
(05 R138, 20 R437, 21 R449). -/
def State.restoreTeam (s : State) (tid cl : Nat) (cores : List Nat) : State :=
  let t := s.team tid
  let h := s.hdrOf t
  let n := h.perCore
  let s : State := s.noteAdmit t.launch t.idx
  let moved := fun (p : Nat) => let k := p * 4096 / max (s.slotLen t) 1; t.cores.getD k 0 != cores.getD k 0
  let gone := s.cores.flatMap fun c => c.frames.filter fun f => f.team == tid && moved f.page
  let s : State := gone.foldl (fun s f => s.dropFrame f true) s
  let tiles := s.readTiles tid
  let s : State := ((s.readTeam tid).setLife tid .running).modTeam tid fun t => { t with
    cluster := cl, cores := cores, startAt := s.clock, admitNo := s.admits, masked := false, hot := false }
  let pins := (List.range (cores.length * h.scr)).filter fun p => l0Pin (s.rdMem (s.l0Addr (s.team tid) p) 8)
  let s : State := s.modTeam tid fun t => { t with pins := pins.filter fun p => (s.frameOf tid p).isNone }
  let s : State := s.takeTiles tid cores h.acc tiles
  let s : State := t.groups.foldl (fun (s : State) g =>
    let i := (s.group g).gidx
    let core := cores.getD (i / max n 1) 0
    let q := quarterOf i n
    let off := s.pickOff core q h.gw (t.groups.filter fun k => i ≤ (s.group k).gidx)
    s.modGroup g fun G => { G with core := core, quarter := q, sliceOff := off }) s
  let s : State := cores.foldl (fun s c => s.l1All c) s
  let s : State := t.groups.foldl (fun s g => s.expireWaits g) (s.wake tid)
  (s.fitTeam tid).unbar t.launch t.idx false

/-- The bytes of a saved team's context that its resumption reads: TCB, tiles and item shares, and the images (21 R449). -/
def State.contextBytes (s : State) (tid : Nat) : List (Nat × Nat) :=
  let t := s.team tid
  let off := slotOff (s.hdrOf t) (s.launch t.launch).crec.iqs
  [(s.slotAddr t, off 3), (s.slotAddr t + off 4, off 5 - off 4)]

/-- A saved team resumes. Where a line of its context is refused (21 R454), the context is lost: the tenancy takes an uncontained fault
(DESIGN CHOICE, log 25). -/
def State.resumeTeam (s : State) (tid cl : Nat) (cores : List Nat) : State :=
  if (s.contextBytes tid).any fun r => s.listed r.1 r.2 then s.uncontain (s.team tid).ten 0x60 (dieOfCluster cl)
  else s.restoreTeam tid cl cores

/-- Teams that are pre-empted together with the teams given: all resident teams of a concurrent launch. -/
def State.together (s : State) (tids : List Nat) : List Nat :=
  (List.range s.teams.length).filter fun i =>
    let t := s.team i
    t.life == .running && (tids.contains i || ((s.launch t.launch).crec.prog == 0 && tids.any fun j => (s.team j).launch == t.launch))

/-- Fault records of a launch's groups and queues in STATE 0 become STATE 3 (21 R452 step 6). -/
def State.voidRecords (s : State) (l : Nat) : State :=
  s.voidRecs (s.launch l).ten fun r => match r.target with
    | .group g => (s.team (s.group g).team).launch == l
    | .launch k _ => k == l
    | .queue t _ => (s.team t).launch == l
    | .nobody => false

/-- Running teams stop; one whose cluster CLMASK no longer holds will resume in another. A concurrent launch that CLMASK no longer
fits is discarded instead, as by an uncontained fault (18 R384). `hot` says that they go for heat. -/
def State.preempt (s : State) (tids : List Nat) (hot : Bool) : State :=
  (s.together tids).foldl (fun (s : State) i =>
    let t := s.team i
    let L := s.launch t.launch
    let gone := !((s.ten t.ten).clusters.contains t.cluster)
    if t.life != .running then s
    else if L.crec.prog == 0 && gone && !(s.shapeOk t.ten L.crec L.hdr) then (s.voidRecords t.launch).discard t.launch 0x20 0
    else (s.setLife i .stopping).modTeam i fun t => { t with masked := gone, hot := hot }) s

/-- Every group of a stopping team has drained and sent its transfers, and every group that faulted has its image (19 R408, 14
R339). -/
def State.canSave (s : State) (tid : Nat) : Bool :=
  (s.team tid).groups.all fun g =>
    let G := s.group g
    G.stage == .retired || G.stage == .awaiting || G.stage == .saved || (G.stage == .running && G.paid.isNone && s.drained g)

/-- The team's context is written and its cores are freed; pages stay in their frames (19 R408, 20 R437). -/
def State.saveTeam (s : State) (tid : Nat) : State :=
  let t := s.team tid
  let vals := (t.cores.zip t.tmap).map fun x => x.2.map fun i => ((s.core x.1).tiles.lookup i).getD (List.replicate 4096 0#32)
  let s : State := t.groups.foldl (fun (s : State) g =>
    if (s.group g).stage == .running then (s.unask g).park g .saved else s) s
  let s : State := { s with cores := s.cores.map fun c => { c with
    token := c.token.map fun x => match x with | some g => if t.groups.contains g then none else some g | none => none
    stb := c.stb.filter fun e => e.team != tid
    tiles := c.tiles.filter fun x => !(c.tileOwner.contains (x.1, tid))
    tileOwner := c.tileOwner.filter fun x => x.2 != tid } }
  (s.modTeam tid fun t => { t with life := .saved, pins := [] }).writeTeam tid vals

/-! ## Finishing (01 R45, 19 R408) -/

/-- A team finishes when its last group has retired. Its pages and its context slot are freed when its queues have carried out what
they had accepted (log 30). -/
def State.finishTeams (s : State) : State :=
  (List.range s.teams.length).foldl (fun (s : State) i =>
    let t := s.team i
    if t.life == .running && t.groups.all (fun g => (s.group g).stage == .retired) then
      let s : State := (s.freeCores i .finished).modLaunch t.launch fun l => { l with tfin := l.tfin + 1 }
      if (s.team i).lingers then s else s.freePages i
    else if t.life == .finished && !t.lingers && t.queues.any (fun q => q.halted || !q.pending.isEmpty) then s.freePages i
    else if t.life == .finished && !t.lingers && s.cores.any (fun c => c.frames.any fun f => f.team == i) then s.freePages i
    else s) s

/-! ## Join words (01 R40, R41) -/

/-- The read-modify-write at the home of the word: the old COUNT, and the record to enqueue when COUNT becomes 0. -/
def State.joinWord (s : State) (core : Option Nat) (own : Owner) (pa : Nat) : Nat × Option Nat × State :=
  let r := s.atomHome core own pa 4 fun old => if old == 0 then 0 else old - 1
  (r.1, if r.1 == 1 then some (leNat (r.2.homeRead own (pa + 8) 8)) else none, r.2)

/-- What becomes of a record that Sward has taken from a group. -/
inductive Taken where
  /-- accepted: queued, answered, or dropped with its NOTE -/
  | accepted (s : State)
  /-- the band queue is full -/
  | full (s : State) (bytes : List Byte)
  /-- it is not read yet -/
  | reading (s : State)

/-- Sward reads a record that a group has handed over, unless it has, and submits it. A record that cannot be read is dropped with a
NOTE (19 R499). -/
def State.takeRecord (s : State) (ten va team : Nat) (origin : Origin) (bytes : Option (List Byte)) : Taken :=
  let go := fun (bs : List Byte) (s : State) => match s.submit ten bs va origin (va % 64 == 0) with
    | .done s | .dropped s => Taken.accepted s
    | .full => .full s bs
  match bytes with
  | some bs => go bs s
  | none => match s.swRecord ten (joinWho ten) va with
    | .error (.wait s) => .reading s
    | .error (.fault s code _) =>
      let T := s.team team
      .accepted (s.note ten code 2 va T.idx (s.launch T.launch).crva T.slot)
    | .ok (bs, s) => go bs s

/-- An earlier record of the same group still waits (19 R401). -/
def behind (j : JoinRec) (earlier : List JoinRec) : Bool := j.g.isSome && earlier.any fun k => k.g == j.g

/-- Records handed over by groups are taken, those of one group in its program order; `kept` are those that go on waiting. A `spawn`
completes with the taking of its record, while its group runs. -/
def State.takeJoins (s : State) (ten : Nat) (kept : List JoinRec) : List JoinRec → State
  | [] => s.modTen ten fun t => { t with joinWait := kept }
  | j :: js =>
    let wait := j.word.bind fun w => j.g.bind fun g => s.word? g w
    if j.word.isSome && wait.isNone then s.takeJoins ten kept js
    else if behind j kept || (j.word.isSome && !(s.runs (j.g.getD 0))) then s.takeJoins ten (kept ++ [j]) js
    else match s.takeRecord ten j.va j.team (if j.word.isSome then .spawn else .join) j.bytes with
      | .accepted s' => (match wait with | some o => s'.complete (j.g.getD 0) o [] | none => s').takeJoins ten kept js
      | .full s' bs => s'.takeJoins ten (kept ++ [{ j with bytes := some bs }]) js
      | .reading s' => s'.takeJoins ten (kept ++ [j]) js

/-- Sward's turn at the records that groups have handed over. -/
def State.takeJoin (s : State) (ten : Nat) : State := s.takeJoins ten [] (s.ten ten).joinWait

/-! ## spawn, joinc (07 R193-R195) -/

/-- The checks of 07 R193 on an object of `n` bytes: its address, or the fault. -/
def objectCheck (r : Nat) (o : Int) (n : Nat) : Except (Nat × Nat) Nat :=
  if recBad r [1] then .error (0x02, 0)
  else if !(recIn r o n) then .error (0x10, 0)
  else
    let a := recAddr r o.toNat
    if a % n != 0 then .error (0x13, a)
    else match rangeFault 0 a (a + n - 1) with
      | some (code, _, va) => .error (code, va)
      | none => .ok a

/-- The record is taken at once unless it must wait: for an earlier record of the group, for its bytes, or for room in its band. -/
def execSpawn (c : Ctl) (f : F64) (s : State) : Outcome State Fault Refusal :=
  groupWide (.spawn c f) c s fun x =>
    let low : Nat := 0
    match objectCheck (x.breg f.a).toNat (x.sreg f.b).toInt 64 with
    | .error (code, va) => .trap x.s code low va 0
    | .ok va =>
      x.access .load [(low, va)] fun _ =>
      if !x.G.clear then .stall x.s .other true
      else x.releasedAll 4
        (let later := fun (s : State) (bs : Option (List Byte)) =>
          Res.hold (s.modTen x.ten fun t => { t with joinWait := t.joinWait ++ [⟨va, x.tid, some x.g, some x.G.seq, bs⟩] }) (x.holding [] .spawn)
        if (x.s.ten x.ten).joinWait.any fun j => j.g == some x.g then later x.s none
        else match x.s.takeRecord x.ten va x.tid .spawn none with
          | .accepted s => .go s
          | .full s bs => later s (some bs)
          | .reading s => later s none)

def execJoinc (c : Ctl) (f : F64) (s : State) : Outcome State Fault Refusal :=
  groupWide (.joinc c f) c s fun x =>
    let low : Nat := 0
    let d := f.d.toNat
    match objectCheck (x.breg f.a).toNat (x.sreg f.b).toInt 16 with
    | .error (code, va) => .trap x.s code low va 0
    | .ok va => x.access (.atomic false) [(low, va)] fun ls =>
      let as := mkAccs [(low, va)] ls 16 fun _ => []
      let un := unAll as
      if !x.G.clear || x.G.touches as || !x.fits as then .stall x.s .other true
      else x.relThen 4 un
        (match firstPoison x.s as with
         | some a => .out x.s (x.oword [.s d] (.bad a.lane a.va))
         | none => match as with
           | [] => .go x.s
           | a :: _ =>
             let acq := if un then 0 else 4
             if isPeer a then
               x.outWord { x.oword [.s d] (.fwdJoin a d) with acq := acq, isLoad := true, unOnly := un, so := soAny as }
             else
               let r := x.s.joinWord (some x.G.core) a.own a.pa
               let s := match r.2.1 with | some cr => r.2.2.joinEnqueue x.ten cr x.tid (some x.g) | none => r.2.2
               -- performed, and handed to Sward: its token is free (06 R166)
               .out s { x.oword [.s d] (.owed [.s d (BitVec.ofNat 64 r.1)]) with acq := acq, so := soAny as, tok := none })

/-! ## Submission events (19 R399-R401) -/

/-- The tenancy that owns a launch window page (19 R399). -/
def State.windowOwner (s : State) (page : Nat) : Option Nat :=
  match (List.range 16).find? fun t => (s.ten t).en && (s.ten t).lwoff == page with
  | some t => some t
  | none => (List.range 16).find? fun t => (s.ten t).lwoff == page

def State.winDrop (s : State) (ten : Nat) : State := s.modTen ten fun t => { t with winDropped := t.winDropped + 1#64 }

/-- LAUNCH_WINDOW_WRITE. Only a write of 64 bytes at a multiple of 64 is a submission; while bring-up holds, none is (23 R471). -/
def execLaunchWindowWrite (page off : Nat) (bytes : List Byte) (s : State) : Outcome State Fault Refusal :=
  event s (if s.boot.hold then none else (s.windowOwner page).bind fun ten =>
    if bytes.length != 64 || off % 64 != 0 then none
    else match s.submit ten bytes 0 .window true with
      | .done s => some s
      | .dropped s => some (s.winDrop ten)
      | .full => none)

/-- LAUNCH_DATAGRAM: the port table binds destination port and source address to one tenancy. -/
def execLaunchDatagram (d : Datagram) (s : State) : Outcome State Fault Refusal :=
  let p := d.payload
  let n := leNat (p.take 4)
  let ver := bitsOf n 16 8
  event s (if !(s.ports.getD d.port false) || p.length != 72 || bitsOf n 0 16 != 0x5357 || bitsOf ver 0 7 != 1 || !d.checksumOk then none
    else match s.boot.cfg.ports.find? fun b => b.dstPort == d.dstPort && b.srcAddr == d.srcAddr with
      | none => none
      | some b =>
        if bitsOf n 24 8 != b.ten then none
        else some ((s.submit b.ten (p.drop 8) 0 (.datagram d.srcAddr d.srcPort (p.take 8) (bitAt ver 7)) true).state s))

/-- MC_SUBMIT. -/
def execMcSubmit (ten : Nat) (bytes : List Byte) (s : State) : Outcome State Fault Refusal :=
  event s (if ten < 16 && bytes.length == 64 then some ((s.submit ten bytes 0 .mc true).state s) else none)

/-! ## Admission and pre-emption events -/

/-- Teams of a launch start or resume at the places given. -/
def State.placeAll (s : State) (l : Nat) (items : List (Option Nat × Nat × List Nat)) : State :=
  items.foldl (fun (s : State) it => match it.1 with
    | some t => s.resumeTeam t it.2.1 it.2.2
    | none => s.startTeam l it.2.1 it.2.2) s

/-- ADMISSION_DECISION: the decision concerns the cluster of the first team it places. Sward has started (23 R471). -/
def execAdmissionDecision (cluster : Nat) (s : State) : Outcome State Fault Refusal :=
  event s (s.decision.bind fun (l, items) =>
    if s.boot.step != 7 || (items.headD (none, 16, [])).2.1 != cluster then none
    else some (s.placeAll l items))

/-- `a` comes before `b` in victim order (19 R407). -/
def State.victimBefore (s : State) (a b : Nat) : Bool :=
  let A := s.team a
  let B := s.team b
  let x := (s.launch A.launch).band
  let y := (s.launch B.launch).band
  y < x || (x == y && (B.admitNo < A.admitNo || (A.admitNo == B.admitNo && B.idx < A.idx)))

def insVictim (s : State) (t : Nat) : List Nat → List Nat
  | [] => [t]
  | x :: xs => if s.victimBefore t x then t :: x :: xs else x :: insVictim s t xs

/-- Running teams of a cluster in bands beyond `band`, in victim order. -/
def State.victims (s : State) (cl band : Nat) : List Nat :=
  ((List.range s.teams.length).filter fun i =>
    let t := s.team i
    t.life == .running && t.cluster == cl && band < (s.launch t.launch).band).foldl (fun acc i => insVictim s i acc) []

/-- The shortest prefix of the victims whose going makes room. -/
def State.victimPrefix (s : State) (cl : Nat) (h : Header) (iqs : Nat) (ign extra vs : List Nat) : Option (List Nat × List Nat) :=
  (List.range (vs.length + 1)).findSome? fun n => (s.coresFor cl h iqs (ign ++ vs.take n) extra).map fun cs => (vs.take n, cs)

/-- Clusters picked, and victims, for the items of a candidate that do not fit (19 R407). Teams that are stopping already
count as gone. -/
def State.pickVictims (s : State) (l : Nat) (ign : List Nat) :
    List (Option Nat) → Nat → List Nat → List (Nat × Nat) → List Nat → Option (List (Nat × Nat) × List Nat)
  | [], _, _, picks, vs => some (picks, vs)
  | it :: its, n, extra, picks, vs =>
    let L := s.launch l
    let h := L.hdr
    let cls := (s.clustersFor l it n).filter fun c => !(picks.any (·.2 == c))
    match s.bestCluster cls h L.crec.iqs (ign ++ vs) extra with
    | some (_, cs) => s.pickVictims l ign its (nextNew it n) (extra ++ cs) picks vs
    | none =>
      let opts := cls.filterMap fun c =>
        (s.victimPrefix c h L.crec.iqs (ign ++ vs) extra ((s.victims c (s.effBand L)).filter fun v => !(vs.contains v))).map fun r => (c, r)
      let cost := fun (r : Nat × List Nat × List Nat) => r.2.1.foldl (fun n t => n + (s.hdrOf (s.team t)).teamSz) 0
      let better := fun (a b : Nat × List Nat × List Nat) =>
        cost a < cost b || (cost a == cost b && s.victimBefore (a.2.1.headD 0) (b.2.1.headD 0))
      match opts.foldl (fun (b : Option (Nat × List Nat × List Nat)) a => match b with
        | none => some a
        | some y => if better a y then some a else some y) none with
      | none => none
      | some (c, v, cs) => s.pickVictims l ign its (nextNew it n) (extra ++ cs) (picks ++ [(s.itemIdx it n, c)]) (vs ++ v)

/-- Teams of a launch that wait and are not barred, in the order of R404: saved, then those that have never started. -/
def State.waiting (s : State) (l : Nat) : List (Option Nat) :=
  let L := s.launch l
  let saved := ((s.savedTeams l).filter fun t => !(s.team t).isBarred).map some
  if L.crec.prog == 0 then s.jointItems l
  else if L.crec.prog == 2 then saved ++ (if L.started.length < L.crec.teams && L.tfin == L.started.length then [none] else [])
  else saved ++ List.replicate (L.crec.teams - L.started.length) none

/-- Teams on their way out. -/
def State.leaving (s : State) : List Nat := (List.range s.teams.length).filter fun i => (s.team i).life == .stopping

/-- PREEMPT_BAND: the record at the head of a band takes victims of greater bands when its candidate does not fit, also not in the
room of the teams that are leaving. -/
def execPreemptBand (ten band : Nat) (s : State) : Outcome State Fault Refusal :=
  event s (((s.bandLaunches ten band).find? fun l => !(s.waiting l).isEmpty).bind fun l =>
    let L := s.launch l
    let items := if L.crec.prog == 0 then s.waiting l else (s.waiting l).take 1
    if !(s.slotsFor ten items) || (s.plan l s.leaving items).isSome then none
    else ((s.modLaunch l fun x => { x with picks := [] }).pickVictims l s.leaving items L.started.length [] [] []).bind fun (picks, vs) =>
      if vs.isEmpty then none
      else some ((s.modLaunch l fun x => { x with picks := picks }).preempt vs false))

/-- Those of the items, in turn, that find places; one that finds none is passed over. `n` is the number of the next new team. -/
def State.placeable (s : State) (l : Nat) (ign : List Nat) : List (Option Nat) → Nat → List Nat → List (Option Nat × Nat × List Nat)
  | [], _, _ => []
  | it :: its, n, extra =>
    let L := s.launch l
    let room := it.isSome || (s.slotsUsed L.ten).length + (n - L.started.length) < (s.ten L.ten).nslot
    match if room then s.placeFor l ign it n extra else none with
    | none => s.placeable l ign its n extra
    | some (c, cs) => (it, c, cs) :: s.placeable l ign its (nextNew it n) (extra ++ cs)

/-- PREEMPT_PROGRESS (01 R32): more of the launch's waiting teams find places in the room this one frees than in the room of those that
are leaving. -/
def execPreemptProgress (team : Nat) (s : State) : Outcome State Fault Refusal :=
  let t := s.team team
  let l := t.launch
  let L := s.launch l
  let fits := fun (ign : List Nat) => s.placeable l ign (s.waiting l) L.started.length []
  let places := fits (team :: s.leaving)
  event s (if t.life != .running || L.crec.prog != 1 || s.clock < t.startAt + 100 * Config.cyclesPerUs ||
      places.length ≤ (fits s.leaving).length then none
    else match s.firstTry (team :: s.leaving) (s.bandLaunches t.ten (s.effBand L)) with
      | some (l', _) =>
        if l' != l then none
        else
          let new := (places.filter fun i => i.1.isNone).zipIdx
          let s : State := s.modLaunch l fun x => { x with picks := new.map fun i => (L.started.length + i.2, i.1.2.1) }
          let s : State := s.modTeam team fun t => { t with
            barred := (s.savedTeams l).map fun i => (s.team i).idx, barAll := decide (L.started.length < L.crec.teams) }
          some (s.preempt [team] false)
      | none => none)

/-- PREEMPT_THERMAL: one move per core per 100 µs (19 R407). -/
def execPreemptThermal (core : Nat) (s : State) : Outcome State Fault Refusal :=
  let c := s.core core
  let vs := (List.range s.teams.length).filter fun i => (s.team i).life == .running && (s.team i).cores.contains core
  event s (if c.lowSamples < 2 || vs.isEmpty || (match c.lastMove with | some m => s.clock < m + 100 * Config.cyclesPerUs | none => false) then none
    else some ((s.modCore core fun c => { c with lastMove := some s.clock }).preempt vs true))

/-- A team that went for heat resumes at once where its cluster takes it, a concurrent launch as a whole (19 R407). -/
def State.resumeHot (s : State) (team : Nat) : State :=
  let l := (s.team team).launch
  let items := if (s.launch l).crec.prog == 0 then s.jointItems l else [some team]
  if !(s.team team).hot || items.isEmpty || (s.launch l).halted then s
  else match s.plan l [] items with
    | some places => s.placeAll l places
    | none => s

/-- Teams that are saved together: those of a concurrent launch that are leaving (01 R30). -/
def State.savedWith (s : State) (team : Nat) : List Nat :=
  let l := (s.team team).launch
  s.leaving.filter fun i => i == team || ((s.team i).launch == l && (s.launch l).crec.prog == 0)

/-- TEAM_SAVED. -/
def execTeamSaved (team : Nat) (s : State) : Outcome State Fault Refusal :=
  let ts := s.savedWith team
  event s (if (s.team team).life == .stopping && ts.all s.canSave then
    some (ts.foldl (fun (s : State) i => s.resumeHot i) (ts.foldl (fun (s : State) i => s.saveTeam i) s))
  else none)

/-! ## Completion (19 R408-R410) -/

/-- The launch has nothing left to run and its packets are acknowledged: its status and fault code. -/
def State.launchOver (s : State) (l : Nat) : Option (Nat × Nat) :=
  let L := s.launch l
  let open' := s.sent.any fun p => !p.lost && !p.refused && L.started.contains p.team
  let live := L.started.any fun t => (s.team t).life.live || (s.team t).lingers
  if L.completed || live || open' then none
  else match L.abort with
    | some a => some a
    | none => if L.crec.teams ≤ L.tfin && L.crec.teams ≤ L.started.length then some (0x01, 0) else none

/-- The 32 bytes of a completion record. -/
def cmplBytes (status fcode tfin tstart tend : Nat) : List Byte :=
  leBytes 8 (2 ^ 63 + status * 2 ^ 32 + fcode) ++ leBytes 4 tfin ++ leBytes 4 0 ++ leBytes 8 tstart ++ leBytes 8 tend

def Launch.cmplRecord (L : Launch) : List Byte := cmplBytes L.final.1 L.final.2 L.tfin L.tstart L.tend

/-- The `joinc` on JOIN by Sward, as an agent at `.dev`; a failing one is dropped with a NOTE. -/
def State.finalJoin (s : State) (l : Nat) : State :=
  let L := s.launch l
  match s.swLine L.ten (launchWho l) L.crec.join true (.atomic false) with
  | .error (.wait s) => s
  | .error (.fault s code va) => (s.note L.ten code 1 va 0 L.crva 0).modLaunch l fun x => { x with phase := 4 }
  | .ok (x, s) =>
    let s : State := s.modLaunch l fun x => { x with phase := 4 }
    match x.own with
    | .peer p => (s.forwardTo .join L.ten (L.started.headD noTeam) (launchWho l) l p x.pa L.crec.join 16 x.cnt .join).2
    | own =>
      let r := s.joinWord none own x.pa
      match r.2.1 with
      | some cr => r.2.2.joinEnqueue L.ten cr (L.started.headD 0) none
      | none => r.2.2

/-- A completion write that fails is dropped and reported. -/
def State.dropCmpl (s : State) (l code va : Nat) : State :=
  let L := s.launch l
  ((s.forget .swStore (launchWho l)).note L.ten code 0 va 0 L.crva 0).modLaunch l fun x => { x with phase := 3, written := false }

/-- Write part of the completion record and go to the next phase. -/
def State.writeCmpl (s : State) (l off phase : Nat) (bs : List Byte) : State :=
  let L := s.launch l
  match s.swLine L.ten (launchWho l) L.crec.cmpl true .store with
  | .error (.wait s) => s
  | .error (.fault s code va) => s.dropCmpl l code va
  | .ok (x, s) => (s.swWrite L.ten (launchWho l) L.crec.cmpl x off bs).modLaunch l fun y => { y with phase := phase }

/-- What Sward has written for a launch is acknowledged (05 R131): `k` goes on. -/
def State.afterAck (s : State) (l : Nat) (k : State) : State :=
  if s.storesLost .swStore (launchWho l) then s.dropCmpl l 0x33 (s.launch l).crec.cmpl
  else if s.storesOpen .swStore (launchWho l) then s
  else k

/-- One phase of a completion (19 R410): bytes 31:8, then STAT, then the join, then the reply. -/
def State.completeStep (s : State) (l : Nat) : State :=
  let L := s.launch l
  if L.completed then s
  else if L.phase == 0 then
    match s.launchOver l with
    | none => s
    | some r =>
      let s : State := s.modLaunch l fun x => { x with final := r, tend := s.clock, written := x.crec.cmpl != 0 }
      if L.crec.cmpl == 0 then s.modLaunch l fun x => { x with phase := 3 } else s.writeCmpl l 8 1 ((s.launch l).cmplRecord.drop 8)
  else if L.phase == 1 then s.afterAck l (s.writeCmpl l 0 2 (L.cmplRecord.take 8))
  else if L.phase == 2 then s.afterAck l (s.modLaunch l fun x => { x with phase := 3 })
  else if L.phase == 3 then
    if L.final.1 == 0x01 && L.crec.join != 0 then s.finalJoin l else s.modLaunch l fun x => { x with phase := 4 }
  else if s.sent.any fun q => q.kind == .join && q.g == launchWho l then s
  else
    let s : State := match L.origin with
      | .datagram src port head true => s.emit (.reply src port (head ++ L.cmplRecord))
      | .window => if 0x10 ≤ L.final.1 && L.final.1 ≤ 0x15 then
          (if L.written then s.modTen L.ten fun t => { t with winAccepted := t.winAccepted + 1#64 } else s.winDrop L.ten) else s
      | _ => s
    s.modLaunch l fun x => { x with completed := true, picks := [] }

/-- LAUNCH_COMPLETION: the phases that can go on now. -/
def execLaunchCompletion (launch : Nat) (s : State) : Outcome State Fault Refusal :=
  event s (some ((List.range 5).foldl (fun s _ => s.completeStep launch) s))

end Sys2Proof.Machine
end

