-- ==== Sys2Proof/Machine/Errors.lean ====
section
/-! DEFINITION. Errors.lean: uncontained faults, detected storage errors, the poisoned lists and the error counters (21
R452-R455). -/

namespace Sys2Proof.Machine

open Host (Outcome)

/-- Every tenancy takes it. -/
def State.uncontainAll (s : State) (code : Nat) (d : Bool) : State :=
  (List.range s.tens.length).foldl (fun (s : State) t => s.uncontain t code d) s

/-- The causes of 21 R453. -/
def uncontainedCode (code : Nat) : Bool := 0x60 ≤ code && code ≤ 0x65

/-- UNCONTAINED_FAULT. -/
def execUncontainedFault (ten : Nat) (code : BitVec 8) (die : Bool) (s : State) : Outcome State Fault Refusal :=
  event s (if ten < 16 && uncontainedCode code.toNat then some (s.uncontain ten code.toNat die) else none)

/-! ## The poisoned list (21 R454) -/

/-- A line enters the list of its home die; a full list is uncontained for every tenancy. -/
def State.poisonLine (s : State) (line : Nat) : State :=
  let d := homeDieOf (line * 128)
  let l := (s.die d).poison
  if l.any fun e => e.2 == line then s
  else match (List.range 64).find? fun i => !(l.any fun e => e.1 == i) with
    | some i => s.modDie d fun x => { x with poison := x.poison ++ [(i, line)] }
    | none => s.uncontainAll 0x64 d

/-- POISON_ENTRY_CLEAR: the host's write of an entry; without bit 63 the entry is free. -/
def execPoisonEntryClear (die : Bool) (i : Nat) (value : Word) (s : State) : Outcome State Fault Refusal :=
  let new := if value.getLsbD 63 then [(i, bitsOf value.toNat 7 45)] else []
  event s (if i < 64 then some (s.modDie die fun x => { x with poison := (x.poison.filter fun e => e.1 != i) ++ new }) else none)

/-- ERROR_COUNTER_CLEAR: the host's write of a counter. -/
def execErrorCounterClear (die : Bool) (i : Nat) (value : Word) (s : State) : Outcome State Fault Refusal :=
  event s (if i < 9 then some (s.modDie die fun x => { x with errs := modAt x.errs i fun _ => value }) else none)

/-! ## Detected errors (21 R453) -/

/-- A raw or assembled L1 line that is fetched again: it leaves every L1 of the die. -/
def State.dropL1 (s : State) (d : Bool) (line : Nat) : State :=
  { s with cores := s.cores.zipIdx.map fun (c, i) =>
      if dieOf i == d then Core.dropAsm { c with l1 := c.l1.filter fun x => x.line != line } (line * 128) 128 else c }

/-- The entries of one translation structure that concern an address of a tenancy go, and are walked again. -/
def State.dropEntries (s : State) (e : StorageError) : State :=
  let va := e.line * 128
  let hit := fun (x : TlbEnt) => x.ten == e.ten && x.va ≤ va && va < x.va + x.size
  let onDie := fun (f : Core → Core) => s.cores.zipIdx.map fun ((c, i) : Core × Nat) => if dieOf i == e.die then f c else c
  match e.what with
  | .tlb => { s with
      cores := onDie fun c => { c with tlb := c.tlb.filter fun x => !hit x }
      ctlb := s.ctlb.zipIdx.map fun ((l, i) : List TlbEnt × Nat) => if dieOfCluster i == e.die then l.filter (fun x => !hit x) else l }
  | .stb => { s with
      cores := onDie fun c => { c with stb := c.stb.filter fun x => !((s.team x.team).ten == e.ten && x.page == va / 4096) } }
  | .ats => s.modDie e.die fun d => { d with ats := d.ats.filter fun x => !(x.pasid == (s.ten e.ten).pasid && x.hva ≤ va && va < x.hva + x.size) }
  | .walkCache => s.modDie e.die fun d => { d with walkCache := d.walkCache.filter fun x => !(x.ten == e.ten && x.va == va / 2 ^ lvlLo x.level) }
  | _ => s

/-- The data of a line of a stack cannot be corrected: every read of it is refused until it is written again (DESIGN CHOICE, log 25). -/
def State.spoilLine (s : State) (line : Nat) : State :=
  s.modDie (homeDieOf (line * 128)) fun d => { d with faulty := if d.faulty.contains line then d.faulty else d.faulty ++ [line] }

/-- A word of a resident scratchpad page cannot be corrected: its consumers meet it (21 R453). -/
def State.spoilWord (s : State) (tid addr : Nat) : State :=
  s.modFrame tid (addr / 4096) fun f => { f with bad := if f.bad.contains (addr % 4096 / 4) then f.bad else f.bad ++ [addr % 4096 / 4] }

/-- An array error is reported with the read data, on the die of its stack; while the burst is replayed its status is not taken (22
R460). -/
def State.arrayError (s : State) (line : Nat) (correctable : Bool) : State :=
  let d := homeDieOf (line * 128)
  if s.replaying line then s
  else if correctable then s.countErr d 0
  else (s.countErr d 1).spoilLine line

/-- STORAGE_ERROR_DETECT. What a consumer of uncorrectable data takes is MEM_UNCORRECTABLE at its word. -/
def execStorageErrorDetect (e : StorageError) (s : State) : Outcome State Fault Refusal :=
  let d := e.die
  event s (some (match e.what with
    | .hbm => s.arrayError e.line e.correctable
    | .l2 | .msc =>
      if e.correctable then s.countErr d 4
      else if e.dirty then (s.countErr d 5).poisonLine e.line
      else s.countErr d 5
    | .l1 => (s.dropL1 d e.line).countErr d 4
    | .scratchpad => if e.correctable then s else s.spoilWord e.spad.1 e.spad.2
    | .registerCache | .accStore | .itemQueue => if e.correctable then s else s.uncontain e.ten 0x60 d
    | .tlb | .stb | .ats | .walkCache => (s.dropEntries e).countErr d 6
    | .groupControl | .queueControl | .barrierControl => (s.countErr d 6).uncontain e.ten 0x63 d
    | .swardControl | .fabricControl => s.uncontainAll 0x63 d
    | .faultQueue => s.uncontain e.ten 0x65 d))

end Sys2Proof.Machine
end

