-- ==== Sys2Proof/Machine/Hbm.lean ====
section
/-! DEFINITION. Hbm.lean: link replay, training, refresh ownership, weighted fair queuing (22 R457-R463), thermal samples,
gating and the trip (22 R467, R468). Stack `k` attaches to die A below 6 and to die B from 6 on. -/

namespace Sys2Proof.Machine

open Host (Outcome)

/-! ## Pseudo-channels -/

def Pseudo.zero (key : Nat) : Pseudo := ⟨key, 0, [], (0, 1), (0, 1), []⟩
def State.pc (s : State) (key : Nat) : Pseudo := (s.pseudo.find? fun p => p.key == key).getD (Pseudo.zero key)
def State.setPc (s : State) (p : Pseudo) : State := { s with pseudo := p :: s.pseudo.filter fun q => q.key != p.key }

/-- A tenancy has an access outstanding on a channel: a word of a group, or a burst that waits there (21 R453). `tens` are those whose
engines, walks, Sward or words performed at issue have one (log 32). -/
def State.hasOn (s : State) (k channel : Nat) (tens : List Nat) (t : Nat) : Bool :=
  let on := fun (a : Nat × Nat) => a.1 < 2 ^ 52 && !inCarve a.1 && Config.stackOf (a.1 / 128) == k && Config.channelOf (a.1 / 128) == channel
  tens.contains t || (s.groups.any fun G => (s.team G.team).ten == t && G.outst.any fun o => o.spans.any on) ||
  s.pseudo.any fun p => p.key / 2 == 32 * k + channel && p.bursts.any fun b => !b.mc && b.ten == t

/-- A channel goes offline and stays so: it serves nothing more, and every tenancy with an access outstanding on it takes LINK_FATAL (22
R459, 21 R453). -/
def State.goOffline (s : State) (k channel : Nat) (tens : List Nat) : State :=
  let s1 : State := s.modStack k fun x => { x with offl := setBit x.offl channel true }
  let s1 : State := { s1 with pseudo := s1.pseudo.map fun p => if p.key / 2 == 32 * k + channel then { p with replays := 0, bursts := [] } else p }
  ((List.range 16).filter (s.hasOn k channel tens)).foldl (fun (s : State) t => s.uncontain t 0x61 (stackDie k)) s1

/-- Count a CRC error of a channel; the sixteenth within 1 ms starts a re-centring of its eyes (22 R458). -/
def Stack.crcError (x : Stack) (channel clock : Nat) : Stack :=
  let near := x.crc.filter fun e => e.1 == channel && clock < e.2 + 1000 * Config.cyclesPerUs
  let rest := x.crc.filter fun e => e.1 != channel
  if 15 ≤ near.length then { x with crc := rest, recentring := x.recentring.filter (· != channel) ++ [channel] }
  else { x with crc := (channel, clock) :: near ++ rest }

/-- BURST_CRC_FAIL: a check failed at a pseudo-channel. It is followed by a replay, up to eight for a burst; `passes` says that
this replay passes. The failure of the eighth takes the channel offline. -/
def execBurstCrcFail (b : BurstCrc) (s : State) : Outcome State Fault Refusal :=
  let d := stackDie b.stack
  let p := s.pc (64 * b.stack + b.channel)
  event s (if 12 ≤ b.stack || 64 ≤ b.channel || (s.stack b.stack).offl.getLsbD (b.channel / 2) then none
    else
      let s1 : State := (s.countErr d 2).modStack b.stack fun x => x.crcError (b.channel / 2) s.clock
      some (if p.replays < 8 then (s1.countErr d 3).setPc { p with replays := if b.passes then 0 else p.replays + 1 }
        else s1.goOffline b.stack (b.channel / 2) b.tens))

/-- EYE_RECENTRE_DONE. -/
def execEyeRecentreDone (stack channel : Nat) (s : State) : Outcome State Fault Refusal :=
  event s (if (s.stack stack).recentring.contains channel then
    some (s.modStack stack fun x => { x with recentring := x.recentring.filter (· != channel) }) else none)

/-- STACK_TRAINING, at bring-up or after self-refresh; `passed` is the capacity in GiB of a stack that passes: a stack that fails three times holds bring-up (22 R458, 23 R471). A capacity other
than 48 GiB is refused, which counts as a failure (22 R457; DESIGN CHOICE, log 32). -/
def execStackTraining (stack : Nat) (passed : Option Nat) (s : State) : Outcome State Fault Refusal :=
  let x := s.stack stack
  event s (if 12 ≤ stack || x.trnd || x.selfRef || s.boot.hold || s.boot.step < 2 then none
    else if passed == some 48 then some (s.modStack stack fun x => { x with trnd := true })
    else
      let s1 : State := s.modStack stack fun x => { x with trainFails := x.trainFails + 1 }
      some (if x.trainFails + 1 < 3 then s1
        else { s1 with boot := { s1.boot with hold := true, failc := 3, hbmf := setBit s1.boot.hbmf stack true } }))

/-- REFRESH_TICK: the owner of refresh refreshes all banks, or one; no architectural value changes (22 R457). -/
def execRefreshTick (stack : Refresh) (s : State) : Outcome State Fault Refusal :=
  event s (if (s.stack stack.stack).trnd && !(s.stack stack.stack).selfRef then
    some (s.modStack stack.stack fun x => if stack.bank.isSome then { x with perBank := x.perBank + 1 } else { x with refreshes := x.refreshes + 1 })
  else none)

/-- A stack enters self-refresh, or leaves it and must be trained again: by the MC, during power sequencing (22 R457, R458). -/
def State.selfRefresh (s : State) (stack : Nat) (enter : Bool) : State :=
  if s.boot.step != 0 && !s.tripped then s
  else s.modStack stack fun x =>
    if enter then { x with selfRef := true } else if x.selfRef then { x with selfRef := false, trnd := false } else x

/-- HEARTBEAT_MISS: a heartbeat of the base die has not come. At the second in a row the memory controller takes refresh until reset, and
refreshes every bank (22 R462). -/
def execHeartbeatMiss (stack : Nat) (s : State) : Outcome State Fault Refusal :=
  event s (if 12 ≤ stack || (s.stack stack).owner then none
    else some (s.modStack stack fun x =>
      if x.missed == 0 then { x with missed := 1 } else { x with missed := 0, owner := true, refreshes := x.refreshes + 1 }))

/-- A heartbeat comes; once the controller owns refresh it is ignored (22 R462). -/
def State.heartbeat (s : State) (stack : Nat) : State := s.modStack stack fun x => { x with missed := 0 }

/-! ## Weighted fair queuing (22 R463) -/

/-- Fractions with positive denominators. -/
def fracLt (a b : Nat × Nat) : Bool := a.1 * b.2 < b.1 * a.2
def fracMax (a b : Nat × Nat) : Nat × Nat := if fracLt a b then b else a
/-- `a + 65536 / w`, in lowest terms. -/
def fracAdd (a : Nat × Nat) (w : Nat) : Nat × Nat :=
  let n := a.1 * w + 65536 * a.2
  let d := a.2 * w
  (n / Nat.gcd n d, d / Nat.gcd n d)

/-- The previous tag of a tenancy in a sequence. -/
def Pseudo.setLast (p : Pseudo) (ten : Nat) (zero : Bool) (tag : Nat × Nat) : Pseudo :=
  { p with last := (ten, zero, tag) :: p.last.filter fun e => !(e.1 == ten && e.2.1 == zero) }

/-- A burst of a tenancy of weight `w` begins to wait and takes its tag. -/
def Pseudo.queue (ten w : Nat) (p : Pseudo) : Pseudo :=
  let zero := w == 0
  let prev := match p.last.find? fun e => e.1 == ten && e.2.1 == zero with | some e => e.2.2 | none => (0, 1)
  let tag := fracAdd (fracMax (if zero then p.v0 else p.v) prev) (if zero then 1 else w)
  ({ p with bursts := p.bursts ++ [⟨false, ten, zero, tag.1, tag.2, prev⟩] } : Pseudo).setLast ten zero tag

/-- A burst begins to wait at a pseudo-channel: one of a tenancy, or, without a tag, one of the MC. An offline channel takes none (22
R459). -/
def State.burst (s : State) (key : Nat) (ten : Option Nat) : State :=
  let p := s.pc key
  if 64 * Config.nStacks ≤ key || (s.stack (key / 64)).offl.getLsbD (key % 64 / 2) then s
  else match ten with
    | some t => s.setPc (p.queue t (s.ten t).hbmw)
    | none => s.setPc { p with bursts := p.bursts ++ [⟨true, 0, false, 0, 1, (0, 1)⟩] }

/-- The waiting bursts of a tenancy whose weight has become `w` take new tags, in their order (18 R384; log 32). -/
def Pseudo.retag (ten w : Nat) (p : Pseudo) : Pseudo :=
  let mine := p.bursts.filter fun b => b.ten == ten && !b.mc
  let rest : Pseudo := { p with bursts := p.bursts.filter fun b => b.ten != ten || b.mc }
  match mine with
  | [] => p
  | b :: _ => mine.foldl (fun (p : Pseudo) _ => p.queue ten w) (rest.setLast ten b.zero b.prev)

def State.retag (s : State) (ten : Nat) : State :=
  { s with pseudo := s.pseudo.map (Pseudo.retag ten (s.ten ten).hbmw) }

/-- A burst is served before another: the MC's ahead of every tag. -/
def Burst.before (a b : Burst) : Bool :=
  if a.mc || b.mc then a.mc && !b.mc
  else if a.zero != b.zero then b.zero
  else fracLt (a.num, a.den) (b.num, b.den) || (!(fracLt (b.num, b.den) (a.num, a.den)) && a.ten < b.ten)

/-- HBM_BURST_SERVE: `eligible` are the positions of the waiting bursts that DRAM timing allows. A pseudo-channel that replays
holds every later burst, and one whose channel re-centres or is offline serves none. -/
def execHbmBurstServe (stack channel : Nat) (eligible : List Nat) (s : State) : Outcome State Fault Refusal :=
  let p := s.pc (64 * stack + channel)
  let best := eligible.foldl (fun (b : Option (Burst × Nat)) i => match p.bursts[i]? with
    | none => b
    | some x => match b with
      | none => some (x, i)
      | some y => if x.before y.1 then some (x, i) else some y) none
  event s (if p.replays != 0 || 12 ≤ stack || 64 ≤ channel || (s.stack stack).recentring.contains (channel / 2) ||
      (s.stack stack).offl.getLsbD (channel / 2) then none
    else best.map fun x => s.setPc
      { p with bursts := p.bursts.eraseIdx x.2
               v := if x.1.zero || x.1.mc then p.v else (x.1.num, x.1.den)
               v0 := if x.1.zero then (x.1.num, x.1.den) else p.v0 })

/-! ## Thermal behaviour (22 R467, R468); temperatures are in 1/8 °C -/

/-- The cap of a stack's sensor, with its hysteresis. -/
def stackCap (cap t : Nat) : Nat :=
  if 760 ≤ t || (cap == 64 && 736 ≤ t) then 64
  else if 680 ≤ t || (cap != 255 && 656 ≤ t) then 192
  else 255

/-- The core term. -/
def coreTerm (t : Nat) : Nat := 255 - min 255 (2 * (t - 720))

/-- Local clusters next to local stack `j`. -/
def adjacent (j k : Nat) : Bool := k == j + (if 3 ≤ j then 1 else 0) || k == j + (if 3 ≤ j then 1 else 0) + 1

/-- A stack's sensor is sampled. -/
def Stack.sample (x : Stack) (t : BitVec 12) : Stack :=
  { x with temp := t, cap := stackCap x.cap t.toNat, tripSamples := if 840 ≤ t.toNat then x.tripSamples + 1 else 0,
           refx2 := if 680 ≤ t.toNat then true else if t.toNat < 656 then false else x.refx2 }

/-- The lower of the terms for core `i`. -/
def State.allowOf (s : State) (i t : Nat) : Nat :=
  let cl := clusterOf i
  (List.range 12).foldl (fun m k =>
    if (stackDie k == dieOfCluster cl) && adjacent (k % 6) (cl % 8) then min m (s.stack k).cap else m) (coreTerm t)

/-- A core's sensor is sampled. -/
def Core.sample (c : Core) (t : BitVec 12) (allow : Nat) : Core :=
  { c with temp := t, allow := BitVec.ofNat 8 allow, tripSamples := if 880 ≤ t.toNat then c.tripSamples + 1 else 0,
           lowSamples := if allow < c.floor.toNat then c.lowSamples + 1 else 0 }

/-- The die of a sensor that has reached its trip temperature on two consecutive samples. -/
def State.tripDie (s : State) : Option Bool :=
  match (List.range s.cores.length).find? fun i => 2 ≤ (s.core i).tripSamples with
  | some i => some (dieOf i)
  | none => ((List.range s.hbm.length).find? fun k => 2 ≤ (s.stack k).tripSamples).map stackDie

/-- THERMAL_SAMPLE: sensors in core and stack order; one that is not given keeps its value. -/
def execThermalSample (cores hbm : List (BitVec 12)) (s : State) : Outcome State Fault Refusal :=
  let hs : List Stack := s.hbm.zipIdx.map fun ((x, k) : Stack × Nat) => x.sample (hbm.getD k x.temp)
  let s1 : State := { s with hbm := hs }
  let new := s1.cores.zipIdx.map fun ((c, i) : Core × Nat) =>
    let t := cores.getD i c.temp
    c.sample t (s1.allowOf i t.toNat)
  let s2 : State := { s1 with cores := new }
  event s (some (match s2.tripDie with
    | some d => if s2.tripped then s2 else { s2.uncontainAll 0x62 d with tripped := true }
    | none => s2))

/-- What power-off leaves: host memory, and what the MC has fused. -/
def State.unpowered (s : State) : State :=
  { State.reset with power := false, hostMem := s.hostMem, free := s.free, inputs := s.inputs, outbox := s.outbox,
                     boot := { Boot.reset with bootcnt := s.boot.bootcnt, svn := s.boot.svn } }

/-- THERMAL_POWER_DOWN: the records and completion records of the trip are written. -/
def execThermalPowerDown (s : State) : Outcome State Fault Refusal :=
  event s (if s.tripped && s.launches.all (fun l => l.completed) && s.tens.all (fun t => t.fqWait.isEmpty) then some s.unpowered else none)

end Sys2Proof.Machine
end

