-- ==== Sys2Proof/Machine/Channel.lean ====
section
/-! DEFINITION. Channel.lean: the channel table, `csend`, `cput`, `cget`, `catom`, `arrset`, `arrwait`, and the events of the
fabric (14 R333-R345; 18 R387; 05 R145, R148; 20 R425, R426). -/

namespace Sys2Proof.Machine

open Host (Outcome)

/-! ## The channel table (14 R333, R334; 18 R387) -/

/-- Physical address of an entry of the team's table. -/
def State.chanAddr (s : State) (t : Team) (idx : Nat) : Nat :=
  (s.ten t.ten).chtbase + 32768 * ((s.launch t.launch).crec.chtix + t.idx) + 32 * idx

def chValid (e : Nat) : Bool := bitAt e 255
def chNack (e : Nat) : Bool := bitAt e 254
/-- Permission bits PL, PA, PG, PP, PS. -/
def permL : Nat := 253
def permA : Nat := 252
def permG : Nat := 251
def permP : Nat := 250
def permS : Nat := 249
def chWro (e : Nat) : Bool := bitAt e 248
def chPeer (e : Nat) : Nat := bitsOf e 232 8
def chRten (e : Nat) : Nat := bitsOf e 228 4
def chRep (e : Nat) : Nat := bitsOf e 216 12
def chAllow (e : Nat) : Nat := bitsOf e 176 40
def chSext (e : Nat) : Nat := bitsOf e 128 40
def chWext (e : Nat) : Nat := bitsOf e 88 40

/-- The unlimited allowance. -/
def allowMax : Nat := 2 ^ 40 - 1

/-- Steps 1 and 2 of 14 R334: the entry, or the fault code. -/
def Ctx.chanEntry (x : Ctx) (idx perm : Nat) : Except Nat Nat :=
  if x.hdr.chan ≤ idx then .error 0x30
  else
    let e := x.s.rdMem (x.s.chanAddr x.team idx) 32
    if !chValid e || chNack e || chPeer e == x.s.boot.cfg.device then .error 0x30
    else if !bitAt e perm then .error 0x31
    else .ok e

/-- The indivisible subtraction of step 6. -/
def State.spend (s : State) (addr e n : Nat) : State :=
  if chAllow e == allowMax then s else s.wrMem (addr + 22) 5 (chAllow e - n)

/-- The checks of a transfer of `n` bytes in the order of 14 R334. `loc` and `rem` are steps 3 and 4: fault code and
address. What follows gets the entry and the state with the allowance spent. A word that waits for its release has passed
them when it issued. It issues once no earlier acquire or release fence of the group is open (05 R132, R135). -/
def Ctx.channel (x : Ctx) (idx perm n : Nat) (loc : Option (Nat × Nat)) (rem : Nat → Option (Nat × Nat))
    (k : Nat → State → Res) : Res :=
  let low : Nat := 0
  let bad := fun (code va : Nat) => Res.trap x.s code low va (if code == 0x30 || code == 0x31 || code == 0x32 then idx else 0)
  if x.G.paid == some x.pc then k (x.s.rdMem (x.s.chanAddr x.team idx) 32) x.s
  else match x.chanEntry idx perm with
  | .error code => bad code 0
  | .ok e =>
    match loc with
    | some (code, va) => bad code va
    | none => match rem e with
      | some (code, va) => bad code va
      | none =>
        if x.s.isDead (chPeer e) then .trap x.s 0x33 low 0 (chPeer e)
        else if chAllow e < n && chAllow e != allowMax then bad 0x32 0
        else if !x.G.clear then .stall x.s .other true
        else k e ((x.s.spend (x.s.chanAddr x.team idx) e n).modGroup x.g fun G => { G with paid := some x.pc })

/-- What a transfer finds of the release it waits for; when it fails the allowance stays spent (14 R340). -/
def Rel.then (r : Rel) (spent : State) (k : Res) : Res :=
  match r with
  | .ok => k
  | .wait => .stall spent .acks true
  | .dead s p => .trap { spent with sent := s.sent } 0x33 0 0 p
  | .refused s ch => .trap { spent with sent := s.sent } 0x30 0 0 ch

/-- A release at `.dom` of a transfer. -/
def Ctx.relDom (x : Ctx) (rel : Bool) (spent : State) (k : Res) : Res := if rel then (x.s.relCheck x.g 5).then spent k else k

/-- What a `catom` waits for (14 R338): its release, or, after a `fence.rel`, that of the fence (05 R135); nothing where the owner's page is
UN. -/
def Ctx.relCatom (x : Ctx) (rel un : Bool) : Rel :=
  if un then .ok
  else if rel then x.s.relCheck x.g 5
  else match x.G.fence with
    | some n => x.s.relUpTo x.g 4 (· < n)
    | none => .ok

/-- Step 3: a local region of `n` bytes. -/
def Ctx.localBad (x : Ctx) (rem : Bool) (a n : Nat) : Option (Nat × Nat) :=
  match x.region rem a n with
  | .error e => some e
  | .ok _ => none

/-- Step 4: a remote region lies below a limit, and is 16-aligned, that of a `catom` too. -/
def remoteBad (lim a n : Nat) : Option (Nat × Nat) :=
  if lim < a + n then some (0x31, 0) else if a % 16 != 0 then some (0x13, a) else none

/-! ## Transfers (14 R335-R338) -/

/-- Packets of at most 256 bytes, cut at 256-byte boundaries of the remote address. The fuel is the number of bytes. -/
def cutPackets : Nat → Nat → List Byte → List (Nat × List Byte)
  | 0, _, _ => []
  | n + 1, a, bs =>
    if bs.isEmpty then []
    else
      let k := 256 - a % 256
      (a, bs.take k) :: cutPackets n (a + k) (bs.drop k)

/-- Record a packet of the word and give its number. -/
def Ctx.track (x : Ctx) (s : State) (kind : SentKind) (peer entry idx n : Nat) : Nat × State :=
  (s.nextId, { s with
    sent := s.sent ++ [{ s.mkSent kind x.tid x.g x.G.seq peer n with entry := entry, chan := idx }]
    nextId := s.nextId + 1
    peers := if s.isDead peer then s.peers else (s.queueTo peer (if kind == .get then 0 else n)).peers })

/-- Send the packets of a transfer. Those of one that has waited until its peer was dead are discarded (14 R345). -/
def Ctx.sendAll (x : Ctx) (s : State) (kind : SentKind) (idx e a : Nat) (ctr : Option Nat) (bs : List Byte) : State :=
  (cutPackets bs.length a bs).foldl (fun (s : State) p =>
    let r := x.track s kind (chPeer e) (s.chanAddr x.team idx) idx p.2.length
    if s.isDead (chPeer e) then r.2 else r.2.emit (.packet (chPeer e) (r.2.ten x.ten).secure (chRten e) (chRep e) p.1 p.2 ctr r.1)) s

/-- The request of a `cget` or `catom`; where its peer has died while it waited for its release it takes PEER_DEAD (14 R345). -/
def Ctx.ask (x : Ctx) (s : State) (kind : SentKind) (idx e off n : Nat) (op : RemoteOp) (o : OWord) : Res :=
  if s.isDead (chPeer e) then .trap s 0x33 0 0 (chPeer e)
  else
    let r := x.track s kind (chPeer e) (s.chanAddr x.team idx) idx n
    .hold (r.2.emit (.request (chPeer e) (r.2.ten x.ten).secure (chRten e) (chRep e) off op r.1)) o

def execCsend (c : Ctl) (f : M96) (s : State) : Outcome State Fault Refusal :=
  groupWide (.csend c f) c s fun x =>
    let n := fld f.c 0 5 + 1
    let idx := (x.sreg f.d).toNat
    let a := (x.sreg f.b).toNat
    let i := f.imm.toNat
    let bs := (List.range n).flatMap fun k => leBytes 8 (x.G.s.getD (f.a.toNat + k) 0#64).toNat
    let ctr := if bitAt i 22 then none else some (bitsOf i 0 22 * 16)
    x.channel idx permS (8 * n) none (fun e => remoteBad (chSext e) a (8 * n)) fun e s =>
      x.relDom (bitAt i 23) s (.go (x.sendAll s .send idx e a ctr bs))

/-- The counter granule a register names; none with bit 63 set. -/
def ctrOf (w : Word) : Option Nat := if w.getLsbD 63 then none else some (bitsOf w.toNat 0 26)

/-- A counter register outside the values of 14 R335: its granule is not 16-aligned, which is RESERVED_FIELD (06 R159). -/
def ctrBad (c : Option Nat) : Bool := match c with | some a => a % 16 != 0 | none => false

def execCput (c : Ctl) (w : W128) (s : State) : Outcome State Fault Refusal :=
  groupWide (.cput c w) c s fun x =>
    let n := w.x.toNat
    let idx := (x.sreg w.d).toNat
    let a := (x.sreg w.b).toNat
    let l := (x.sreg w.a).toNat
    let rem := w.y.getLsbD 0
    let ctr := ctrOf (x.sreg w.c)
    let low : Nat := 0
    if ctrBad ctr then .trap x.s 0x02 low 0 0
    else x.channel idx permP n (x.localBad rem l n) (fun e => remoteBad (chSext e) a n) fun e s =>
      x.relDom (w.y.getLsbD 1) s
        (match x.region rem l n with
          | .error _ => .go x.s
          | .ok addr => match s.bringRead x.G.core x.tid [(addr, n)] with
            | .starve s' ps => x.starve { s with cores := s'.cores, mem := s'.mem } ps
            | .bad s lane va => .out s (x.oword [] (.bad lane va))
            | .ok s _ => .go (x.sendAll s .put idx e a ctr (s.spRead x.tid addr n)))

/-- The word holds its lanes, and its group's fetch, until the owner reports that every line passed translation. -/
def execCget (c : Ctl) (w : W128) (s : State) : Outcome State Fault Refusal :=
  groupWide (.cget c w) c s fun x =>
    let n := w.x.toNat
    let idx := (x.sreg w.d).toNat
    let a := (x.sreg w.b).toNat
    let l := (x.sreg w.a).toNat
    let rem := w.y.getLsbD 0
    let ctr := ctrOf (x.sreg w.c)
    let ctrOut := match ctr with | some g => if x.s.spaceLen x.team < g + 16 then some (0x20, g) else none | none => none
    let low : Nat := 0
    if ctrBad ctr then .trap x.s 0x02 low 0 0
    else x.channel idx permG n ((x.localBad rem l n).or ctrOut) (fun e => remoteBad (chWext e) a n) fun e s =>
      x.relDom (w.y.getLsbD 1) s
        (match x.region rem l n with
         | .error _ => .go x.s
         | .ok addr => x.ask s .get idx e a n (.read n) (x.holding [] (.cget addr n n ctr)))

/-- Its request is sent at once, which completes a `catom` that returns nothing (06 R166): it then takes no token, but holds its lanes
until the owner reports that the line passed translation, and later accesses until an acquire is over. Whether the owner's page is UN,
where SEM orders nothing, only the owner knows: a free value (log 12), which the owner's answer bears out. -/
def execCatom (c : Ctl) (f : M96) (s : State) : Outcome State Fault Refusal :=
  groupWide (.catom c f) c s fun x =>
    let wide := atomWide f
    let n := if wide then 8 else 4
    let idx := (x.sreg f.b).toNat
    let o := (x.sreg f.a).toInt + atomImm f
    let val := fun (r : BitVec 7) => if wide then x.sreg r else (x.sreg r) &&& 0xFFFFFFFF#64
    let sem := atomSem f
    let ret := atomRet f
    let d := f.d.toNat
    let rem := fun e => if o < 0 then some (0x31, 0) else remoteBad (chWext e) o.toNat n
    let wro := match x.chanEntry idx permA with | .ok e => chWro e && (rem e).isNone && !x.s.isDead (chPeer e) | .error _ => false
    if x.G.paid != some x.pc && wro then .trap x.s 0x16 0 0 0
    else x.channel idx permA n none rem fun e s =>
      let (v, s) := if sem == 0 then (0#64, s) else s.draw
      let un := v.getLsbD 0
      let h := x.holding (if ret then [.s d] else []) (.catom ret d (atomT f))
      (x.relCatom (2 ≤ sem) un).then s
        (x.ask s .atom idx e o.toNat n (.atom (atomOp f) (atomT f) (val f.c) (val f.d))
          { h with acq := if sem % 2 == 1 && !un then 5 else 0, rel := if 2 ≤ sem && !un then 5 else 0, unOnly := un,
                   tok := if ret then h.tok else none })

/-! ## Arrival counters (14 R342-R344) -/

def execArrset (c : Ctl) (f : F64) (s : State) : Outcome State Fault Refusal :=
  groupWide (.arrset c f) c s fun x =>
    let low : Nat := 0
    let a := (x.sreg f.a).toNat
    let b := (x.sreg f.b).toNat
    let cc := (x.sreg f.c).toNat
    if 512 ≤ cc then .trap x.s 0x02 low 0 0
    else match x.region (f.mod.getLsbD 0) a 16 with
      | .error (code, va) => .trap x.s code low va 0
      | .ok addr =>
        if !x.G.clear then .stall x.s .other true
        else match (if f.mod.getLsbD 1 then x.s.bringRead x.G.core x.tid [(addr, 8)] else x.s.bring x.G.core x.tid (pagesOf addr 16)) with
          | .starve s ps => x.starve s ps
          | .bad s lane va => .out s (x.oword [] (.bad lane va))
          | .ok s _ =>
            let count := if f.mod.getLsbD 1 then s.spReadLE x.tid addr 8 else 0
            let v := count + bitsOf b 0 48 * 2 ^ 64 + cc * 2 ^ 112
            .go (s.spWrite x.tid addr (leBytes 16 v))

/-- The test at the port core: COUNT where COUNT ≥ TARGET; the granule's page is resident. -/
def State.arrTest (s : State) (tid addr : Nat) : Option Nat :=
  let n := s.spReadLE tid addr 16
  if bitsOf n 64 48 ≤ bitsOf n 0 64 then some (bitsOf n 0 64) else none

/-- The peer whose death ends a wait. -/
def State.arrSrc (s : State) (tid addr : Nat) : Option Nat :=
  let n := s.spReadLE tid addr 16
  if bitAt n 120 then some (bitsOf n 112 8) else none

/-- A test that passes releases the group at once, and with it the token (06 R166). -/
def execArrwait (c : Ctl) (f : F64) (s : State) : Outcome State Fault Refusal :=
  groupWide (.arrwait c f) c s fun x =>
    let low : Nat := 0
    let d := f.d.toNat
    match x.region (f.mod.getLsbD 0) (x.sreg f.a).toNat 16 with
    | .error (code, va) => .trap x.s code low va 0
    | .ok addr =>
      if !x.G.clear then .stall x.s .other true
      else match x.s.bringRead x.G.core x.tid [(addr, 16)] with
        | .starve s ps => x.starve s ps
        | .bad s lane va => .out s (x.oword [.s d] (.bad lane va))
        | .ok s _ => match s.arrTest x.tid addr with
          | some n => .out s { x.oword [.s d] (.land [.s d (BitVec.ofNat 64 n)]) with acq := 5, tok := none }
          | none =>
            let dl := if f.c.toNat == 0 then none else some (s.clock + 2 ^ f.c.toNat * Config.cyclesPerUs)
            .hold s { x.holding [.s d] (.arrWait addr d dl) with acq := 5 }

/-- ARRWAIT_SATISFY. -/
def execArrwaitSatisfy (g word : Nat) (s : State) : Outcome State Fault Refusal :=
  onWait s g word fun o => match o.kind with
    | .arrWait addr d _ =>
      let tid := (s.group g).team
      match s.bringRead (s.group g).core tid [(addr, 16)] with
      | .ok s _ => (s.arrTest tid addr).map fun n => s.complete g o [.s d (BitVec.ofNat 64 n)]
      | .bad s _ va => some (s.lateFault g o (o.held.headD 0) va)
      | .starve .. => none
    | _ => none

/-- ARRWAIT_TIMEOUT: the time limit, or the death of SRC (14 R344). -/
def execArrwaitTimeout (g word : Nat) (s : State) : Outcome State Fault Refusal :=
  onWait s g word fun o => match o.kind with
    | .arrWait addr _ _ =>
      let tid := (s.group g).team
      if o.overdue s.clock then some (s.arrivalTimeout g o)
      else match s.bring (s.group g).core tid (pagesOf addr 16) with
      | .ok s _ => if (match s.arrSrc tid addr with | some p => s.isDead p | none => false) then some (s.arrivalTimeout g o) else none
      | _ => none
    | _ => none

/-! ## Arrivals (05 R145, 18 R387, 14 R341) -/

/-- The live team that an endpoint of a tenancy is bound to: the one admitted earliest among those that use its table. -/
def State.boundTeam (s : State) (ten rep : Nat) : Option Nat :=
  let e := s.rdMem ((s.ten ten).epbase + 8 * rep) 8
  if !bitAt e 63 || bitsOf e 12 51 != 0 then none
  else ((List.range s.teams.length).filter fun i =>
      let t := s.team i
      t.ten == ten && t.life.live && (s.launch t.launch).crec.chtix + t.idx == bitsOf e 0 12).foldl (fun b i => match b with
    | none => some i
    | some j => if (s.team i).firstAdmit < (s.team j).firstAdmit then some i else some j) none

/-- One indivisible addition to COUNT; FE bits stay. -/
def State.addCount (s : State) (tid : Nat) (ctr : Option Nat) (n : Nat) : State :=
  match ctr with
  | some a => s.spWrite tid a (leBytes 8 (s.spReadLE tid a 8 + n))
  | none => s

/-- Bytes, then FE bits, then the count; none while a page has no frame. -/
def State.land (s : State) (tid addr : Nat) (bs : List Byte) (ctr : Option Nat) : Option State :=
  match s.bring (s.portCore (s.team tid) addr) tid (pagesOf addr bs.length ++ (match ctr with | some a => pagesOf a 16 | none => [])) with
  | .ok s _ => some ((s.spWriteFull tid addr bs).addCount tid ctr bs.length)
  | _ => none

/-- PACKET_ARRIVAL. A packet that answers a `cget` of this device lands at its offset in the transfer; any other is delivered
to the bound team or refused. -/
def execPacketArrival (p : PacketIn) (s : State) : Outcome State Fault Refusal :=
  event s (match p.answers with
    | some id => (s.sent.find? fun q => q.id == id && q.kind == .get && !q.lost).bind fun q => (s.word? q.g q.word).bind fun o => match o.kind with
      | .cget addr len left ctr =>
        if p.bytes.isEmpty || len < p.addr + p.bytes.length || left < p.bytes.length || !o.held.isEmpty then none
        else (s.land q.team (addr + p.addr) p.bytes ctr).map fun s =>
          let left := left - p.bytes.length
          if left == 0 then s.complete q.g o []
          else s.modGroup q.g fun G => { G with outst := G.outst.map fun y => if y.id == o.id then { y with kind := .cget addr len left ctr } else y }
      | _ => none
    | none =>
      let no := some (s.emit (.ack p.peer .unbound))
      if 16 ≤ p.rten || ((s.ten p.rten).secure && !p.secure) then no
      else match s.boundTeam p.rten p.rep with
        | none => no
        | some t =>
          let len := s.spaceLen (s.team t)
          if len < p.addr + p.bytes.length || (match p.ctr with | some a => decide (len < a + 16) | none => false) then no
          else (s.land t p.addr p.bytes p.ctr).map fun s => s.emit (.ack p.peer (.done 0#64)))

/-! ## Acknowledgements and dead peers (14 R339-R341, R345; 05 R148) -/

/-- NACK of an entry is set. -/
def State.setNack (s : State) (entry : Nat) : State :=
  s.wrMem (entry + 31) 1 (setBits (s.rdMem (entry + 31) 1) 6 1 1)

def State.dropSent (s : State) (id : Nat) : State := { s with sent := s.sent.filter fun p => p.id != id }

/-- A fault raised precisely at a word that still holds its lanes. -/
def State.faultHeld (s : State) (g : Nat) (o : OWord) (code info : Nat) : State :=
  (s.takeBack g o).groupFault g ⟨code, 0, o.held.headD 0, info, o.pc, 0, false, o.held, o.next, false, 0⟩

/-- sD of a `catom`: sign-extended for i32, zero-extended for n32 (14 R338). -/
def catomWrites (ret : Bool) (d t : Nat) (v : Word) : List RegWrite :=
  if !ret then []
  else [.s d (if t == 0 then (v.setWidth 32).signExtend 64 else if t == 1 then (v.setWidth 32).setWidth 64 else v)]

/-- Words that the owner has accepted: the lanes of a `cget` or `catom` go on; a `catom` that returns nothing and acquires nothing
leaves the group (14 R337, R338; 06 R166). -/
def State.accepted (s : State) (g : Nat) (o : OWord) : State :=
  match o.kind with
  | .catom false _ _ => if o.acq == 0 then s.complete g o [] else s.modGroup g fun G => G.passOn o
  | _ => s.modGroup g fun G => G.passOn o

/-- The answer that tells the kind of the owner's page suits a `catom`: its SEM orders something where the page is not UN (14 R338). -/
def OWord.suits (o : OWord) (un : Bool) : Bool := o.unOnly == un || (!o.unOnly && o.acq == 0 && o.rel == 0)

/-- PACKET_ACK. An access that the owner refuses had no effect there (18 R378); a `joinc` of a completed launch is then reported (19 R410).
What a word's load, atomic or `joinc` asked of a peer comes with LOAD_DATA_LAND. -/
def execPacketAck (id : Nat) (a : AckIn) (s : State) : Outcome State Fault Refusal :=
  event s ((s.sent.find? fun q => q.id == id && !q.lost && !q.refused && q.got.isNone).bind fun q =>
    let w := s.word? q.g q.word
    let held := w.bind fun o => if o.held.isEmpty then none else some o
    match q.kind, a with
    | .fwdLoad, _ => none
    | .engLoad, .data bs | .swLoad, .data bs =>
      if bs.length != q.bytes then none
      else some { s with sent := s.sent.map fun p => if p.id == id then { p with got := some bs } else p }
    | .engLoad, _ | .swLoad, _ => none
    | .join, .done v =>
      let s : State := s.dropSent id
      some (if v == 0#64 then s else s.joinEnqueue (s.launch q.word).ten v.toNat q.team none)
    | .atom, .done v =>
      let s : State := s.dropSent id
      some (match w with
        | some o => match o.kind with
          | .catom ret d t => s.complete q.g o (catomWrites ret d t v)
          | _ => s
        | none => s)
    | .get, .done _ => if (match w with | some o => o.held.isEmpty | none => true) then some (s.dropSent id) else none
    | _, .done _ => some (s.dropSent id)
    | .get, .translated => held.map fun o => s.accepted q.g o
    | .atom, .translated => held.bind fun o => if o.suits false then some (s.accepted q.g o) else none
    | .atom, .unordered => held.bind fun o => if o.suits true then some (s.accepted q.g o) else none
    | .fwdStore, .refused | .engStore, .refused | .swStore, .refused => some (s.dropSent id)
    | .join, .refused => some ((s.dropSent id).note (s.launch q.word).ten 0x60 1 (s.launch q.word).crec.join 0 (s.launch q.word).crva 0)
    | .get, .refused | .atom, .refused => held.map fun o => (s.dropSent id).faultHeld q.g o 0x31 q.chan
    | .atom, .readOnly => held.map fun o => (s.dropSent id).faultHeld q.g o 0x16 0
    | .get, .unbound | .atom, .unbound => w.map fun o => (((s.dropSent id).setNack q.entry).faultHeld q.g o 0x30 q.chan)
    | .send, .unbound | .put, .unbound =>
      some (({ s with sent := s.sent.map fun p => if p.id == id then { p with refused := true } else p } : State).setNack q.entry)
    | _, _ => none)

/-- A transfer whose answer will never come (14 R345): a word that still holds its lanes takes PEER_DEAD; any other completes, with a
free value where it returns one (log 12). The loss itself is reported at the group's next release. The `joinc` of a completed
launch is dropped with a NOTE (19 R410). -/
def State.loseWord (s : State) (q : Sent) : State :=
  if q.kind == .join then
    let L := s.launch q.word
    s.note L.ten 0x33 1 L.crec.join 0 L.crva 0
  else match s.word? q.g q.word with
  | none => s
  | some o =>
    match o.kind with
    | .cget .. => if o.held.isEmpty then s.complete q.g o [] else s.faultHeld q.g o 0x33 q.peer
    | .catom ret d t =>
      if o.held.isEmpty then
        let r := s.draw
        r.2.complete q.g o (catomWrites ret d t r.1)
      else s.faultHeld q.g o 0x33 q.peer
    | _ => s

/-- The dead-peer bit of a peer is set, and everything on its way to it is lost. -/
def State.killPeer (s : State) (peer : Nat) : State :=
  let mine := s.sent.filter fun q => q.peer == peer && !q.lost && !q.refused && (q.kind.packet || q.kind == .join)
  let s : State := s.setDead peer
  let s : State := { s with
    sent := (s.sent.map fun q => if q.peer == peer then { q with lost := true } else q).filter fun q => !(q.lost && (q.kind == .purge || q.kind == .join))
    flits := s.flits.filter fun x => x.2 != peer }
  mine.foldl (fun s q => s.loseWord q) s

/-- SOURCE_TIMEOUT. -/
def execSourceTimeout (id : Nat) (s : State) : Outcome State Fault Refusal :=
  event s ((s.sent.find? fun q => q.id == id && !q.lost && !q.refused && q.got.isNone && q.timeout ≤ s.clock).map fun q => s.killPeer q.peer)

/-- FEC_LOCK_LOSS_TIMEOUT (22 R466). -/
def execFecLockLossTimeout (peer : Nat) (s : State) : Outcome State Fault Refusal :=
  event s (match (s.peerUse peer).darkSince with
    | some t => if t + 20 * Config.cyclesPerUs ≤ s.clock && (s.liveTo peer).isEmpty then
        some ((s.modPeer peer fun p => { p with darkSince := none }).killPeer peer)
      else none
    | none => none)

/-! ## This device as the owner (14 R337, R338; 20 R425, R426) -/

/-- Bytes that a peer's access takes at this device. -/
def remoteSize : RemoteOp → Nat
  | .read n => n
  | .write bs | .writeMasked _ bs => bs.length
  | .atom _ t _ _ => if 2 ≤ t then 8 else 4
  | .join => 16

/-- What this device answers to a peer, with the bytes that its lanes carry (14 R347). -/
def State.answerPeer (s : State) (peer n : Nat) (a : AckIn) : State := (s.queueTo peer n).emit (.ack peer a)

/-- FABRIC_REQUEST_ARRIVAL: a `cget` or `catom` of a peer on an exported window, through this device's translations: those of Sward's TLBs
(DESIGN CHOICE, log 28). -/
def execFabricRequestArrival (r : FabricReq) (s0 : State) : Outcome State Fault Refusal :=
  let s : State := match s0.boot.cfg.windows.find? fun w => w.ten == r.rten && w.rep == r.rep with
    | some w => (linePieces (w.base + r.off) (remoteSize r.op)).foldl (fun s p => if p.1 < 2 ^ 56 then s.swWalk r.rten p.1 else s) s0
    | none => s0
  let no := fun (a : AckIn) => s.emit (.ack r.peer a)
  let line := fun (how : How) (va : Nat) => match s.xlate 0 r.rten false (joinWho r.rten) va how false with
    | .ok l => if l.own == Owner.here && !(how.needR && s.poisoned l.pa) then Except.ok l else .error AckIn.refused
    | .fault c => .error (if c == 0x16 then .readOnly else .refused)
    | _ => .error .refused
  event s (some (
    if 16 ≤ r.rten || ((s.ten r.rten).secure && !r.secure) || (s.boundTeam r.rten r.rep).isNone then no .unbound
    else match s.boot.cfg.windows.find? fun w => w.ten == r.rten && w.rep == r.rep with
      | none => no .refused
      | some w =>
        let va := w.base + r.off
        let ps := linePieces va (remoteSize r.op)
        if w.size < r.off + (remoteSize r.op) then no .refused
        else match r.op with
          | .read _ => match ps.mapM fun p => (line .load p.1).map fun l => (l, p.2) with
            | .error a => no a
            | .ok ls =>
              let got := ls.foldl (fun (b : List Byte × State) p =>
                (b.1 ++ b.2.homeRead .here p.1.pa p.2, b.2.touch p.1.pa 0 false)) ([], no .translated)
              (got.2.answerPeer r.peer got.1.length (.data got.1)).emit (.ack r.peer (.done 0#64))
          | .atom op t x b => match line (.atomic true) va with
            | .error a => no a
            | .ok l =>
              let s : State := no (if l.kind == .un then .unordered else .translated)
              let got := s.atomHome none .here l.pa (remoteSize r.op) fun old => atomNew op t old x.toNat b.toNat
              got.2.answerPeer r.peer (remoteSize r.op) (.done (BitVec.ofNat 64 got.1))
          | _ => no .refused))

/-- Count a forwarded access in the counter of its frame and source (20 R426). -/
def State.countAccess (s : State) (pa src : Nat) : State :=
  let die := homeDieOf pa
  let cs := (s.die die).counters
  let frame := pa / 65536
  if cs.any fun c => c.frame == frame && c.src == src then
    s.modDie die fun d => { d with counters := d.counters.map fun c =>
      if c.frame == frame && c.src == src then { c with count := min (c.count + 1) 0xFFFF } else c }
  else match (List.range 4096).find? fun i => !(cs.any fun c => c.idx == i) with
    | some i => s.modDie die fun d => { d with counters := d.counters ++ [⟨i, frame, src, 1⟩] }
    | none => s.modDie die fun d => { d with missed := d.missed + 1#64 }

/-- What a forwarded access does at its home slice: the answer, and the state. -/
def State.performOp (s : State) (pa : Nat) (op : RemoteOp) : AckIn × State :=
  match op with
  | .read n => (.data (s.homeRead .here pa n), s.touch pa 0 false)
  | .write bs => (.done 0#64, (s.touch pa 0 true).homeWrite .here pa bs)
  | .writeMasked m bs => (.done 0#64, (s.touch pa 0 true).homeWrite .here pa (maskInto (s.homeRead .here pa bs.length) m bs))
  | .atom f t x b =>
    let got := s.atomHome none .here pa (remoteSize op) fun old => atomNew f t old x.toNat b.toNat
    (.data (leBytes (remoteSize op) got.1), got.2)
  | .join =>
    let r := s.joinWord none .here pa
    (.data (leBytes 8 r.1 ++ r.2.2.homeRead .here (pa + 8) 8), r.2.2)

/-- FORWARDED_ACCESS_ARRIVAL: performed at the home slice, and counted where the leaf has CNT = 1. A non-secure access to a secure
region, and a `joinc` on a word whose data is uncorrectable, have no effect (18 R378, 07 R195). -/
def execForwardedAccessArrival (a : FwdAccess) (s : State) : Outcome State Fault Refusal :=
  let s1 := if a.cnt then s.countAccess a.pa a.peer else s
  event s (some (
    if (!a.secure && s1.inSecure a.pa (remoteSize a.op)) || (a.op == .join && s1.poisoned a.pa) then s1.emit (.ack a.peer .refused)
    else
      let r := s1.performOp a.pa a.op
      r.2.answerPeer a.peer (match r.1 with | .data bs => bs.length | _ => 0) r.1))

end Sys2Proof.Machine
end

