-- ==== Sys2Proof/Machine/Lease.lean ====
section
/-! DEFINITION. Lease.lean: `lease`, `lrel`, `lqry`, and the events of leases and optical lanes (14 R346-R350; 22
R464-R466). -/

namespace Sys2Proof.Machine

open Host (Outcome)

/-! ## The decision (14 R347) -/

/-- Lanes that some live lease of the device holds, with the time each was taken. -/
def State.leaseLanes (s : State) : List LeaseLane := s.teams.flatMap fun t => t.leases.flatMap (·.lanes)
def State.leasedLane (s : State) (l : Nat) : Bool := s.leaseLanes.any fun x => x.lane == l

/-- Lanes of the pool: those without the base bit (22 R465). -/
def State.poolLanes (s : State) : List Nat := s.laneNos.filter fun l => !(routeBase (s.route l))

/-- Bytes that lanes carried to a peer in the last 64 µs. -/
def State.useOf (s : State) (p : Nat) : Nat :=
  ((s.peerUse p).sent.filter fun x => x.1 ≤ s.clock && s.clock ≤ x.1 + 64 * Config.cyclesPerUs).foldl (fun n x => n + x.2) 0

/-- Payload, times 1000, that one lane carries in 64 µs: 256 bytes each 10.88 ns. -/
def laneCapacity : Nat := 64 * Config.cyclesPerUs * 1000 * 256 / flitMilli

/-- A donor to a lease towards `peer`: another peer, under 25 % used, with none of its lanes leased away. -/
def State.isDonor (s : State) (peer p : Nat) : Bool :=
  let a := s.allotment p
  p != peer && !a.isEmpty && !(a.any s.leasedLane) && decide (4 * s.useOf p < a.length * laneCapacity)

/-- Insert a donor by (use of its allotment, peer). -/
def insDonor (x : Nat × Nat × Nat) : List (Nat × Nat × Nat) → List (Nat × Nat × Nat)
  | [] => [x]
  | y :: ys => if x.2.1 * y.2.2 < y.2.1 * x.2.2 then x :: y :: ys else y :: insDonor x ys

/-- Donors, each with use and allotment size, the lowest use first, ties to the lower peer number. -/
def State.donors (s : State) (peer : Nat) : List (Nat × Nat × Nat) :=
  (((List.range 256).filter (s.isDonor peer)).map fun p => (p, s.useOf p, (s.allotment p).length)).foldl
    (fun l x => insDonor x l) []

/-- Lanes in the order in which the decision looks at them, each with its donor, and for a donor how many it may give. -/
def State.offers (s : State) (peer : Nat) : List (List Nat × Option Nat × Nat) :=
  ((s.poolLanes.filter fun l => !(s.leasedLane l)), none, Config.nOpticalLanes) ::
  (s.donors peer).map fun d => (s.allotment d.1, some d.1, d.2.2 - 2)

/-- One lane is taken if it may be: it is not FAILED, and it reaches the peer on a channel of its own. -/
def takeLane (peer now : Nat) (don : Option Nat) (st : State × List LeaseLane × Nat) (l : Nat) : State × List LeaseLane × Nat :=
  if st.2.2 == 0 || (st.1.lane l).st == .failed || (st.1.chanTo l peer).isNone then st
  else (st.1.retune l (some peer), st.2.1 ++ [⟨l, don, now⟩], st.2.2 - 1)

/-- The lanes a lease of at most `n` takes, and the machine with them retuning. -/
def State.grant (s : State) (peer n : Nat) : State × List LeaseLane :=
  (s.offers peer).foldl (fun (st : State × List LeaseLane) o =>
    let r := o.1.foldl (takeLane peer s.clock o.2.1) (st.1, [], min (n - st.2.length) o.2.2)
    (r.1, st.2 ++ r.2.1)) (s, [])

/-- An id that no live lease of the team has. -/
def Team.leaseId (t : Team) : Nat :=
  ((List.range 17).map fun i => (t.nextLease - 1 + i) % 65535 + 1).find? (fun n => !(t.leases.any fun l => l.id == n)) |>.getD 1

/-- Steps 1, 2 and 5 of 14 R334 with PL; `dead` says whether step 5 is taken. -/
def Ctx.leaseEntry (x : Ctx) (idx : Nat) (dead : Bool) (k : Nat → Res) : Res :=
  let low : Nat := 0
  match x.chanEntry idx permL with
  | .error code => .trap x.s code low 0 idx
  | .ok e => if dead && x.s.isDead (chPeer e) then .trap x.s 0x33 low 0 (chPeer e) else k (chPeer e)

def execLease (c : Ctl) (f : F64) (s : State) : Outcome State Fault Refusal :=
  groupWide (.lease c f) c s fun x =>
    let q := (x.sreg f.c).toNat
    let n := bitsOf q 0 13
    let us := bitsOf q 16 16
    let d := f.d.toNat
    if n == 0 || 4096 < n || us == 0 || 1000 < us || bitsOf q 13 3 != 0 || bitsOf q 32 32 != 0 then
      .trap x.s 0x02 0 0 0
    else x.leaseEntry (x.sreg f.b).toNat true fun peer =>
      let s := x.s
      let cap := if 16 ≤ x.team.leases.length then 0 else min n ((s.ten x.ten).lquota - s.leased x.ten)
      let (s', ls) := s.grant peer cap
      if ls.isEmpty || (f.mod.getLsbD 0 && ls.length < n) then .go (s.modGroup x.g fun G => G.putVar [.s d 0#64])
      else
        let id := x.team.leaseId
        let s' : State := s'.modTeam x.tid fun t => { t with
          leases := t.leases ++ [⟨id, peer, ls, s.clock + us * Config.cyclesPerUs⟩]
          nextLease := id % 65535 + 1 }
        .out s' (x.oword [.s d] (.lease d id ls.length))

def execLrel (c : Ctl) (f : F64) (s : State) : Outcome State Fault Refusal :=
  groupWide (.lrel c f) c s fun x => .go (x.s.endLease x.tid (bitsOf (x.sreg f.a).toNat 0 16))

def execLqry (c : Ctl) (f : F64) (s : State) : Outcome State Fault Refusal :=
  groupWide (.lqry c f) c s fun x =>
    let sel := f.c.toNat
    let d := f.d.toNat
    x.leaseEntry (x.sreg f.b).toNat (sel != 3) fun peer =>
      let n :=
        if sel == 0 then (x.s.liveTo peer).length
        else if sel == 1 then (x.team.leases.filter fun l => l.peer == peer).foldl (fun n l => n + l.lanes.length) 0
        else if sel == 2 then (x.s.ten x.ten).lquota - x.s.leased x.ten
        else if sel == 3 then (x.s.isDead peer).toNat
        else (x.s.allotment peer).length
      .go (x.s.modGroup x.g fun G => G.putVar [.s d (BitVec.ofNat 64 n)])

/-! ## Events of leases -/

/-- Every lane that a lease of the team still holds carries traffic to its peer; true of a lease that has ended. -/
def State.leaseLive (s : State) (team lease : Nat) : Bool :=
  match (s.team team).leases.find? fun l => l.id == lease with
  | some l => l.lanes.all fun x => (s.lane x.lane).st == .live && (s.lane x.lane).peer == some l.peer
  | none => true

/-- The `lease` word of a team that waits for its lanes: group, word, destination, lanes granted. -/
def State.leaseWord (s : State) (team lease : Nat) : Option (Nat × OWord × Nat × Nat) :=
  (s.team team).groups.findSome? fun g => (s.group g).outst.findSome? fun (o : OWord) => match o.kind with
    | .lease d id n => if id = lease then some (g, o, d, n) else none
    | _ => none

/-- LEASE_LANES_LIVE: the word completes when every lane that its lease still holds carries traffic to the peer. -/
def execLeaseLanesLive (team lease : Nat) (s : State) : Outcome State Fault Refusal :=
  event s (if s.leaseLive team lease then
    (s.leaseWord team lease).map fun x => s.complete x.1 x.2.1 [.s x.2.2.1 (BitVec.ofNat 64 (x.2.2.2 + lease * 2 ^ 32))]
  else none)

/-- LEASE_EXPIRY. -/
def execLeaseExpiry (team lease : Nat) (s : State) : Outcome State Fault Refusal :=
  event s (match (s.team team).leases.find? fun l => l.id == lease with
    | some l => if l.expiry ≤ s.clock then some (s.endLease team lease) else none
    | none => none)

/-- The lane leased away longest from a peer's allotment, ties to the lower lane number. -/
def State.longestLent (s : State) (peer : Nat) : Option LeaseLane :=
  (s.leaseLanes.filter fun x => x.donor == some peer).foldl (fun b x => match b with
    | none => some x
    | some y => if x.since < y.since || (x.since == y.since && x.lane < y.lane) then some x else some y) none

/-- A reclaimed lane leaves its lease; a lease without lanes ends (14 R348). -/
def State.reclaim (s : State) (x : LeaseLane) : State :=
  let s : State := s.giveBack x
  { s with teams := s.teams.map fun t =>
      { t with leases := (t.leases.map fun l => { l with lanes := l.lanes.filter fun y => y.lane != x.lane }).filter fun l => !l.lanes.isEmpty } }

/-- Since when a peer has held only the lanes it holds now: the last of its lanes was leased away then. -/
def State.heldSince (s : State) (peer : Nat) : Nat :=
  (s.leaseLanes.filter fun x => x.donor == some peer).foldl (fun n x => max n x.since) 0

/-- LANE_RECLAIM: traffic has been queued for 50 µs while the peer holds only its floor; after that, each further 50 µs. -/
def execLaneReclaim (peer : Nat) (s : State) : Outcome State Fault Refusal :=
  let p := s.peerUse peer
  let a := s.allotment peer
  let floor := (a.filter fun l => !(s.leasedLane l)).length ≤ 2
  let us50 := 50 * Config.cyclesPerUs
  let starving := floor && decide (max p.queuedSince (s.heldSince peer) + us50 ≤ s.clock)
  let due := match p.lastReclaim with
    | some t => if p.queuedSince ≤ t then decide (t + us50 ≤ s.clock) else starving
    | none => starving
  event s (if s.clock < p.freeAt && due then
      (s.longestLent peer).map fun x => (s.reclaim x).modPeer peer fun p => { p with lastReclaim := some s.clock }
    else none)

/-! ## Events of optical lanes (14 R349, 22 R464, R466) -/

/-- A lane carries traffic to its peer. One that has relocked with no peer to serve stands in the pool again, and is dark (22 R466;
DESIGN CHOICE, log 27). -/
def State.goLive (s : State) (l : Nat) : State :=
  let o := s.lane l
  match o.peer with
  | some p => (s.setLane { o with st := .live, since := s.clock, flit := none }).modPeer p fun x => { x with darkSince := none }
  | none => s.setLane { o with st := .dark, since := s.clock, flit := none }

/-- LANE_RETUNE_DONE: 1.6 µs after retuning started. -/
def execLaneRetuneDone (lane : Nat) (s : State) : Outcome State Fault Refusal :=
  let o := s.lane lane
  event s (if o.st == .tuning && o.since + 1920 ≤ s.clock then some (s.goLive lane) else none)

/-- TUNING_TIMEOUT: 50 µs without lock. -/
def execTuningTimeout (lane : Nat) (s : State) : Outcome State Fault Refusal :=
  let o := s.lane lane
  event s (if o.st == .tuning && o.since + 50 * Config.cyclesPerUs ≤ s.clock then
    some (s.setLane { o with st := .failed, since := s.clock, flit := none }) else none)

/-- LANE_RELOCK_ATTEMPT: every 100 µs. -/
def execLaneRelockAttempt (lane : Nat) (locked : Bool) (s : State) : Outcome State Fault Refusal :=
  let o := s.lane lane
  event s (if o.st == .failed && o.since + 100 * Config.cyclesPerUs ≤ s.clock then
    some (if locked then s.goLive lane else s.setLane { o with since := s.clock }) else none)

/-- LANE_LOSS_OF_LOCK: the flit that the lane is sending must be sent again: while traffic to its peer is being sent, and before a retuning
lane has sent its last flit (14 R349, 22 R466, R470). -/
def execLaneLossOfLock (lane : Nat) (s : State) : Outcome State Fault Refusal :=
  let o := s.lane lane
  let f := (s.flitOf lane).2
  let again := fun (s : State) => match f with | some p => { s with flits := s.flits ++ [(lane, p)] } | none => s
  event s (if o.st == .live then some (again ((s.leaveLive lane).setLane { o with st := .failed, since := s.clock, flit := none }))
  else if f.isSome then
    some (again (s.setLane (if o.st == .tuning then { o with st := .failed, since := s.clock, flit := none } else { o with since := s.clock, flit := none })))
  else none)

/-- FLIT_RETRANSMIT: flit `k` of those whose lane left LIVE; numbers beyond them name packets in flight of which a flit failed
FEC. It is sent again on a LIVE lane to the same peer; nothing is lost, duplicated or reordered (22 R466). -/
def execFlitRetransmit (k : Nat) (s : State) : Outcome State Fault Refusal :=
  let again := fun (s : State) (p : Nat) => if (s.liveTo p).isEmpty then none else some (s.queueTo p 256)
  event s (match s.flits[k]? with
    | some (_, p) => again { s with flits := s.flits.eraseIdx k } p
    | none => (s.sent[k - s.flits.length]?).bind fun q => if q.lost || q.refused then none else again s q.peer)

end Sys2Proof.Machine
end

