-- ==== Sys2Proof/Machine/Bringup.lean ====
section
/-! DEFINITION. Bringup.lean: bring-up, firmware verification, measurement and attestation (23 R471-R477). -/

namespace Sys2Proof.Machine

open Host (Outcome)

def State.setBoot (s : State) (f : Boot → Boot) : State := { s with boot := f s.boot }

/-- Bring-up stops at the step after the last one completed (23 R471). -/
def State.holdAt (s : State) (failc : Nat) : State := s.setBoot fun b => { b with hold := true, failc := failc }

/-- Step `n` is the last one completed and nothing holds. -/
def State.atStep (s : State) (n : Nat) : Bool := s.power && s.boot.step == n && !s.boot.hold

/-- POWER_ON_RESET: everything is at its reset value; the fused counter and the count of bring-ups stand (23 R474, R477). -/
def execPowerOnReset (s : State) : Outcome State Fault Refusal :=
  let s1 := s.unpowered
  event s (some { s1 with power := true, boot := { s1.boot with bootcnt := s.boot.bootcnt + 1#64 } })

/-! ## Firmware (23 R472, R474, R475) -/

/-- Home channels of the base lanes of fibre `f`. -/
def fibreHomes (c : FwConfig) (f : Nat) : List Nat := (((c.routes.drop (4 * f)).take 4).filter routeBase).map routeHome

/-- No entry of a list comes twice. -/
def allOnce {α : Type} [DecidableEq α] : List α → Bool
  | [] => true
  | x :: xs => !(xs.contains x) && allOnce xs

/-- The sections are within their limits (23 R472): a row of 64 entries for each lane, no two base lanes of a fibre on one channel (22
R464, R465), and no port and source address bound twice (19 R400). -/
def cfgOk (c : FwConfig) : Bool :=
  c.routes.length == Config.nOpticalLanes && c.routes.all (fun r => r.row.length == 64 && r.row.all (fun e => bitsOf e.toNat 8 7 == 0)) &&
  (List.range (Config.nOpticalLanes / 4)).all (fun f => allOnce (fibreHomes c f)) &&
  c.ports.all (fun p => p.ten < 16 && p.dstPort < 65536) && allOnce (c.ports.map fun p => (p.dstPort, p.srcAddr)) && c.imports.all (fun w => w.peer < 256) &&
  c.windows.all (fun w => w.ten < 16 && w.rep < 4096) &&
  c.carve.length == 2 && c.carve.all (fun n => n % 0x4000000 == 0 && n ≤ 0x20000000) && c.device < 256

/-- The MC accepts a slot. -/
def Boot.accepts (b : Boot) (x : Bundle) : Bool :=
  Config.vendorVerify (Config.shake256 x.headBody) x.sig && b.svn ≤ x.svn && cfgOk x.cfg

def digestBytes (d : BitVec 512) : List Byte := leBytes 64 d.toNat

/-- Extension of a measurement register. -/
def Boot.extend (b : Boot) (i : Nat) (x : List Byte) : Boot :=
  { b with meas := modAt b.meas i fun m => Config.shake256 (digestBytes m ++ x) }

/-- An accepted slot is measured and its configuration loaded. -/
def Boot.load (b : Boot) (slot : Nat) (x : Bundle) : Boot :=
  let b := b.extend 0 (digestBytes Config.romDigest)
  let b := b.extend 1 (digestBytes (Config.shake256 x.headBody))
  let b := b.extend 2 (digestBytes (Config.shake256 x.cfgBytes))
  let b := b.extend 3 (BitVec.ofNat 8 slot :: leBytes 8 x.svn)
  { b with cfg := x.cfg, bundleSvn := x.svn, rcv := slot == 1, step := 2 }

/-- RAILS_IN_RANGE: step 1 completes, or fails (an SV9400-MD also needs its coolant flow, 23 R478); step 2 follows. -/
def execRailsInRange (inRange coolant : Bool) (slot0 slot1 : Bundle) (s : State) : Outcome State Fault Refusal :=
  event s (if !(s.atStep 0) then none
    else if !inRange || (Config.isModule && !coolant) then some (s.holdAt 1)
    else
      let s1 := s.setBoot fun b => { b with step := 1 }
      some (if s1.boot.accepts slot0 then s1.setBoot fun b => b.load 0 slot0
        else if s1.boot.accepts slot1 then s1.setBoot fun b => b.load 1 slot1
        else s1.holdAt 2))

/-! ## Steps 3 to 7 (23 R471, R473) -/

/-- Base lanes. -/
def State.baseLanes (s : State) : List Nat := s.laneNos.filter fun l => routeBase (s.route l)

/-- A base lane is tuned to its home channel. -/
def State.tuneBase (s : State) (l : Nat) : State :=
  s.setLane ⟨l, .tuning, routeHome (s.route l), s.clock, s.basePeer l, none⟩

/-- HBM_TRAINING_DONE: every stack has TRND = 1; optical calibration starts. -/
def execHbmTrainingDone (s : State) : Outcome State Fault Refusal :=
  event s (if s.atStep 2 && s.hbm.all (fun x => x.trnd) then
    some (s.baseLanes.foldl (fun (s : State) l => s.tuneBase l) (s.setBoot fun b => { b with step := 3, calAt := some s.clock }))
  else none)

/-- OPTICAL_CALIBRATION_DONE: every base lane is LIVE or FAILED. -/
def execOpticalCalibrationDone (s : State) : Outcome State Fault Refusal :=
  event s (if s.atStep 3 && s.baseLanes.all (fun l => (s.lane l).st == .live || (s.lane l).st == .failed) then
    some (s.setBoot fun b => { b with step := 4 }) else none)

/-- PCIE_LINK_UP: training has ended, with the link up at a width and speed that the link status tells, or not (23 R473). -/
def execPcieLinkUp (up : Option (Nat × Nat)) (s : State) : Outcome State Fault Refusal :=
  event s (if s.atStep 4 then
    some (match up with
      | some l => { s.setBoot fun b => { b with step := 5, link := l } with pcie := true }
      | none => s.holdAt 4) else none)

/-- The driver's read of the PCIe link status: the speed code in bits 3:0 and the width in bits 9:4 (PRESUMED, log 32: the register of the
PCIe specification). -/
def State.linkStatus (s : State) : State :=
  if s.pcie then s.emit (.hostReturn (BitVec.ofNat 64 (s.boot.link.2 % 16 + s.boot.link.1 % 64 * 16))) else s

/-- 50 ms after step 4 started, the peers without a LIVE base lane are noted (23 R473). -/
def State.noteBase (s : State) : State :=
  if s.boot.calAt == some (s.clock - 50000 * Config.cyclesPerUs) && 50000 * Config.cyclesPerUs ≤ s.clock then
    s.setBoot fun b => { b with deadBase := (List.range 256).filter fun p =>
      !(s.allotment p).isEmpty && !((s.allotment p).any fun l => (s.lane l).st == .live) }
  else s

/-- The dead-peer bit of such a peer is set. -/
def State.killBase (s : State) (peer : Nat) : State :=
  let s : State := s.setBoot fun b => { b with deadBase := b.deadBase.filter (· != peer) }
  if s.isDead peer then s else s.killPeer peer

/-- Step 7: Sward starts with every TNCFG at its reset value, and the dead-peer bits of 23 R473 are set. The accepted SVN advances the
counter (23 R474). -/
def State.startSward (s : State) : State :=
  let s : State := s.setBoot fun b => { b with step := 7, svn := max b.svn b.bundleSvn }
  let s : State := { s with tens := s.tens.map fun t => { t with cfg := Tenancy.reset.cfg } }
  s.boot.deadBase.foldl (fun (s : State) p => s.killBase p) s

/-- ETHERNET_LINK_DONE: each port is up or has timed out, which completes step 6; step 7 follows. -/
def execEthernetLinkDone (port0 port1 : Bool) (s : State) : Outcome State Fault Refusal :=
  event s (if s.atStep 5 then
    some ({ s.setBoot fun b => { b with step := 6 } with ports := [port0, port1] } : State).startSward else none)

/-- BASE_LANE_DEAD_TIMEOUT: the 50 ms have passed after step 7 completed. -/
def execBaseLaneDeadTimeout (peer : Nat) (s : State) : Outcome State Fault Refusal :=
  event s (if s.boot.step == 7 && s.boot.deadBase.contains peer then some (s.killBase peer) else none)

/-- FRONT_PORT_LINK_CHANGE, after step 6. -/
def execFrontPortLinkChange (port : Nat) (up : Bool) (s : State) : Outcome State Fault Refusal :=
  event s (if 6 ≤ s.boot.step && port < 2 then some { s with ports := modAt s.ports port fun _ => up } else none)

/-! ## Measurement and attestation (23 R475-R477) -/

/-- MEASUREMENT_EXTEND: a routine entry has gone VALID for the first time; its image extends MEAS4. -/
def execMeasurementExtend (ten routine : Nat) (s : State) : Outcome State Fault Refusal :=
  event s (if s.boot.step == 7 && ten < 16 && routine < 256 && !(s.boot.measured.contains (ten, routine)) then
    (s.routine ten routine).map fun e => s.setBoot fun b =>
      { b.extend 4 (digestBytes (Config.shake256 (Cells.readN s.mem e.1 e.2))) with measured := b.measured ++ [(ten, routine)] }
  else none)

/-- ATTESTATION_REQUEST: dropped while a report is under construction. -/
def execAttestationRequest (nonce : BitVec 256) (s : State) : Outcome State Fault Refusal :=
  event s (if s.boot.building && !s.boot.rpt then none
    else some (s.setBoot fun b => { b with nonce := nonce, rpt := false, building := true }))

/-- Exactly `n` bytes: the list cut or filled with zeros. -/
def padTo (n : Nat) (bs : List Byte) : List Byte := (bs ++ List.replicate n 0#8).take n

/-- Bytes 631:0 of the report. -/
def Boot.body (b : Boot) (dbg : Bool) : List Byte :=
  leBytes 4 0x54415653 ++ leBytes 2 1 ++ leBytes 2 (dbg.toNat + 2 * b.rcv.toNat) ++ leBytes 8 b.bootcnt.toNat ++
  leBytes 32 b.nonce.toNat ++ padTo 57 Config.identityPub ++ List.replicate 7 0#8 ++ b.meas.flatMap digestBytes ++ leBytes 8 b.svn

/-- REPORT_READY. -/
def execReportReady (dbg : Bool) (s : State) : Outcome State Fault Refusal :=
  event s (if s.boot.building then
    let body := s.boot.body dbg
    some (s.setBoot fun b => { b with
      report := padTo 768 (body ++ padTo 114 (Config.identitySign (Config.shake256 body))), rpt := true, building := false })
  else none)

end Sys2Proof.Machine
end

