-- ==== Sys2Proof/Machine/Barrier.lean ====
section
/-! DEFINITION. Barrier.lean: the numbered barriers (13 R324-R326) and the event BAR_WAIT_RELEASE. -/

namespace Sys2Proof.Machine

open Host (Outcome)

def Team.bar (t : Team) (i : Nat) : Bar := t.bars.getD i ⟨0, 0, false, 2, []⟩

/-- The count reached N: the phase bit flips and the count restarts (13 R325). -/
def Bar.check (b : Bar) : Bar := if b.target ≤ b.count then ⟨0, 0, !b.phase, 2, []⟩ else b

/-- An arrival of group `gidx` with `n` lanes; `form` and `target` are fixed by the first arrival (13 R325). -/
def Bar.arrive (b : Bar) (gidx n form target : Nat) : Bar :=
  let b := if b.form == 2 then { b with form := form, target := target } else b
  ({ b with count := b.count + n, arrived := if b.arrived.contains gidx then b.arrived else b.arrived ++ [gidx] } : Bar).check

/-- Threads of group `gidx` exit (13 R325): a default-form phase whose N is fixed counts them unless their group has arrived. -/
def Bar.exits (b : Bar) (gidx n : Nat) : Bar :=
  if b.form == 0 && !(b.arrived.contains gidx) then ({ b with count := b.count + n } : Bar).check else b

/-- Threads of a team that have not exited. -/
def State.liveThreads (s : State) (t : Team) : Nat :=
  t.groups.foldl (fun n g => n + ((s.group g).lanes.filter fun l => l.st != .exited).length) 0

/-- Every tile operation that the group issued has finished (13 R326): a drain when its tile has been read. -/
def State.tilesDone (s : State) (g : Nat) : Bool := !(s.cores.any fun c => c.ops.any fun o => o.g == g)

/-- An arrival by the word, then `k`; RESERVED_FIELD for an N that is out of range or differs (13 R325). The release at
`.team` of 13 R326 comes first. -/
def Ctx.arrive (x : Ctx) (f : F64) (k : State → Res) : Res :=
  let i := fld f.c 0 4
  let b := x.team.bar i
  let n := if f.mod.toNat == 1 then bitsOf (x.sreg f.b).toNat 0 32 else x.s.liveThreads x.team
  let bad := f.mod.toNat == 1 && (n == 0 || x.hdr.teamSz < n || (b.form != 2 && b.target != n))
  if x.part.isEmpty then .go x.s
  else if bad then .trap x.s 0x02 0 0 0
  else match x.s.relCheck x.g 2 with
    | .ok =>
      if !x.s.tilesDone x.g then .stall x.s .other true
      else
        let s : State := x.s.modGroup x.g fun G => { G with rphase := setBit G.rphase i b.phase, rvalid := setBit G.rvalid i true }
        k (s.modTeam x.tid fun t => { t with bars := modAt t.bars i fun b => b.arrive x.G.gidx x.part.length f.mod.toNat n })
    | _ => x.released 2 (.go x.s)

/-- Hold the fragment until the phase of barrier `i` differs from the group's recorded phase; then an acquire at `.team`. -/
def Ctx.barWait (x : Ctx) (i : Nat) (s : State) : Res :=
  let phase := (s.group x.g).rphase.getLsbD i
  if ((s.team x.tid).bar i).phase != phase then .go (s.l1Acquire x.G.core 2)
  else .hold s { x.holding [] (.barWait i phase) with acq := 2 }

def execBarArv (c : Ctl) (f : F64) (s : State) : Outcome State Fault Refusal :=
  word (.barArv c f) c (fun x => x.arrive f .go) s

/-- A group that has never arrived records the current phase (13 R325). -/
def execBarWt (c : Ctl) (f : F64) (s : State) : Outcome State Fault Refusal :=
  groupWide (.barWt c f) c s fun x =>
    let i := fld f.c 0 4
    let s : State := if x.G.rvalid.getLsbD i then x.s else
      x.s.modGroup x.g fun G => { G with rphase := setBit G.rphase i (x.team.bar i).phase, rvalid := setBit G.rvalid i true }
    x.barWait i s

def execBarSync (c : Ctl) (f : F64) (s : State) : Outcome State Fault Refusal :=
  word (.barSync c f) c (fun x => x.arrive f fun s => x.barWait (fld f.c 0 4) s) s

/-- BAR_WAIT_RELEASE: the phase has changed (13 R326). -/
def execBarWaitRelease (g word : Nat) (s : State) : Outcome State Fault Refusal :=
  onWait s g word fun o => match o.kind with
    | .barWait i phase => if ((s.team (s.group g).team).bar i).phase != phase then some (s.complete g o []) else none
    | _ => none

end Sys2Proof.Machine
end

