-- ==== Sys2Proof/Machine/Control.lean ====
section
/-! DEFINITION. Control.lean: branches, meetings, votes, refill, the token and the item queue (07 R182-R198). -/

namespace Sys2Proof.Machine

open Host (Outcome)

/-! ## Branches (07 R184, R185) -/

/-- The fault of a branch target: ADDR_NONCANON, then FETCH_BOUNDARY (07 R185, 06 R154). -/
def targetFault (t : Word) : Option Nat :=
  if 2 ^ 56 ≤ t.toNat then some 0x11
  else if t.toNat % 4 != 0 || t.toNat % 32 == 28 then some 0x03
  else none

/-- `pc + 4 × off` for a signed offset of `w` bits (06 R157, 07 R182). -/
def relTarget {w : Nat} (pc : Word) (off : BitVec w) : Word := pc + off.signExtend 64 * 4#64

/-- The fault of a transfer: the first check of 07 R185 that some lane fails, at the lowest such lane (log 31). -/
def branchFault (dst : List (Nat × Word)) : Option (Nat × Nat) :=
  match dst.find? fun p => targetFault p.2 == some 0x11 with
  | some p => some (p.1, 0x11)
  | none => (dst.find? fun p => targetFault p.2 == some 0x03).map fun p => (p.1, 0x03)

/-- Lanes go to the targets given, the other lanes of the fragment to the next word; `ws` are register writes. -/
def Ctx.branch (x : Ctx) (dst : List (Nat × Word)) (ws : List RegWrite) : Res :=
  match branchFault dst with
  | some (lane, code) => .trap x.s code lane 0 0
  | none => .jump (x.s.modGroup x.g fun G =>
      let G := (G.putVar ws).modLanes (x.frag.filter fun l => !(dst.any fun p => p.1 == l)) fun y => { y with pc := x.next }
      dst.foldl (fun (G : Group) (p : Nat × Word) => G.modLanes [p.1] fun y => { y with pc := p.2 }) G)

/-- The link pair takes the return address (07 R184); its tags are written for the fragment's blocks, also where no lane
participates (DEDUCED, log 18). -/
def Ctx.link (x : Ctx) (d : Nat) : List RegWrite :=
  x.vres d 0 (fun _ => x.next.setWidth 32) ++ x.vres (d + 1) 0 fun _ => (x.next >>> 32).setWidth 32

/-- The target of each participating lane of `brx` and `callx`. -/
def Ctx.targets (x : Ctx) (f : F64) : List (Nat × Word) :=
  x.part.map fun l => (l, if f.mod.toNat == 0 then x.pair f.a l else x.sreg f.a)

def execNop (c : Ctl) (f : F64) (s : State) : Outcome State Fault Refusal := word (.nop c f) c (fun x => .go x.s) s

def execBra (c : Ctl) (f : J64) (s : State) : Outcome State Fault Refusal :=
  word (.bra c f) c (fun x => x.branch (x.part.map fun l => (l, relTarget x.pc f.off)) []) s

/-- The guard is the condition; the whole fragment goes one way. -/
def execBrc (c : Ctl) (f : J64) (s : State) : Outcome State Fault Refusal :=
  word (.brc c f) c (fun x =>
    let taken := if f.mod.toNat == 0 then !x.part.isEmpty
      else if f.mod.toNat == 1 then x.part.length == x.frag.length else x.part.isEmpty
    x.branch (if taken then x.frag.map fun l => (l, relTarget x.pc f.off) else []) []) s

def execBrx (c : Ctl) (f : F64) (s : State) : Outcome State Fault Refusal :=
  word (.brx c f) c (fun x => x.branch (x.targets f) []) s

def execCall (c : Ctl) (f : J64) (s : State) : Outcome State Fault Refusal :=
  word (.call c f) c (fun x => x.branch (x.part.map fun l => (l, relTarget x.pc f.off)) (x.link 0)) s

def execCallx (c : Ctl) (f : F64) (s : State) : Outcome State Fault Refusal :=
  word (.callx c f) c (fun x => x.branch (x.targets f) (x.link f.d.toNat)) s

def execRet (c : Ctl) (f : F64) (s : State) : Outcome State Fault Refusal :=
  word (.ret c f) c (fun x => x.branch (x.part.map fun l => (l, x.pair f.a l)) []) s

/-! ## Exit, meeting and done (07 R186-R188) -/

/-- Threads exit: default-form barriers count them (13 R325), and a group with nothing left frees the token (01 R43). -/
def State.exitLanes (s : State) (g : Nat) (ls : List Nat) : State :=
  let G := s.group g
  let s : State := s.modGroup g fun G => G.modLanes ls fun y => { y with st := .exited }
  let s : State := s.modTeam G.team fun t => { t with bars := t.bars.map fun b => if ls.isEmpty then b else b.exits G.gidx ls.length }
  if (s.group g).lanes.all fun y => y.st == .exited then
    s.modCore G.core fun k => { k with token := k.token.map fun t => if t == some g then none else t }
  else s

def execExit (c : Ctl) (f : F64) (s : State) : Outcome State Fault Refusal :=
  word (.exit c f) c (fun x => .go (x.s.exitLanes x.g x.part)) s

/-- A target that cannot be fetched raises FETCH_BOUNDARY when the word is performed (07 R187). The target is the word's and no
lane's, so LANE is 0 (DEDUCED, log 15). -/
def execMeet (c : Ctl) (f : J64) (s : State) : Outcome State Fault Refusal :=
  word (.meet c f) c (fun x =>
    let t := relTarget x.pc f.off
    if x.part.isEmpty then .go x.s
    else if t.toNat % 32 == 28 then .trap x.s 0x03 0 0 0
    else .go (x.s.modGroup x.g fun G => G.modLanes x.part fun y => { y with mt := t })) s

def execMeetw (c : Ctl) (f : F64) (s : State) : Outcome State Fault Refusal :=
  word (.meetw c f) c (fun x => .go (x.s.modGroup x.g fun G => G.modLanes x.part fun y => { y with st := .heldW })) s

/-- Without a refill point `done` is `exit` (01 R37). -/
def execDone (c : Ctl) (f : F64) (s : State) : Outcome State Fault Refusal :=
  word (.done c f) c (fun x =>
    if x.G.refill.isNone then .go (x.s.exitLanes x.g x.part)
    else .go (x.s.modGroup x.g fun G => G.modLanes x.part fun y => { y with st := .done })) s

/-! ## Vote, ballot, elect (07 R191) -/

/-- The participating lanes in which pA is 1. -/
def Ctx.ones (x : Ctx) (p : BitVec 7) : List Nat := x.part.filter fun l => x.G.pred p.toNat l

def execVote (c : Ctl) (f : F64) (s : State) : Outcome State Fault Refusal :=
  fixedWord (.vote c f) c s fun x =>
    let n := (x.ones f.a).length
    let r := if f.mod.toNat == 0 then n != 0 else if f.mod.toNat == 1 then n == x.part.length else n == 0 || n == x.part.length
    .ok (x.part.map fun l => .p f.d.toNat l r)

def execBallot (c : Ctl) (f : F64) (s : State) : Outcome State Fault Refusal :=
  fixedWord (.ballot c f) c s fun x =>
    .ok (if x.part.isEmpty then [] else [.s f.d.toNat (BitVec.ofNat 64 (laneBits (x.ones f.a)))])

def execElect (c : Ctl) (f : F64) (s : State) : Outcome State Fault Refusal :=
  fixedWord (.elect c f) c s fun x => .ok (x.part.map fun l => .p f.d.toNat l (l == x.part.headD 0))

/-! ## The item queue and refill (01 R33-R38, 07 R189, R196-R198) -/

/-- The share of a group's team on its core. -/
def State.share (s : State) (g : Nat) : List Word :=
  let G := s.group g
  (s.team G.team).items.getD (s.slotOf (s.team G.team) G) []
def State.setShare (s : State) (g : Nat) (q : List Word) : State :=
  let G := s.group g
  let k := s.slotOf (s.team G.team) G
  s.modTeam G.team fun t => { t with items := modAt t.items k fun _ => q }

/-- Items go to lanes: their pair takes the item, tagged RAW (01 R36). -/
def itemWrites (d : Nat) (got : List (Nat × Word)) : List RegWrite :=
  if got.isEmpty then [] else
  (got.flatMap fun p => [.v d p.1 (p.2.setWidth 32), .v (d + 1) p.1 ((p.2 >>> 32).setWidth 32)]) ++
    plainTag d 0 (got.map (·.1)) ++ plainTag (d + 1) 0 (got.map (·.1))

def Group.doneLanes (G : Group) : List Nat :=
  (List.range G.gw).filter fun l => (G.laneAt l).st == .done

/-- The atomic step of 01 R36: the done lanes that receive an item become active after the refill point. A receiving
lane acquires at `.team` (07 R197). -/
def State.refillPop (s : State) (g : Nat) (r : Refill) : State :=
  let G := s.group g
  let q := s.share g
  let got := G.doneLanes.zip q
  if got.isEmpty then s
  else
    let s : State := s.setShare g (q.drop got.length)
    let s : State := s.modGroup g fun G =>
      ((G.putVar (itemWrites r.dest got)).modLanes (got.map (·.1)) fun y => { y with st := .active, pc := nextPc r.addr 8 }).settle
    s.l1Acquire G.core 2

/-- The exit target: bits 61:41 of the word as a signed offset (07 R182). -/
def refillExit (pc : Word) (f : F64) : Word := relTarget pc (f.c ++ f.b ++ f.a)

def execRefill (c : Ctl) (f : F64) (s : State) : Outcome State Fault Refusal :=
  groupWide (.refill c f) c s fun x =>
    let e := refillExit x.pc f
    if e.toNat % 32 == 28 then .trap x.s 0x03 0 0 0
    else
      let r : Refill := ⟨x.pc, e, f.d.toNat⟩
      .go ((x.s.modGroup x.g fun G => { G with refill := some r }).refillPop x.g r)

/-- Capacity of the share (01 R33). -/
def Ctx.shareRoom (x : Ctx) : Nat := 256 * (x.s.launch x.team.launch).crec.iqs

/-- The word is not ready until the share has room (07 R196). -/
def execIqPush (c : Ctl) (f : F64) (s : State) : Outcome State Fault Refusal :=
  groupWide (.iqPush c f) c s fun x =>
    let new := if f.mod.toNat == 0 then x.part.map (x.pair f.a) else [x.sreg f.a]
    let q := x.s.share x.g
    if x.shareRoom == 0 then .trap x.s 0x01 0 0 0
    else if x.shareRoom < q.length + new.length then .stall x.s .itemRoom false
    else x.released 2 (.go (x.s.setShare x.g (q ++ new)))

def execIqLoad (c : Ctl) (f : F64) (s : State) : Outcome State Fault Refusal :=
  groupWide (.iqLoad c f) c s fun x =>
    let q := x.s.share x.g
    let got := x.part.zip q
    if x.shareRoom == 0 then .trap x.s 0x01 0 0 0
    else
      let s : State := (x.s.setShare x.g (q.drop got.length)).modGroup x.g fun G =>
        G.putVar (itemWrites f.d.toNat got ++ x.part.map fun l => .p f.b.toNat l (got.any fun p => p.1 == l))
      .go (if got.isEmpty then s else s.l1Acquire x.G.core 2)

def execIqCount (c : Ctl) (f : F64) (s : State) : Outcome State Fault Refusal :=
  groupWide (.iqCount c f) c s fun x =>
    .go (x.s.modGroup x.g fun G => G.putVar [.s f.d.toNat (BitVec.ofNat 64 (x.s.share x.g).length)])

/-! ## Yield and the token (01 R43, 07 R190, R192) -/

def execYield (c : Ctl) (f : F64) (s : State) : Outcome State Fault Refusal :=
  groupWide (.yield c f) c s fun x => .yield x.s

def State.holder (s : State) (G : Group) : Option Nat := (s.core G.core).token.getD G.quarter none
def State.setHolder (s : State) (G : Group) (h : Option Nat) : State :=
  s.modCore G.core fun k => { k with token := modAt k.token G.quarter fun _ => h }

/-- The partner of `tokpass` when it is resident on the quarter. -/
def Ctx.partner (x : Ctx) (gp : Nat) : Option Nat :=
  match x.team.groups[gp]? with
  | none => none
  | some p =>
    let P := x.s.group p
    if P.core == x.G.core && P.quarter == x.G.quarter && P.stage != .retired then some p else none

def execTokpass (c : Ctl) (f : F64) (s : State) : Outcome State Fault Refusal :=
  groupWide (.tokpass c f) c s fun x =>
    let gp := if f.mod.toNat == 0 then bitsOf (x.sreg f.a).toNat 0 32 else f.c.toNat
    .go (if x.s.holder x.G == some x.g then x.s.setHolder x.G (x.partner gp) else x.s)

def execTokwait (c : Ctl) (f : F64) (s : State) : Outcome State Fault Refusal :=
  groupWide (.tokwait c f) c s fun x =>
    match x.s.holder x.G with
    | none => .go (x.s.setHolder x.G (some x.g))
    | some h => if h == x.g then .go x.s else .hold x.s (x.holding [] .tokWait)

end Sys2Proof.Machine
end

