-- ==== Sys2Proof/Machine/Groups.lean ====
section
/-! DEFINITION. Groups.lean: the events of a group that no word brings about: releases of meetings, refill attempts,
fairness, retirement, and fills of the register cache (01 R21-R28, R36, R37, R45). -/

namespace Sys2Proof.Machine

open Host (Outcome)

/-! ## Meetings (01 R26-R28) -/

/-- A thread stands in no fragment and will not come to a meeting. -/
def LaneState.over (x : LaneState) : Bool := x == .exited || x == .done

/-- Threads held at the meeting address `mt`. -/
def Group.heldAt (G : Group) (mt : Word) : List Nat :=
  (List.range G.gw).filter fun l => (G.laneAt l).st == .heldMeet && (G.laneAt l).mt == mt

/-- Every thread with that mt is held at it, exited or done, and one is held. -/
def Group.meetingDone (G : Group) (mt : Word) : Bool :=
  !(G.heldAt mt).isEmpty && G.lanes.all fun x => x.mt != mt || x.st == .heldMeet || x.st.over

/-- Threads held at a meeting address go on, fused, and have no meeting any more. -/
def Group.releaseMeeting (G : Group) (mt : Word) : Group :=
  G.modLanes (G.heldAt mt) fun x => { x with st := .active, mt := Config.noMeet }

/-- Threads held at `meetw`. -/
def Group.heldWs (G : Group) : List Nat := (List.range G.gw).filter fun l => (G.laneAt l).st == .heldW

def Group.meetwDone (G : Group) : Bool := !G.heldWs.isEmpty && G.lanes.all fun x => x.st == .heldW || x.st.over

/-- Threads held at `meetw` go on after it. -/
def Group.releaseMeetw (G : Group) : Group :=
  (G.modLanes G.heldWs fun x => { x with st := .active, pc := nextPc x.pc 8 }).settle

/-- Threads are left, none of them active, and no meeting can end (01 R28). -/
def Group.stuck (G : Group) : Bool :=
  G.lanes.any (fun x => !x.st.over) && G.lanes.all (fun x => x.st != .active) && !G.meetwDone &&
  !(G.lanes.any fun x => x.st == .heldMeet && G.meetingDone x.mt)

/-- The lowest meeting address at which threads are held. -/
def Group.lowestMeeting (G : Group) : Option Word :=
  (G.lanes.filter fun x => x.st == .heldMeet).foldl (fun b x => match b with
    | none => some x.mt
    | some m => if x.mt.toNat < m.toNat then some x.mt else some m) none

/-- The held set with the lowest address is released; `meetw` comes last. -/
def Group.unstick (G : Group) : Group :=
  match G.lowestMeeting with
  | some m => G.releaseMeeting m
  | none => G.releaseMeetw

/-- An event of a running group that changes the group alone. -/
def onGroup (s : State) (g : Nat) (p : Group → Bool) (f : Group → Group) : Outcome State Fault Refusal :=
  event s (if s.runs g && p (s.group g) then some (s.modGroup g f) else none)

def execMeetingRelease (g : Nat) (mt : Word) (s : State) : Outcome State Fault Refusal :=
  onGroup s g (fun G => G.meetingDone mt) fun G => G.releaseMeeting mt
def execMeetwRelease (g : Nat) (s : State) : Outcome State Fault Refusal := onGroup s g Group.meetwDone Group.releaseMeetw
def execStuckGroupRelease (g : Nat) (s : State) : Outcome State Fault Refusal := onGroup s g Group.stuck Group.unstick

/-! ## Refill and retirement (01 R36, R37, R45) -/

/-- Done lanes and no thread that is active or held. -/
def Group.wantsRefill (G : Group) : Bool := G.lanes.any (fun x => x.st == .done) && G.lanes.all fun x => x.st.over

/-- An attempt of the second kind: items for done lanes; with an empty share every done lane goes to the exit target; with no
refill point the done lanes exit. -/
def State.refillAttempt (s : State) (g : Nat) : State :=
  let G := s.group g
  match G.refill with
  | none => s.exitLanes g G.doneLanes
  | some r =>
    if (s.share g).isEmpty then
      s.modGroup g fun G =>
        ({ G with refill := none } : Group).modLanes G.doneLanes (fun x => { x with st := .active, pc := r.exit }) |>.settle
    else s.refillPop g r

def execRefillAttempt (g : Nat) (s : State) : Outcome State Fault Refusal :=
  event s (if s.runs g && (s.group g).wantsRefill then some (s.refillAttempt g) else none)

/-- Every lane is exited and every word has completed. -/
def State.retires (s : State) (g : Nat) : Bool :=
  s.runs g && (s.group g).lanes.all (fun x => x.st == .exited) && (s.group g).outst.isEmpty && s.drained g

def execGroupRetire (g : Nat) (s : State) : Outcome State Fault Refusal :=
  event s (if s.retires g then some (s.retire g) else none)

/-! ## Fairness and promotion (01 R22, R24) -/

/-- The count has reached 256 while another fragment waits. -/
def Group.fairDue (G : Group) : Bool := Config.fairnessLimit ≤ G.fairness

/-- The stickiness of the fragment that issued last ends and the count restarts: the fragment that shares a slice with it and has
waited longest takes the next issue. -/
def Group.fairTurn (G : Group) : Group :=
  { G with fairness := 0, forced := (List.range G.gw).filter fun l => (G.laneAt l).lastIss == G.lastIssue,
           sticky := G.sticky.filter fun l => (G.laneAt l).lastIss != G.lastIssue }

def execFairnessTimerExpiry (g : Nat) (s : State) : Outcome State Fault Refusal := onGroup s g Group.fairDue Group.fairTurn

/-- A group ready for 1,024 cycles without issuing comes before the others. -/
def execIssueStarvationPromotion (g : Nat) (s : State) : Outcome State Fault Refusal :=
  onGroup s g (fun G => !G.promoted && (match G.readySince with | some t => decide (t + Config.starvationLimit ≤ s.clock) | none => false))
    fun G => { G with promoted := true }

/-! ## The register cache (01 R21) -/

/-- The line of a register arrives; `line` is the register's number. -/
def execRegisterCacheFill (g line : Nat) (s : State) : Outcome State Fault Refusal :=
  event s (if (s.group g).missing.contains line then
    some ((s.modGroup g fun G => { G with missing := G.missing.filter (· != line), fills := G.fills.filter (· != line) }).fitLines
      (s.group g).core g Config.regCacheLines) else none)

end Sys2Proof.Machine
end

