-- ==== Sys2Proof/Machine/Matrix.lean ====
section
/-! DEFINITION. Matrix.lean: `fmtset`, `mma`, the `acc.*` instructions and the events of the matrix engine (11 R270-R288,
03 R87-R92). An operation is accepted at issue and performed by MULTIPLY_PIPE_PERFORM or ACC_PORT_PERFORM. -/

namespace Sys2Proof

open Machine (Tag VReg)

/-! ## The exponential unit (03 R90-R92) -/

/-- The table of 03 R92: c0 and c1. -/
def exuRows0 : List (Nat × Nat) :=
  [(65536, 714), (66250, 721), (66971, 729), (67700, 737), (68438, 745), (69183, 753), (69936, 762), (70698, 770),
   (71468, 778), (72246, 787), (73032, 795), (73828, 804), (74632, 813), (75444, 822), (76266, 830), (77096, 840),
   (77936, 849), (78785, 858), (79642, 867), (80510, 877), (81386, 886), (82273, 896), (83169, 906), (84074, 916),
   (84990, 925), (85915, 936), (86851, 946), (87796, 956), (88752, 966), (89719, 977), (90696, 988), (91684, 998)]
def exuRows1 : List (Nat × Nat) :=
  [(92682, 1009), (93691, 1020), (94711, 1031), (95743, 1043), (96785, 1054), (97839, 1065), (98905, 1077), (99982, 1089),
   (101070, 1101), (102171, 1113), (103283, 1125), (104408, 1137), (105545, 1149), (106694, 1162), (107856, 1174), (109031, 1187),
   (110218, 1200), (111418, 1213), (112631, 1226), (113858, 1240), (115098, 1253), (116351, 1267), (117618, 1281), (118899, 1295),
   (120194, 1309), (121502, 1323), (122825, 1337), (124163, 1352), (125515, 1367), (126882, 1382), (128263, 1397), (129660, 1412)]
def exuRow (s : Nat) : Nat × Nat := (exuRows0 ++ exuRows1).getD s (0, 0)

/-- exu of a binary32 encoding (03 R90). -/
def exu (w : Nat) : Nat :=
  match Fmt.f32.decode w with
  | .nan => 0x7FC00000
  | .inf neg => if neg then 0 else 0x7F800000
  | x =>
    match Fmt.f32.decode (Fmt.f32.result .rne (Num.mul x (Fmt.f32.decode 0x3FB8AA3B)) false) with
    | .nan => 0x7FC00000
    | .inf neg => if neg then 0 else 0x7F800000
    | .fin neg m e =>
      -- y = v / 2^k, exactly
      let k := (-e).toNat
      let v := signed neg (m * 2 ^ e.toNat)
      if 128 * 2 ^ k ≤ v then 0x7F800000
      else
        let n := v / 2 ^ k
        let f := 64 * (v % 2 ^ k).toNat
        let c := exuRow (f / 2 ^ k)
        if n < -126 then 0 else Fmt.f32.result .rne (.fin false (c.1 * 2 ^ k + c.2 * (f % 2 ^ k)) (n - 16 - k)) false

/-! ## Fragments (11 R274) -/

/-- Register and block of row or column `i` for blocks of `h` in a register. -/
def fragReg (vs : List VReg) (h i : Nat) : VReg := vs.getD (i / h) ⟨[], ⟨0#64, 0#16⟩⟩

/-- Byte `k` of block `b` of a register. -/
def fragByte (v : VReg) (b k : Nat) : Nat := bitsOf (v.lanes.getD (8 * b + k / 4) 0#32).toNat (8 * (k % 4)) 8

/-- The 256-bit code of a block. -/
def fragCode (v : VReg) (b : Nat) : Nat := (List.range 8).foldl (fun n l => n + (v.lanes.getD (8 * b + l) 0#32).toNat * 2 ^ (32 * l)) 0

/-- Half `k` of a block, as i16. -/
def fragHalf (v : VReg) (b k : Nat) : Int := asSigned 16 (bitsOf (v.lanes.getD (8 * b + k / 2) 0#32).toNat (16 * (k % 2)) 16)

/-- Fields of a format descriptor (02 R60). -/
def descSoff (d : Nat) : Int := asSigned 8 (bitsOf d 16 8)
def descSemi (d : Nat) : Nat := bitsOf d 13 3
def descFillm (d : Nat) : Nat := bitsOf d 11 2
def descMwb (d : Nat) : Nat := bitsOf d 4 4
def descMwa (d : Nat) : Nat := bitsOf d 0 4

/-- A valid descriptor value (02 R61). -/
def descOk (d : Nat) : Bool :=
  bitsOf d 24 8 == 0 && bitsOf d 8 3 == 0 && descSemi d ≤ 4 && descFillm d ≤ 2 &&
  2 ≤ descMwa d && descMwa d ≤ 8 && 2 ≤ descMwb d && descMwb d ≤ 8

/-- Effective plane count of a register under width `w` (11 R279). -/
def planesOf (t : Tag) (w : Nat) : Nat := if t.fmt == 6 && t.pln < 8 then min t.pln w else w

/-- A block's bytes as read under `.pt` and `.mt` (11 R279). -/
def readBlock (fillm w : Nat) (v : VReg) (b : Nat) : List Int :=
  let fill := fillm == 2 || (fillm == 0 && v.tag.fill)
  (List.range 32).map fun k => bfpByte (planesOf v.tag w) fill (fragByte v b k)

/-- An operand row or column, ready for every product: exponent and bytes as read, its code, its halves. -/
structure TileRow where
  exp : Nat
  bytes : List Int
  code : Nat
  halves : List Int

def tileRow (fillm w : Nat) (vs : List VReg) (h i : Nat) : TileRow :=
  let v := fragReg vs h i
  let b := i % h
  { exp := (v.tag.exp b).toNat, bytes := readBlock fillm w v b, code := fragCode v b, halves := (List.range 16).map (fragHalf v b) }

/-- Bits set in a 256-bit code. -/
def popc256 (n : Nat) : Nat := (List.range 256).foldl (fun c i => c + (bitAt n i).toNat) 0

/-- The larger, or smaller, of two binary32 numbers as an encoding (03 R77). -/
def pickF32 (larger : Bool) (a : Num) (bs : List Num) : Nat := Fmt.f32.result .rne (bs.foldl (Num.pick larger) a) false

/-- One element of the tile after an `mma` of semiring `sr` (11 R278, 03 R87, R88). -/
def mmaElem (sr : Nat) (soff : Int) (a b : TileRow) (acc : Nat) : Nat :=
  let old := Fmt.f32.decode acc
  if sr == 0 then
    let p : Int := (a.bytes.zip b.bytes).foldl (fun n x => n + x.1 * x.2) 0
    if a.exp == 255 || b.exp == 255 then Fmt.f32.nan
    else if a.exp == 0 || b.exp == 0 || p == 0 then acc
    else Fmt.f32.result .rne (Num.add .rne old (.fin (decide (p < 0)) p.natAbs ((a.exp : Int) + b.exp - 268 + soff))) false
  else if sr == 1 then Fmt.f32.result .rne (Num.add .rne old (.fin false (popc256 (a.code ^^^ b.code)) 0)) false
  else if sr == 2 then (if a.code &&& b.code == 0 then acc else 0x3F800000)
  else if sr == 3 then
    let ks := (a.halves.zip b.halves).map fun x => clampTo (-32768) 32767 (x.1 + x.2)
    pickF32 false old (ks.map fun n => .fin (decide (n < 0)) n.natAbs 0)
  else if a.exp == 255 || b.exp == 255 then Fmt.f32.nan
  else
    let ps := (a.bytes.zip b.bytes).map fun x =>
      let p := x.1 * x.2
      if a.exp == 0 || b.exp == 0 || p == 0 then Num.fin false 0 0
      else Fmt.f32.decode (Fmt.f32.result .rne (.fin (decide (p < 0)) p.natAbs ((a.exp : Int) + b.exp - 268 + soff)) false)
    pickF32 true old ps

/-- The tile after an `mma`; elements lie row by row. -/
def mmaTile (sr desc : Nat) (a b : List VReg) (gw : Nat) (t : List Lane32) : List Lane32 :=
  let h := gw / 8
  let ra := (List.range 64).map fun i => tileRow (descFillm desc) (descMwa desc) a h i
  let rb := (List.range 64).map fun j => tileRow (descFillm desc) (descMwb desc) b h j
  let cells := ra.flatMap fun x => rb.map fun y => (x, y)
  (t.zip cells).map fun c => BitVec.ofNat 32 (mmaElem sr (descSoff desc) c.2.1 c.2.2 c.1.toNat)

/-- Element (i, j) of a tile. -/
def tileAt (t : List Lane32) (i j : Nat) : Nat := (t.getD (64 * i + j) 0#32).toNat

/-- The 64 maxima of `acc.max` (11 R285). -/
def tileMax (col : Bool) (t : List Lane32) : List Nat :=
  (List.range 64).map fun i => pickF32 true .nan ((List.range 64).map fun j => Fmt.f32.decode (if col then tileAt t j i else tileAt t i j))

/-- 11 R286. -/
def sclElem (x f g : Nat) : Nat :=
  Fmt.f32.result .rne (Num.add .rne (Num.mul (Fmt.f32.decode x) (Fmt.f32.decode f)) (Fmt.f32.decode g)) false
def tileScl (f g t : List Lane32) : List Lane32 :=
  t.zipIdx.map fun x => BitVec.ofNat 32 (sclElem x.1.toNat (f.getD (x.2 / 64) 0#32).toNat (g.getD (x.2 / 64) 0#32).toNat)

namespace Machine

open Host (Outcome)

/-! ## Issue -/

def execFmtset (c : Ctl) (f : M96) (s : State) : Outcome State Fault Refusal :=
  groupWide (.fmtset c f) c s fun x =>
    let v : Lane32 := if f.mod.toNat == 0 then f.imm else (x.sreg f.a).setWidth 32
    if descOk v.toNat then .go (x.s.modGroup x.g fun G => G.putVar [.d f.d.toNat v])
    else .trap x.s 0x02 0 0 0

/-- A tile operation: accepted unless the queue is full (11 R271). -/
def Ctx.tileOp (x : Ctx) (tile : BitVec 7) (dests : List RegName) (op : TOp) : Res :=
  if x.s.tileFull x.G.core then .stall x.s .room false
  else .out (x.s.acceptTile x.g x.G.seq x.pc tile.toNat op) (x.oword dests .tile)

/-- `n` vector registers from a base, as they are read at issue. -/
def Ctx.vregs (x : Ctx) (r : BitVec 7) (n : Nat) : List VReg := (List.range n).map fun i => x.G.v.getD (r.toNat + i) ⟨[], ⟨0#64, 0#16⟩⟩

/-- A row vector of 64 values (11 R274). -/
def Ctx.rowVec (x : Ctx) (r : BitVec 7) : List Lane32 := (x.vregs r (rowRegs x.G.gw)).flatMap (·.lanes)

/-- The semiring must be that of the descriptor when the `mma` is performed (11 R277). -/
def execMma (c : Ctl) (f : F64) (s : State) : Outcome State Fault Refusal :=
  groupWide (.mma c f) c s fun x =>
    let sr := fld f.c 3 3
    let d := x.G.d.getD (fld f.c 0 3) 0#32
    let n := fragRegs x.G.gw
    if x.s.tileFull x.G.core then .stall x.s .room false
    else if descSemi d.toNat != sr then .trap x.s 0x01 0 0 0
    else x.tileOp f.d [] (.mma sr d (x.vregs f.a n) (x.vregs f.b n))

def execAccZero (c : Ctl) (f : F64) (s : State) : Outcome State Fault Refusal :=
  groupWide (.accZero c f) c s fun x =>
    x.tileOp f.d [] (.zero (if f.mod.toNat == 0 then 0#32 else if f.mod.toNat == 1 then 0x7F800000#32 else 0xFF800000#32))

/-- `acc.rd` and `acc.rdx` (11 R284). -/
def Ctx.accRead (x : Ctx) (f : F64) (exp : Bool) : Res :=
  let row0 := if fld f.c 2 1 == 1 then f.b.toNat else bitsOf (x.sreg f.b).toNat 0 6
  x.tileOp f.a (vset f.d (accRdRegs f x.G.gw)) (.rd exp row0 (2 ^ fld f.c 0 2) f.d.toNat x.part x.frag)

def execAccRd (c : Ctl) (f : F64) (s : State) : Outcome State Fault Refusal := groupWide (.accRd c f) c s fun x => x.accRead f false
def execAccRdx (c : Ctl) (f : F64) (s : State) : Outcome State Fault Refusal := groupWide (.accRdx c f) c s fun x => x.accRead f true

def execAccMax (c : Ctl) (f : F64) (s : State) : Outcome State Fault Refusal :=
  groupWide (.accMax c f) c s fun x =>
    let n := rowRegs x.G.gw
    x.tileOp f.a (vset f.d n) (.max (f.mod.toNat == 1) (fld f.c 0 1 == 1) f.d.toNat (x.vregs f.d n) x.part x.frag)

def execAccScl (c : Ctl) (f : F64) (s : State) : Outcome State Fault Refusal :=
  groupWide (.accScl c f) c s fun x => x.tileOp f.d [] (.scl (x.rowVec f.a) (x.rowVec f.b))

/-- The 16 KiB region of `acc.ld` and `acc.drn`: steps 3 and 4 of 10 R249 (11 R287). -/
def Ctx.tileRegion (x : Ctx) (f : M96) : Except (Nat × Nat) Nat :=
  let o := (x.sreg f.a).toInt + f.imm.toInt
  let own := fld f.c 2 1 == 0
  let len := if own then x.s.slotLen x.team else x.s.spaceLen x.team
  let base := if own then x.s.slotBase x.team x.G else 0
  if o < 0 || (len : Int) < o + 16384 then .error (0x20, wrapTo 64 o)
  else if o % 16 != 0 then .error (0x13, wrapTo 64 o)
  else .ok (base + o.toNat)

def execAccLd (c : Ctl) (f : M96) (s : State) : Outcome State Fault Refusal :=
  groupWide (.accLd c f) c s fun x =>
    let gs := fun (a : Nat) => (List.range 1024).map fun i => a + 16 * i
    if x.s.tileFull x.G.core then .stall x.s .room false
    else match x.tileRegion f with
      | .error (code, va) => .trap x.s code 0 va 0
      | .ok a =>
        if !x.G.clear then .stall x.s .other true
        else match (if fld f.c 0 2 == 0 then x.s.bringRead x.G.core x.tid [(a, 16384)] else x.s.bring x.G.core x.tid (pagesOf a 16384)) with
          | .starve s ps => x.starve s ps
          | .bad s lane va => .out s (x.oword [] (.bad lane va))
          | .ok s _ =>
            let x : Ctx := { x with s := s }
            if fld f.c 0 2 == 0 then x.tileOp f.d [] (.ld (lanesOf (s.spRead x.tid a 16384)))
            else match s.feHalted x.tid (gs a) with
              | some (_, q, code) => .trap s 0x35 0 0 (queueInfo q code)
              | none =>
                match s.tileFeTest x.G.core x.tid (gs a) [] with
                | .ok s ([], got) => ({ x with s := s } : Ctx).tileOp f.d [] (.ld (tileVals a got))
                | .ok s (rest, got) => .hold s { x.holding [] (.accLdFe f.d.toNat a rest got) with isLoad := true }
                | .starve s ps => x.starve s ps
                | .bad s lane va => .out s (x.oword [] (.bad lane va))

/-- The target pages are resident from the issue on, and no victims until the last granule lands (11 R288). -/
def execAccDrn (c : Ctl) (f : M96) (s : State) : Outcome State Fault Refusal :=
  groupWide (.accDrn c f) c s fun x =>
    if x.s.tileFull x.G.core then .stall x.s .room false
    else match x.tileRegion f with
      | .error (code, va) => .trap x.s code 0 va 0
      | .ok a =>
        match x.s.bring x.G.core x.tid (pagesOf a 16384) with
        | .starve s ps => x.starve s ps
        | .bad s lane va => .out s (x.oword [] (.bad lane va))
        | .ok s _ => ({ x with s := s } : Ctx).tileOp f.b [] (.drn a (fld f.c 3 1 == 1))

/-! ## The engine -/

/-- A physical tile's elements, row by row; a tile that nothing has written holds zeros (log 13). -/
def Core.tile (c : Core) (n : Nat) : List Lane32 := (c.tiles.lookup n).getD (List.replicate 4096 0#32)
def State.setTile (s : State) (core n : Nat) (t : List Lane32) : State :=
  s.modCore core fun c => { c with tiles := (n, t) :: c.tiles.filter fun x => x.1 != n }

def TOp.isMma : TOp → Bool
  | .mma .. => true
  | _ => false

/-- The operation a pipe performs next: its oldest, once every older operation on the tile has finished (11 R271). -/
def Core.nextOp (c : Core) (mma : Bool) : Option TileOp :=
  match c.ops.find? fun o => o.op.isMma == mma with
  | none => none
  | some o => if (c.ops.takeWhile fun y => y != o).any fun y => y.phys == o.phys then none else some o

/-- The operation leaves the queue. -/
def State.dropOp (s : State) (core : Nat) (o : TileOp) : State := s.modCore core fun c => { c with ops := c.ops.erase o }

/-- The word of a tile operation completes with its register writes. -/
def State.opDone (s : State) (core : Nat) (o : TileOp) (ws : List RegWrite) : State :=
  let s : State := s.dropOp core o
  match s.word? o.g o.word with
  | some w => s.complete o.g w ws
  | none => s

/-- TAKING ARITH_CHECK (11 R280, R281; 21 R497): the word writes nothing, is never issued again, and its group stops between two
issues. -/
def State.arithCheck (s : State) (core : Nat) (o : TileOp) : State :=
  let s : State := s.dropOp core o
  let s : State := match s.word? o.g o.word with | some w => s.takeBackFor o.g w [] | none => s
  s.groupFault o.g ⟨0x41, 0, 0, o.tile, 0#64, o.pc.toNat, true, [], 0#64, false, 0⟩

/-- A failed residue check: later operations on the tile are discarded, and each group that issued one stops (11 R280). -/
def State.residueFail (s : State) (core : Nat) (o : TileOp) : State :=
  let later := (((s.core core).ops.dropWhile fun y => y != o).drop 1).filter fun y => y.phys == o.phys
  let s : State := (s.arithCheck core o).countErr (dieOf core) 7
  (later.foldl (fun (r : List Nat × State) y =>
    if r.1.contains y.g then (r.1, r.2.opDone core y []) else (y.g :: r.1, r.2.arithCheck core y)) ([o.g], s)).2

/-- MULTIPLY_PIPE_PERFORM: the residue check covers `.pt` and `.px` (11 R278, R280). -/
def execMultiplyPipePerform (core : Nat) (residueOk : Bool) (s : State) : Outcome State Fault Refusal :=
  event s (((s.core core).nextOp true).map fun o => match o.op with
    | .mma sr d a b =>
      if !residueOk && sr ≤ 1 then s.residueFail core o
      else (s.setTile core o.phys (mmaTile sr d.toNat a b (s.group o.g).gw ((s.core core).tile o.phys))).opDone core o []
    | _ => s)

/-- Register writes of `acc.rd` and `acc.rdx` (11 R284). -/
def rdWrites (gw row0 nr d : Nat) (act frag : List Nat) (elem : Nat → Nat → Lane32) : List RegWrite :=
  (List.range (nr * 64 / gw)).flatMap fun q =>
    (act.map fun l => let e := gw * q + l; .v (d + q) l (elem ((row0 + e / 64) % 64) (e % 64))) ++ plainTag (d + q) 1 frag

/-- Register writes of `acc.max` (11 R285). -/
def maxWrites (gw d : Nat) (old : List VReg) (mrg : Bool) (act frag : List Nat) (ms : List Nat) : List RegWrite :=
  (List.range (64 / gw)).flatMap fun q =>
    (act.map fun l =>
      let m := ms.getD (gw * q + l) 0
      let o := ((old.getD q ⟨[], ⟨0#64, 0#16⟩⟩).lanes.getD l 0#32).toNat
      .v (d + q) l (BitVec.ofNat 32 (if mrg then pickF32 true (Fmt.f32.decode m) [Fmt.f32.decode o] else m))) ++ plainTag (d + q) 1 frag

/-- ACC_PORT_PERFORM (11 R283-R288); `parityOk` is the check of the exponential table (R281). -/
def execAccPortPerform (core : Nat) (parityOk : Bool) (s : State) : Outcome State Fault Refusal :=
  event s (((s.core core).nextOp false).map fun o =>
    let t := (s.core core).tile o.phys
    let gw := (s.group o.g).gw
    match o.op with
    | .mma .. => s
    | .zero v => (s.setTile core o.phys (List.replicate 4096 v)).opDone core o []
    | .rd exp row0 nr d act frag =>
      if exp && !parityOk then (s.arithCheck core o).countErr (dieOf core) 7
      else s.opDone core o (rdWrites gw row0 nr d act frag fun i j =>
        BitVec.ofNat 32 (if exp then exu (tileAt t i j) else tileAt t i j))
    | .max col mrg d old act frag => s.opDone core o (maxWrites gw d old mrg act frag (tileMax col t))
    | .scl f g => (s.setTile core o.phys (tileScl f g t)).opDone core o []
    | .ld vals => (s.setTile core o.phys vals).opDone core o []
    | .drn a z =>
      let tid := (s.group o.g).team
      let ds := (List.range 1024).map fun i => (⟨tid, o.g, a + 16 * i, ((t.drop (4 * i)).take 4).flatMap fun e => leBytes 4 e.toNat⟩ : Drain)
      let s : State := s.modCore core fun c => { c with drains := c.drains ++ ds }
      (if z then s.setTile core o.phys (List.replicate 4096 0#32) else s).opDone core o [])

/-- DRAIN_GRANULE_LAND: granule `k` of those on their way is performed at the port core and set full (11 R288). A page that was
mapped anew since is filled first (20 R440); a granule waits while no frame qualifies, and one whose page is uncorrectable is lost
(log 24). -/
def execDrainGranuleLand (core k : Nat) (s : State) : Outcome State Fault Refusal :=
  let gone := fun (s : State) => s.modCore core fun c => { c with drains := c.drains.eraseIdx k }
  event s (match (s.core core).drains[k]? with
    | none => none
    | some d => match s.bring core d.team (pagesOf d.addr 16) with
      | .ok s _ => some (gone (s.spWriteFull d.team d.addr d.bytes))
      | .bad s _ _ => some (gone s)
      | _ => none)

end Machine

end Sys2Proof
end

