-- ==== Sys2Proof/Machine/Search.lean ====
section
/-! DEFINITION. Search.lean: `kvslot`, `hamd`, the candidate queues, `vf.test`, `gwalk` and GWALK_STEP (12 R290-R309). -/

namespace Sys2Proof.Machine

open Host (Outcome)

/-! ## kvslot (12 R290-R296) -/

/-- The fields of a KV descriptor. -/
structure KvDesc where
  len : Nat
  nsink : Nat
  win : Nat
  slotb : Nat
  spp : Nat
  genoff : Nat
  ptoff : Nat
  ok : Bool

def kvDesc (bs : List Byte) : KvDesc :=
  let n := leNat bs
  let f := fun lo len => bitsOf n (8 * lo) (8 * len)
  let spp := f 20 4
  { len := f 0 8, nsink := f 8 4, win := f 12 4, slotb := f 16 4, spp := spp, genoff := f 24 8, ptoff := f 32 8
    ok := f 8 4 ≤ 65536 && 1 ≤ f 12 4 && f 12 4 ≤ 2 ^ 24 && f 16 4 % 16 == 0 && 16 ≤ f 16 4 && f 16 4 ≤ 2 ^ 20 &&
      ((List.range 17).any fun i => spp == 2 ^ i) && spp * f 16 4 ≤ 2 ^ 31 && f 24 8 % 4 == 0 && f 32 8 % 4 == 0 && f 40 24 == 0 }

/-- Slot and generation of a position (12 R291). -/
def KvDesc.slot (d : KvDesc) (p : Nat) : Nat × Nat :=
  if p < d.nsink then (p, 1) else (d.nsink + (p - d.nsink) % d.win, (p - d.nsink) / d.win % (2 ^ 32 - 1) + 1)

/-- Position `p` is live (12 R291). -/
def KvDesc.live (d : KvDesc) (p : Nat) : Bool := p < d.len && (p < d.nsink || max d.nsink (d.len - d.win) ≤ p)

/-- Requester number of a word of group `g` that asks peers for what it reads; `tag` tells what it has read before. -/
def askWho (tag g : Nat) : Nat := (tag + 1) * 2 ^ 40 + g

/-- Peers are asked for the bytes of accesses; whether all have come. -/
def Ctx.askAll (x : Ctx) (tag : Nat) (as : List Acc) : Bool × State :=
  as.foldl (fun (r : Bool × State) (a : Acc) => match a.own with
    | .peer p => match r.2.askedLine .swLoad (askWho tag x.g) p a.pa a.size with
      | .got _ => r
      | .unasked => (false, r.2.askLine .swLoad x.ten x.tid (askWho tag x.g) x.G.seq p a.pa a.va a.cnt)
      | _ => (false, r.2)
    | _ => r) (true, x.s)

/-- The word waits until peers have sent what it asks of them. -/
def Ctx.asking (x : Ctx) (tag : Nat) (as : List Acc) (k : State → Res) : Res :=
  let r := x.askAll tag as
  if r.1 then k r.2 else .stall r.2 .other true

/-- The bytes of accesses, those of peers as they have sent them, the others through the L1. -/
def Ctx.readAll (x : Ctx) (s : State) (tag : Nat) (as : List Acc) : List (Acc × List Byte) × State :=
  as.foldl (fun (r : List (Acc × List Byte) × State) (a : Acc) =>
    let got := match a.own with
      | .peer p => (match r.2.askedLine .swLoad (askWho tag x.g) p a.pa a.size with | .got bs => bs | _ => [], r.2)
      | _ => r.2.l1Read x.G.core a false []
    (r.1 ++ [(a, got.1)], got.2)) ([], s)

/-- The offsets that a lane reads: its page-table word and, in the reader form, its generation word, the lower address first (10
R249). -/
def KvDesc.offs (d : KvDesc) (wr : Bool) (p : Nat) : List Int :=
  let s := (d.slot p).1
  let pt : Int := d.ptoff + 4 * (s / d.spp : Nat)
  let gn : Int := d.genoff + 4 * s
  if wr then [pt] else if gn < pt then [gn, pt] else [pt, gn]

/-- What `kvslot` writes in a lane with position `p`; `word o` is the n32 at an offset, 0 out of bounds (12 R295). -/
def KvDesc.writes (d : KvDesc) (wr : Bool) (d0 pd lane p : Nat) (word : Nat → Nat) : List RegWrite :=
  let sg := d.slot p
  [.v d0 lane (BitVec.ofNat 32 sg.1), .v (d0 + 1) lane (BitVec.ofNat 32 (word (d.ptoff + 4 * (sg.1 / d.spp)))),
   .v (d0 + 2) lane (BitVec.ofNat 32 sg.2), .v (d0 + 3) lane (BitVec.ofNat 32 (sg.1 % d.spp * d.slotb)),
   .p pd lane (if wr then d.len ≤ p else d.live p && word (d.genoff + 4 * sg.1) == sg.2)]

/-- The lane phase of `kvslot` (12 R296): what it reads follows the binding of the descriptor `bs`, read through `da`; `scope` is 0
where the descriptor's read is no acquire. A lane word that is refused is data that returns to the group: its fault is a late one (21
R497; DEDUCED, log 15). -/
def Ctx.kvLanes (x : Ctx) (f : F64) (s : State) (da : List Acc) (bs : List Byte) : Res :=
  let r := (x.breg f.b).toNat
  let wr := f.mod.getLsbD 1
  let scope := fld f.b 4 3
  let d0 := f.d.toNat
  let dests := vset f.d 4 ++ [.p (fld f.c 0 3)]
  let d := kvDesc bs
  let pos := fun l => if f.mod.getLsbD 0 then (x.v f.a l).toNat else (x.pair f.a l).toNat
  if !d.ok then .trap s 0x02 0 0 0
  else match checkLanes r (x.part.flatMap fun l => (d.offs wr (pos l)).map fun o => (l, o)) 4 with
    | .error (code, lane, va) => .trap s code lane va 0
    | .ok (live, _) => ({ x with s := s.l1Acquire x.G.core (if unAll da then 0 else scope) } : Ctx).access .load live fun ls =>
      let as := mkAccs live ls 4 fun _ => []
      let tag := 2 * leNat bs + 2
      if x.G.touches as || s.batchWaits as || !x.fits (da ++ as) then .stall s .other true
      else match firstPoison s as with
        | some a => .out s (x.oword dests (.bad a.lane a.va))
        | none => ({ x with s := s.l1Acquire x.G.core (if unAll da then 0 else scope) } : Ctx).asking tag as fun s =>
          let got := x.readAll s tag as
          let word := fun (o : Nat) => if recIn r o 4 then
              match got.1.find? fun p => p.1.va == recAddr r o with | some p => leNat p.2 | none => 0
            else 0
          .out (got.2.unask x.g) { x.oword dests (.land (x.known d0 4 [] ++ x.part.flatMap fun l => d.writes wr d0 (fld f.c 0 3) l (pos l) word)) with
            acq := if unAll (da ++ as) then 0 else scope, so := soAny (da ++ as) }

/-- The descriptor phase is group-wide and its faults name LANE 0 (DESIGN CHOICE, log 15). A descriptor that is refused as data faults
before the lane phase, so its fault is precise (12 R296). -/
def execKvslot (c : Ctl) (f : F64) (s : State) : Outcome State Fault Refusal :=
  word (.kvslot c f) c (fun x =>
    let r := (x.breg f.b).toNat
    let low : Nat := 0
    let base := recBase r
    if x.part.isEmpty then .go x.s
    else if recBad r [1] then .trap x.s 0x02 low 0 0
    else if !(recIn r 0 64) then .trap x.s 0x10 low 0 0
    else match rangeFault low base (base + 63) with
      | some (code, lane, va) => .trap x.s code lane va 0
      | none =>
        if base % 64 != 0 then .trap x.s 0x13 low base 0
        else x.access .load [(low, base)] fun ls =>
          let da := mkAccs [(low, base)] ls 64 fun _ => []
          if !x.G.clear || x.G.touches da || x.s.batchWaits da then .stall x.s .other true
          else match firstPoison x.s da with
            | some a => .trap x.s 0x60 low a.va 0
            | none => x.asking 0 da fun s =>
              let got := x.readAll s 0 da
              x.kvLanes f got.2 da (got.1.flatMap (·.2))) s

/-! ## hamd (12 R298) -/

/-- Bits set in a 32-bit word. -/
def popc32 (w : Lane32) : Nat := (List.range 32).foldl (fun n i => n + (w.getLsbD i).toNat) 0

def execHamd (c : Ctl) (f : F64) (s : State) : Outcome State Fault Refusal :=
  word (.hamd c f) c (fun x =>
    let w := 8 * 2 ^ fld f.c 0 2
    let dist := fun l =>
      let first := l / w * w
      (List.range w).foldl (fun n i =>
        n + popc32 (x.v f.a (first + i) ^^^ x.v f.b (if f.mod.toNat == 1 then i else first + i))) 0
    .out x.s (x.oword [.v f.d.toNat] (.land (x.vres f.d.toNat 0 fun l => BitVec.ofNat 32 (dist l))))) s

/-! ## Candidate queues and filters (12 R301-R304) -/

/-- A queue: capacity and entries, each a key with the lane that pushed it, plus 1. -/
structure CQ where
  cap : Nat
  ents : List (Nat × Nat)

/-- Insert after every entry that is not larger. -/
def cqIns (e : Nat × Nat) : List (Nat × Nat) → List (Nat × Nat)
  | [] => [e]
  | x :: xs => if x.1 ≤ e.1 then x :: cqIns e xs else e :: x :: xs

/-- The `cq.push` rule for one key. -/
def CQ.push (q : CQ) (e : Nat × Nat) : CQ :=
  if q.ents.length < q.cap then { q with ents := cqIns e q.ents }
  else if e.1 < (match q.ents.getLast? with | some y => y.1 | none => 0) then { q with ents := cqIns e q.ents.dropLast }
  else q

/-- The queue at a team-space address; none where its header is invalid (12 R302). -/
def State.cqRead (s : State) (tid addr : Nat) : Option CQ :=
  let cap := s.spReadLE tid addr 4
  let cnt := s.spReadLE tid (addr + 4) 4
  if s.spReadLE tid (addr + 8) 8 != 0 || cap == 0 || 1024 < cap || cap < cnt then none
  else some ⟨cap, (List.range cnt).map fun i => (s.spReadLE tid (addr + 16 + 8 * i) 8, 0)⟩

/-- CNT and the entries in use are written; FE bits stay. -/
def State.cqWrite (s : State) (tid addr : Nat) (q : CQ) : State :=
  (s.spWrite tid (addr + 4) (leBytes 4 q.ents.length)).spWrite tid (addr + 16) (q.ents.flatMap fun e => leBytes 8 e.1)

/-- The pages of a queue made resident, and the entries in use checked for words that cannot be corrected. -/
def State.bringQueue (s : State) (core tid addr : Nat) (q : CQ) : SpRes Unit :=
  match s.bring core tid (pagesOf addr (16 + 8 * q.cap)) with
  | .ok s u => match s.spBad tid addr (16 + 8 * q.ents.length) with
    | some va => .bad s 0 va
    | none => .ok s u
  | r => r

/-- A region of `n` bytes at an address of the slot, or of the space (`rem`): it lies within one core slot (12 R304). -/
def Ctx.cqRegion (x : Ctx) (rem : Bool) (a n : Nat) : Except (Nat × Nat) Nat :=
  let slot := max (x.s.slotLen x.team) 1
  let lim := if rem then x.s.spaceLen x.team else x.s.slotLen x.team
  if lim < a + n || a / slot != (a + n - 1) / slot then .error (0x20, a)
  else if a % 16 != 0 then .error (0x13, a)
  else .ok ((if rem then 0 else x.s.slotBase x.team x.G) + a)

/-- The checks that the queue instructions share, then the operation on the queue. The fetch stays suspended while they are made, so
every one of them faults precisely, a header or an entry that cannot be corrected among them (12 R302, 21 R497). -/
def Ctx.cq (x : Ctx) (f : F64) (k : State → Nat → CQ → Res) : Res :=
  let a := (x.sreg f.a).toNat
  let rem := f.mod.getLsbD 0
  let low : Nat := 0
  match x.cqRegion rem a 16 with
  | .error (code, va) => .trap x.s code low va 0
  | .ok addr =>
    if !x.G.clear then .stall x.s .other true
    else match x.s.bringRead x.G.core x.tid [(addr, 16)] with
      | .starve s ps => x.starve s ps
      | .bad s _ va => .trap s 0x60 low va 0
      | .ok s _ =>
        match s.cqRead x.tid addr with
        | none => .trap s 0x02 low 0 0
        | some q =>
          match x.cqRegion rem a (16 + 8 * q.cap) with
          | .error (code, va) => .trap s code low va 0
          | .ok _ => match s.bringQueue x.G.core x.tid addr q with
            | .starve s ps => x.starve s ps
            | .bad s _ va => .trap s 0x60 low va 0
            | .ok s _ => match s.cqRead x.tid addr with
              | some q => k s addr q
              | none => .trap s 0x02 low 0 0

def execCqInit (c : Ctl) (f : F64) (s : State) : Outcome State Fault Refusal :=
  groupWide (.cqInit c f) c s fun x =>
    let cap := (x.sreg f.b).toNat
    let a := (x.sreg f.a).toNat
    let low : Nat := 0
    if cap == 0 || 1024 < cap then .trap x.s 0x02 low 0 0
    else match x.cqRegion (f.mod.getLsbD 0) a (16 + 8 * cap) with
      | .error (code, va) => .trap x.s code low va 0
      | .ok addr =>
        if !x.G.clear then .stall x.s .other true
        else match x.s.bring x.G.core x.tid (pagesOf addr 16) with
          | .starve s ps => x.starve s ps
          | .bad s _ va => .trap s 0x60 low va 0
          | .ok s _ => .go (s.spWrite x.tid addr (leBytes 4 cap ++ leBytes 4 0))

def execCqPush (c : Ctl) (f : F64) (s : State) : Outcome State Fault Refusal :=
  groupWide (.cqPush c f) c s fun x =>
    x.cq f fun s addr q =>
      let q := x.part.foldl (fun (q : CQ) l => q.push ((x.v f.b l).toNat * 2 ^ 32 + (x.v f.c l).toNat, l + 1)) q
      .out (s.cqWrite x.tid addr q)
        (x.oword [.p f.d.toNat] (.land (x.part.map fun l => .p f.d.toNat l (q.ents.any fun e => e.2 == l + 1))))

/-- What `cq.pop` gives its receiving lanes; the tags are written at every issue, for the blocks of the fragment (02 R53). -/
def Ctx.popWrites (x : Ctx) (d : BitVec 7) (got : List (Nat × Word)) : List RegWrite :=
  (got.flatMap fun p => [.v d.toNat p.1 (p.2.setWidth 32), .v (d.toNat + 1) p.1 ((p.2 >>> 32).setWidth 32)]) ++ x.known d.toNat 2 []

def execCqPop (c : Ctl) (f : F64) (s : State) : Outcome State Fault Refusal :=
  groupWide (.cqPop c f) c s fun x =>
    x.cq f fun s addr q =>
      let got := x.part.zip (q.ents.map fun e => BitVec.ofNat 64 e.1)
      .out (s.cqWrite x.tid addr { q with ents := q.ents.drop got.length })
        (x.oword (vset f.d 2 ++ [.p f.b.toNat])
          (.land (x.popWrites f.d got ++ x.part.map fun l => .p f.b.toNat l (got.any fun p => p.1 == l))))

def execCqTop (c : Ctl) (f : F64) (s : State) : Outcome State Fault Refusal :=
  groupWide (.cqTop c f) c s fun x =>
    x.cq f fun s _ q =>
      let none' := 2 ^ 64 - 1
      let v := if f.c.toNat == 0 then (match q.ents with | e :: _ => e.1 | [] => none')
        else if f.c.toNat == 1 then (match q.ents.getLast? with | some e => e.1 | none => none')
        else if f.c.toNat == 2 then q.ents.length else q.cap
      .out s (x.oword [.s f.d.toNat] (.land [.s f.d.toNat (BitVec.ofNat 64 v)]))

/-- The filter bit of a node (12 R303). -/
def vfHash (k node : Nat) : Nat := node * 0x9E3779B1 % 2 ^ 32 / 2 ^ (32 - k)

def execVfTest (c : Ctl) (f : F64) (s : State) : Outcome State Fault Refusal :=
  groupWide (.vfTest c f) c s fun x =>
    let k := f.c.toNat
    let low : Nat := 0
    match x.cqRegion (f.mod.getLsbD 0) (x.sreg f.a).toNat (2 ^ (k - 3)) with
    | .error (code, va) => .trap x.s code low va 0
    | .ok addr =>
      let h := fun l => vfHash k (x.v f.b l).toNat
      let test := fun (s : State) (ws : List RegWrite) (a : SAcc) =>
        let b := s.spRead1 x.tid a.addr
        (if f.mod.getLsbD 1 then s else s.spWrite1 x.tid a.addr (setBit b (h a.lane % 8) true),
          ws ++ [.p f.d.toNat a.lane (b.getLsbD (h a.lane % 8))])
      if !x.G.clear then .stall x.s .other true
      else match spRounds x.G.core x.tid allRead test (x.part.length + 1) x.s [] (x.part.map fun l => ⟨l, addr + h l / 8, 1⟩) with
        | .starve s ps => x.starve s ps
        | .bad s lane va => .out s (x.oword [.p f.d.toNat] (.bad lane va))
        | .ok s ws => .out s (x.oword [.p f.d.toNat] (.land ws))

/-! ## gwalk (12 R305-R309) -/

/-- The walk descriptor's fields, as addresses of the team space. -/
structure Walk where
  cq : Nat
  rq : Nat
  vf : Nat
  query : Nat
  ncount : Nat
  nodeb : Nat
  dmax : Nat
  code : Nat
  vfk : Nat
  rsvOk : Bool

def State.walkDesc (s : State) (tid base addr : Nat) : Walk :=
  let n := s.spReadLE tid addr 32
  let f := fun lo len => bitsOf n (8 * lo) (8 * len)
  { cq := base + f 0 4, rq := base + f 4 4, vf := base + f 8 4, query := base + f 12 4, ncount := f 16 4, nodeb := f 20 4,
    dmax := f 24 2, code := f 26 1, vfk := f 27 1, rsvOk := f 28 4 == 0 }

/-- Bytes of a code and of a node record (12 R299). -/
def Walk.cb (w : Walk) : Nat := 32 * 2 ^ w.code
def Walk.recLen (w : Walk) : Nat := 16 + w.cb + 4 * w.dmax

/-- The values of 12 R305 that the descriptor itself holds. -/
def Walk.ok (w : Walk) : Bool :=
  w.rsvOk && w.code ≤ 2 && 1 ≤ w.dmax && w.dmax ≤ 1024 && 10 ≤ w.vfk && w.vfk ≤ 24 && w.nodeb % 16 == 0 && w.recLen ≤ w.nodeb

/-- The checks on the walk's regions when the port core accepts it; `len` is the slot's length. -/
def Walk.regions (w : Walk) (base len capC capR : Nat) : Option (Nat × Nat) :=
  let rs := [(w.cq, 16 + 8 * capC), (w.rq, 16 + 8 * capR), (w.vf, 2 ^ (w.vfk - 3)), (w.query, w.cb)]
  match rs.find? fun r => base + len < r.1 + r.2 with
  | some r => some (0x20, r.1 - base)
  | none => (rs.find? fun r => (r.1 - base) % 16 != 0).map fun r => (0x13, r.1 - base)

/-- Scratchpad pages that a walk needs besides its filter. -/
def Walk.pages (w : Walk) (capC capR : Nat) : List Nat :=
  pagesOf w.cq (16 + 8 * capC) ++ pagesOf w.rq (16 + 8 * capR) ++ pagesOf w.query w.cb

def execGwalk (c : Ctl) (f : M96) (s : State) : Outcome State Fault Refusal :=
  groupWide (.gwalk c f) c s fun x =>
    let o := (x.sreg f.a).toInt + f.imm.toInt
    let len := x.s.slotLen x.team
    let base := x.s.slotBase x.team x.G
    let low : Nat := 0
    let dests : List RegName := [.s f.d.toNat]
    if recBad (x.breg f.b).toNat [1] then .trap x.s 0x02 low 0 0
    else if o < 0 || (len : Int) < o + 32 then .trap x.s 0x20 low (wrapTo 64 o) 0
    else if o % 16 != 0 then .trap x.s 0x13 low (wrapTo 64 o) 0
    else if !x.G.clear then .stall x.s .other true
    else match x.s.bringRead x.G.core x.tid [(base + o.toNat, 32)] with
      | .starve s ps => x.starve s ps
      | .bad s _ va => .trap s 0x60 low va 0
      | .ok s _ =>
        let w := s.walkDesc x.tid base (base + o.toNat)
        if !w.ok then .trap s 0x02 low 0 0
        else match w.regions base len 0 0 with
          | some (code, va) => .trap s code low va 0
          | none => match s.bringRead x.G.core x.tid [(w.cq, 16), (w.rq, 16)] with
            | .starve s ps => x.starve s ps
            | .bad s _ va => .trap s 0x60 low va 0
            | .ok s _ => match s.cqRead x.tid w.cq, s.cqRead x.tid w.rq with
              | some q, some r => match w.regions base len q.cap r.cap with
                | some (code, va) => .trap s code low va 0
                | none =>
                  .hold (s.modCore x.G.core fun k => { k with walks := k.walks ++ [(x.g, x.G.seq)] })
                    (x.holding dests (.gwalk (base + o.toNat) (fld f.c 0 4) 0 0 f.d.toNat (x.breg f.b) (fld f.b 4 3) []))
              | _, _ => .trap s 0x02 low 0 0

/-- A read that a step has bound: address and bytes. -/
abbrev Bound := Nat × List Byte

/-- How a walk step ends early: it waits, keeping what it has read or nothing; its reads fault; or its pages find no frame. -/
inductive WFail where
  | wait (s : State) (keep : List Bound)
  | fault (s : State) (code va info : Nat)
  | starve (s : State) (pages : List Nat) (keep : List Bound)

/-- Where a walk runs. -/
structure WalkAt where
  w : Walk
  r : Nat
  tid : Nat
  g : Nat
  id : Nat
  pc : Word
  scope : Nat

/-- What a walk step has so far. -/
structure WStep where
  s : State
  cq : CQ
  rq : CQ
  /-- filter bits set by this step -/
  set : List Nat
  dist : Nat
  fin : Bool
  /-- the step's reads so far, and those that it made before it last waited, in order -/
  seen : List Bound
  todo : List Bound

/-- Step 5 of 10 R249 for one line of a read: its translation, or the peer that it needs and that is dead. -/
def WalkAt.line (e : WalkAt) (x : WStep) (va : Nat) : Except WFail (Nat ⊕ XLine) :=
  let G := x.s.group e.g
  let ten := (x.s.team G.team).ten
  match x.s.xlate G.core ten G.levelS e.g va .load true with
    | .fault code => .error (.fault (x.s.atsForget e.g) code va 0)
    | .dead p => .ok (.inl p)
    | .hostPage => .error (.wait x.s [])
    | .miss | .missHost => .error (.wait ((x.s.pendWalk G.core ten e.g e.pc va).getD x.s) x.seen)
    | .ats => .error (.wait (x.s.atsAsk G.core ten e.g va .load) x.seen)
    | .ok l => .ok (.inr l)

/-- The lines of a read, each step of 10 R249 for all of them before the next step: range (12 R308 names steps 5 and 6 only; a line at
or above 2^56 raises ADDR_NONCANON, DESIGN CHOICE, log 15), translation, owner; then the data. -/
def WalkAt.lines (e : WalkAt) (x : WStep) (ps : List (Nat × Nat)) : Except WFail (List XLine) := do
  match ps.find? fun p => 2 ^ 56 ≤ p.1 with
  | some p => throw (.fault x.s 0x11 p.1 0)
  | none => pure ()
  let ls ← ps.mapM fun p => (e.line x p.1).map fun l => (p.1, l)
  let ls ← ls.mapM fun p => match p.2 with
    | .inl peer => throw (.fault x.s 0x33 p.1 peer)
    | .inr l => pure (p.1, l)
  match ls.find? fun p => p.2.own == .here && x.s.poisoned p.2.pa with
  | some p => throw (.fault x.s 0x60 p.1 0)
  | none => if ls.any fun p => p.2.own == .here && x.s.hbmWaits p.2.pa then throw (.wait x.s x.seen) else pure (ls.map (·.2))

/-- One line of a read, translated: at the home slice (`hdr`), plain, or at its peer. -/
def WalkAt.fetch (e : WalkAt) (hdr : Bool) (l : XLine) (va n : Nat) (x : WStep) : Except WFail (List Byte × WStep) :=
  let G := x.s.group e.g
  match l.own with
  | .peer p =>
    let who := askWho (2 * e.id + 1) e.g
    match x.s.askedLine .swLoad who p l.pa n with
    | .got bs => .ok (bs, x)
    | .unasked => .error (.wait (x.s.askLine .swLoad (x.s.team e.tid).ten e.tid who e.id p l.pa va l.cnt) x.seen)
    | _ => .error (.wait x.s x.seen)
  | own =>
    if hdr then .ok (x.s.homeRead own l.pa n, { x with s := match own with | .here => x.s.touch l.pa 0 false | _ => x.s })
    else
      let got := x.s.l1Read G.core (l.acc 0 va n) false []
      .ok (got.1, { x with s := got.2 })

/-- A read of the walk unit (12 R308): every line of it is translated before any is read; a header's is an acquire. A read that the
step made before it waited stands. -/
def WalkAt.read (e : WalkAt) (hdr : Bool) (va n : Nat) (x : WStep) : Except WFail (List Byte × WStep) := do
  match x.todo.head? with
  | some b =>
    if b.1 == va && b.2.length == n then return (b.2, { x with seen := x.seen ++ [b], todo := x.todo.tail })
  | none => pure ()
  let ps := linePieces va n
  let ls ← e.lines x ps
  let (bs, y) ← (ps.zip ls).foldlM (fun (b : List Byte × WStep) p => do
    let got ← e.fetch hdr p.2 p.1.1 p.1.2 b.2
    pure (b.1 ++ got.1, got.2)) ([], x)
  let s := y.s.forget .swLoad (askWho (2 * e.id + 1) e.g)
  let s := if hdr && !(ls.all fun l => l.kind == .un) then s.l1Acquire (s.group e.g).core e.scope else s
  return (bs, { y with s := s, seen := y.seen ++ [(va, bs)], todo := [] })

/-- The header of a node: STATE and DEG; a record not wholly below EXTENT reads as STATE 00. -/
def WalkAt.header (e : WalkAt) (node : Nat) (x : WStep) : Except WFail ((Nat × Nat) × WStep) :=
  if recIn e.r (node * e.w.nodeb : Nat) e.w.recLen then
    (e.read true (recBase e.r + node * e.w.nodeb) 8 x).map fun b =>
      let h := leNat b.1
      ((bitsOf h 0 2, bitsOf h 16 16), b.2)
  else .ok ((0, 0), x)

/-- A filter bit; its page is made resident. -/
def WalkAt.vfBit (e : WalkAt) (h : Nat) (x : WStep) : Except WFail (Bool × WStep) :=
  match x.s.bringRead (x.s.group e.g).core e.tid [(e.w.vf + h / 8, 1)] with
  | .starve s ps => .error (.starve s ps x.seen)
  | .bad s _ va => .error (.fault s 0x60 va 0)
  | .ok s _ => .ok ((s.spRead1 e.tid (e.w.vf + h / 8)).getLsbD (h % 8), { x with s := s })

/-- One edge of the walk. -/
def WalkAt.edge (e : WalkAt) (query m : Nat) (x : WStep) : Except WFail WStep := do
  let w := e.w
  let h := vfHash w.vfk m
  if w.ncount ≤ m then pure x
  else
    let (old, x) ← e.vfBit h x
    if old || x.set.contains h then pure x
    else
      let x : WStep := { x with set := h :: x.set }
      let ((st, _), x) ← e.header m x
      if st < 2 then pure x
      else
        let (code, x) ← e.read false (recBase e.r + m * w.nodeb + 16) w.cb x
        let d := (List.range (8 * w.cb)).foldl (fun n i => n + (bitAt (query ^^^ leNat code) i).toNat) 0
        let k := d * 2 ^ 32 + m
        let x : WStep := { x with dist := x.dist + 1 }
        let big := match x.rq.ents.getLast? with | some e => e.1 | none => 0
        if x.rq.ents.length < x.rq.cap || k < big then
          pure { x with cq := x.cq.push (k, 0), rq := if st == 2 then x.rq.push (k, 0) else x.rq }
        else pure x

/-- One step of the walk (12 R306): all reads, then what the step would commit. -/
def WalkAt.step (e : WalkAt) (x : WStep) : Except WFail WStep := do
  let w := e.w
  match x.cq.ents with
  | [] => pure { x with fin := true }
  | c0 :: rest =>
    let c := c0.1 % 2 ^ 32
    let x : WStep := { x with cq := { x.cq with ents := rest } }
    let big := match x.rq.ents.getLast? with | some y => y.1 | none => 0
    if x.rq.ents.length == x.rq.cap && big < c0.1 then pure { x with fin := true }
    else
      let query := leNat (x.s.spRead e.tid w.query w.cb)
      let ((st, deg), x) ← e.header c x
      if st < 2 then pure x
      else
        let n := min deg w.dmax
        let (es, x) ← e.read false (recBase e.r + c * w.nodeb + 16 + w.cb) (4 * n) x
        (List.range n).foldlM (fun (x : WStep) i => e.edge query (leNat ((es.drop (4 * i)).take 4)) x) x

/-- A write of the commit; pages that the step has driven out since come back first. Where they cannot, the step commits nothing:
`x` stands as it was before the first write. -/
def WalkAt.put (e : WalkAt) (x : WStep) (s : State) (pages : List Nat) (f : State → State) : Except WFail State :=
  match s.bring (s.group e.g).core e.tid pages with
  | .ok s _ => .ok (f s)
  | .starve _ ps => .error (.starve x.s ps x.seen)
  | .bad _ _ va => .error (.fault x.s 0x60 va 0)

/-- The commit of a step at the port core, as one step (12 R304, R308). -/
def WalkAt.commit (e : WalkAt) (x : WStep) : Except WFail State := do
  let queue := fun (s : State) (a : Nat) (q : CQ) => e.put x s (pagesOf a (16 + 8 * q.cap)) fun s => s.cqWrite e.tid a q
  let s ← queue x.s e.w.cq x.cq
  let s ← queue s e.w.rq x.rq
  x.set.foldlM (fun (s : State) h =>
    let a := e.w.vf + h / 8
    e.put x s [a / 4096] fun s => s.spWrite1 e.tid a (setBit (s.spRead1 e.tid a) (h % 8) true)) s

/-- What a step of a walk finds at the port core: the pages of its descriptor and of both headers, then those of the queues and of the
query code, resident and good; then the queues themselves. -/
def State.walkBring (s : State) (core tid base addr : Nat) : SpRes (Walk × Option (CQ × CQ)) :=
  match s.bringRead core tid [(addr, 32)] with
  | .starve s ps => .starve s ps
  | .bad s lane va => .bad s lane va
  | .ok s _ =>
    let w := s.walkDesc tid base addr
    match s.bringRead core tid [(w.cq, 16), (w.rq, 16)] with
    | .starve s ps => .starve s ps
    | .bad s lane va => .bad s lane va
    | .ok s _ => match s.cqRead tid w.cq, s.cqRead tid w.rq with
      | some q, some r => match s.bring core tid (w.pages q.cap r.cap) with
        | .starve s ps => .starve s ps
        | .bad s lane va => .bad s lane va
        | .ok s _ =>
          match (s.spBad tid w.cq (16 + 8 * q.ents.length)).orElse fun _ => (s.spBad tid w.rq (16 + 8 * r.ents.length)).orElse fun _ =>
            s.spBad tid w.query w.cb with
          | some va => .bad s 0 va
          | none => .ok s (w, match s.cqRead tid w.cq, s.cqRead tid w.rq with | some q, some r => some (q, r) | _, _ => none)
      | _, _ => .ok s (w, none)

/-- One step of an accepted `gwalk`, which reads the descriptor anew: stores into it since the last step count, unchecked but for the
queue headers (DESIGN CHOICE, log 15: the spec does not say whether acceptance latches it); `stop` is a request for pre-emption: the walk ends after this step, or before it where the step
has to wait. -/
def State.walkStep (s : State) (g : Nat) (o : OWord) (stop : Bool) : State :=
  match o.kind with
  | .gwalk addr n done dist d brec scope todo =>
    let G := s.group g
    let tid := G.team
    let t := s.team tid
    let base := s.slotBase t G
    let drop := fun (s : State) => (s.forget .swLoad (askWho (2 * o.id + 1) g)).modCore G.core fun k => { k with walks := k.walks.filter fun w => w != (g, o.id) }
    let fault := fun (s : State) (code va info : Nat) =>
      ((drop s).takeBack g o).groupFault g ⟨code, 0, o.held.headD 0, info, o.pc, va, false, o.held, o.next, false, 0⟩
    let finish := fun (s : State) (done dist : Nat) (fin : Bool) =>
      (drop s).complete g o [.s d (BitVec.ofNat 64 (done + 256 * fin.toNat + 65536 * (dist % 65536)))]
    let later := fun (s : State) (done dist : Nat) (keep : List Bound) => s.modGroup g fun G => { G with
      want := [], outst := G.outst.map fun y => if y.id == o.id then { y with kind := .gwalk addr n done dist d brec scope keep } else y }
    let wait := fun (s : State) (ps : List Nat) (keep : List Bound) =>
      if stop then finish s done dist false
      else
        let s := later s done dist keep
        if ps.isEmpty then s else s.starveWait g ps
    match s.walkBring G.core tid base addr with
    | .starve s ps => wait s ps todo
    | .bad s _ va => fault s 0x60 va 0
    | .ok s (_, none) => fault s 0x02 0 0
    | .ok s (w, some (q, rq)) =>
      let e : WalkAt := ⟨w, brec.toNat, tid, g, o.id, o.pc, scope⟩
      match (do let x ← e.step ⟨s, q, rq, [], 0, false, [], todo⟩; pure (x, ← e.commit x)) with
      | .error (.wait s keep) => wait s [] keep
      | .error (.starve s ps keep) => wait s ps keep
      | .error (.fault s code va info) => fault s code va info
      | .ok (x, s) =>
        let done := if x.fin then done else done + 1
        let dist := dist + x.dist
        if x.fin || stop || n ≤ done then finish s done dist x.fin else later s done dist []
  | _ => s

/-- GWALK_STEP: the unit takes the oldest accepted walk, which then stands last (12 R309). `stopAfter` is a request for
pre-emption. -/
def execGwalkStep (core : Nat) (stopAfter : Bool) (s : State) : Outcome State Fault Refusal :=
  event s (match (s.core core).walks with
    | [] => none
    | (g, id) :: rest =>
      match s.word? g id with
      | none => some (s.modCore core fun c => { c with walks := rest })
      | some o =>
        let s : State := s.modCore core fun c => { c with walks := rest ++ [(g, id)] }
        some (s.walkStep g o (stopAfter || !(s.runs g))))

end Sys2Proof.Machine
end

