-- ==== Sys2Proof/Machine/Shoot.lean ====
section
/-! DEFINITION. Shoot.lean: page walks, shoot-downs, access counters, ATS, PRI and invalidations (20 R419-R429). -/

namespace Sys2Proof.Machine

open Host (Outcome)

/-! ## PAGE_WALK (20 R418, R419) -/

/-- Walks of one instruction that have not started. -/
def Die.walksOf (d : Die) (i : Nat × Word) : Nat := (d.pend.filter fun q => q.raisers.contains i).length

/-- The fewest walks that an instruction waiting for this walk has (20 R419: a merged walk is one of each of them). -/
def Die.fewest (d : Die) (p : PendWalk) : Nat := (p.raisers.map d.walksOf).foldl min d.pend.length

/-- The older of two walks. -/
def older (a b : PendWalk) : PendWalk := if b.since < a.since then b else a

/-- The walk that a free unit takes: one pending for 4,096 cycles; else one of an instruction of which a walk has started; else one of the instruction with the fewest walks, ties to the one whose first walk arrived earlier. -/
def Die.nextWalk (d : Die) (clock : Nat) : Option PendWalk :=
  let oldest := fun (l : List PendWalk) => l.foldl (fun b p => match b with | none => some p | some q => some (older q p)) none
  match oldest (d.pend.filter fun p => p.since + 4096 ≤ clock) with
  | some p => some p
  | none =>
    match oldest (d.pend.filter fun p => p.raisers.any d.walking.contains) with
    | some p => some p
    | none => d.pend.foldl (fun b p => match b with
      | none => some p
      | some q => if d.fewest p < d.fewest q || (d.fewest p == d.fewest q && p.since < q.since) then some p else some q) none

/-- A unit walks a page: the leaf fills the TLBs of the cores whose lines wait for it. A failed walk leaves nothing; the instruction
meets its fault when it is looked at again. A walk is one event, so that at most one of the 32 units of 20 R418 is at work at any
moment (log 28). -/
def execPageWalk (die : Bool) (s : State) : Outcome State Fault Refusal :=
  event s (((s.die die).nextWalk s.clock).map fun p =>
    let s : State := s.modDie die fun d =>
      let rest := d.pend.filter (· != p)
      { d with pend := rest, walking := (p.raisers ++ d.walking.filter fun w => !(p.raisers.contains w)).filter fun w => rest.any fun q => q.raisers.contains w }
    match s.walk die p.ten (p.page * 65536) with
    | .ok (leaf, size, es) => p.cores.foldl (fun s c => s.walkFill die c p.ten (p.page * 65536) leaf size es) s
    | .error _ => s)

/-! ## Shoot-downs (20 R420-R422) -/

/-- The fields of a command; none where a reserved value stands. -/
def parseShoot (c : ShootCmd) : Option (Nat × Nat × Nat × Nat) :=
  let n := leNat c.bytes
  let addr := bitsOf n 0 64
  let npg := bitsOf n 64 64
  let op := bitsOf n 160 8
  let top := if op == 0 then 56 else 52
  if c.off != 0 || c.bytes.length != 32 || 1 < op || addr % 65536 != 0 || 2 ^ top ≤ addr || npg == 0 || 2 ^ 40 < npg ||
    bitsOf n 168 88 != 0 then none
  else some (addr, npg, bitsOf n 128 32, op)

/-- Words of a tenancy that may have used an old entry: those with accesses not yet performed. -/
def State.openAccesses (s : State) (p : Nat → Bool) : List (Nat × Nat) :=
  s.groups.zipIdx.flatMap fun ((G, g) : Group × Nat) =>
    if p (s.team G.team).ten then (G.outst.filter fun (o : OWord) => o.isLoad || o.isStore).map fun o => (g, o.id) else []

/-- A kind of sent thing that a translation was used for: an access forwarded to the owner of a page. -/
def SentKind.forwarded : SentKind → Bool
  | .fwdStore | .fwdLoad | .join | .engLoad | .engStore | .swLoad | .swStore => true
  | .send | .put | .get | .atom | .purge => false

/-- Accesses forwarded for tenancies and not acknowledged: those of groups, which may have retired or been discarded since, of engines
and of Sward, the `joinc` that ends a TEAM among them. -/
def State.openForwards (s : State) (p : Nat → Bool) : List Nat :=
  (s.sent.filter fun q => !q.lost && q.got.isNone && q.kind.forwarded && (q.team == noTeam || p (s.team q.team).ten)).map (·.id)

/-- OP 0: TLB, walk-cache and ATS-cache entries of the tenancy that overlap the range. -/
def State.shootLocal (s : State) (ten addr n : Nat) : State :=
  let keep := fun (x : TlbEnt) => !(x.ten == ten && overlaps x.va x.size addr n)
  let pasid := (s.ten ten).pasid
  { s with
    cores := s.cores.map fun c => { c with tlb := c.tlb.filter keep }
    ctlb := s.ctlb.map fun l => l.filter keep
    dies := s.dies.map fun d => { d with
      walkCache := d.walkCache.filter fun x => !(x.ten == ten && overlaps (x.va * 2 ^ lvlLo x.level) (2 ^ lvlLo x.level) addr n)
      ats := d.ats.filter fun x => !(x.pasid == pasid && overlaps x.hva x.size addr n) } }

/-- L1 copies of a range of lines of an owner go. -/
def State.dropCopies (s : State) (own : Owner) (addr n : Nat) : State :=
  let lo := lineKey own addr
  let hi := lineKey own (addr + n - 1)
  let hit := fun (key size : Nat) => overlaps key size (byteKey own addr) n
  { s with cores := s.cores.map fun c => { c with
      l1 := c.l1.filter fun x => !(lo ≤ x.line && x.line ≤ hi)
      asm := c.asm.filter fun x => !(hit x.exp 4 || x.pieces.any fun p => hit p 16) } }

/-- Peers that the route table names. -/
def State.routePeers (s : State) : List Nat :=
  (List.range 256).filter fun p => s.boot.cfg.routes.any fun r => (List.range 64).any fun n => routePeer r n == some p

/-- OP 1: a purge goes to every peer whose dead-peer bit is clear; each is acknowledged like a packet. -/
def State.shootPurge (s : State) (addr npg : Nat) : List Nat × State :=
  (s.routePeers.filter fun p => !(s.isDead p)).foldl (fun (r : List Nat × State) p =>
    let s := r.2
    let q := s.mkSent .purge noTeam noTeam 0 p 0
    (r.1 ++ [s.nextId], ({ s with sent := s.sent ++ [q], nextId := s.nextId + 1 } : State).emit (.purge p addr npg)))
    ([], s.dropCopies .here addr (npg * 65536))

/-- A write to the translation window: the command of operation `want`, or what is dropped and counted. -/
def State.shoot (s : State) (ten want : Nat) (c : ShootCmd) : Option State :=
  if 16 ≤ ten then none
  else match parseShoot c with
  | none => some (s.modTen ten fun t => { t with xDropped := t.xDropped + 1#64 })
  | some (addr, npg, seq, op) =>
    if op != want then none
    else
      let r := if op == 0 then (([] : List Nat), s.shootLocal ten addr (npg * 65536)) else s.shootPurge addr npg
      let whose := fun t => op == 1 || t == ten
      some (r.2.modTen ten fun t => { t with shoots := t.shoots ++ [⟨seq, op, addr, npg, s.openAccesses whose, s.openForwards whose, r.1⟩] })

def execShootdownLocal (ten : Nat) (c : ShootCmd) (s : State) : Outcome State Fault Refusal := event s (s.shoot ten 0 c)
def execShootdownRosPurge (ten : Nat) (c : ShootCmd) (s : State) : Outcome State Fault Refusal := event s (s.shoot ten 1 c)

/-- No word of the list is outstanding, and no forwarded access of the other still awaits its answer. -/
def State.allDone (s : State) (ws : List (Nat × Nat)) (acks : List Nat) : Bool :=
  (ws.all fun w => (s.word? w.1 w.2).isNone) && !(s.sent.any fun q => acks.contains q.id && !q.lost && q.got.isNone)

/-- SHOOTDOWN_COMPLETE: the oldest command of the tenancy. -/
def execShootdownComplete (ten : Nat) (s : State) : Outcome State Fault Refusal :=
  event s (match (s.ten ten).shoots with
    | [] => none
    | c :: rest =>
      if s.allDone c.waits c.acks && !(s.sent.any fun q => c.peers.contains q.id) then
        some (s.modTen ten fun t => { t with shoots := rest, xDone := BitVec.ofNat 64 c.seq })
      else none)

/-- Purges of peers are acknowledged when this device's own accesses that used the entries dropped are performed (20 R422); what those
accesses have cached meanwhile goes then (20 R424). -/
def State.ackPurges (s : State) : State :=
  let ended := s.purges.filter fun p => s.allDone p.waits p.acks
  ended.foldl (fun s p => (s.dropCopies (.peer p.peer) p.addr p.size).emit (.ack p.peer (.done 0#64))) { s with purges := s.purges.filter fun p => !(s.allDone p.waits p.acks) }

/-- ROS_PURGE_RECEIVE: entries whose leaf names the sender with a physical address in the range, and cached copies. -/
def execRosPurgeReceive (peer addr npg : Nat) (s : State) : Outcome State Fault Refusal :=
  let n := npg * 65536
  let keep := fun (x : TlbEnt) => !(leafOwner x.leaf.toNat == Owner.peer peer && overlaps (leafPa x.leaf.toNat) x.size addr n)
  let s1 : State := { s with cores := s.cores.map (fun c => { c with tlb := c.tlb.filter keep }), ctlb := s.ctlb.map fun l => l.filter keep }
  let s2 := s1.dropCopies (.peer peer) addr n
  event s (some ({ s2 with purges := s2.purges ++ [⟨peer, addr, n, s2.openAccesses fun _ => true, s2.openForwards fun _ => true⟩] } : State).ackPurges)

/-! ## Access counters (20 R426) -/

/-- ACCESS_COUNTER_WRITE: COUNT is W1C; all ones frees the counter. -/
def execAccessCounterWrite (die : Bool) (i : Nat) (value : BitVec 16) (s : State) : Outcome State Fault Refusal :=
  let clear := fun (c : Counter) => if c.idx == i then { c with count := (BitVec.ofNat 16 c.count &&& ~~~value).toNat } else c
  event s (some (s.modDie die fun d =>
    { d with counters := if value == 0xFFFF#16 then d.counters.filter (fun c => c.idx != i) else d.counters.map clear }))

/-- MISSED_CLEAR. -/
def execMissedClear (die : Bool) (value : Word) (s : State) : Outcome State Fault Refusal :=
  event s (if value == 0#64 then some (s.modDie die fun d => { d with missed := 0#64 }) else none)

/-! ## ATS and PRI (20 R427, R428) -/

/-- Page requests in flight at most: the host's allocation is a constant of the host (log 28). -/
def priMax : Nat := min 1024 Config.hostPageRequests

/-- Page requests that wait are sent while PRI is enabled and there is room. -/
def State.priSend (s : State) : State :=
  s.atsReqs.foldl (fun (s : State) r =>
    if s.priOn && r.phase == 2 && (s.atsReqs.filter fun q => q.phase == 1).length < priMax then
      ({ s with atsReqs := s.atsReqs.map fun q => if q.id == r.id then { q with phase := 1 } else q } : State).emit
        (.pageRequest r.id r.pasid r.page r.needR r.needW)
    else s) s

def State.dropReq (s : State) (id : Nat) : State := { s with atsReqs := s.atsReqs.filter fun q => q.id != id }
def State.setPhase (s : State) (p : AtsReq → Bool) (n : Nat) : State :=
  { s with atsReqs := s.atsReqs.map fun q => if p q then { q with phase := n } else q }

/-- ATS_COMPLETION: a grant is cached; one without the needed permission starts a page request. -/
def execAtsCompletion (req : Nat) (a : AtsAnswer) (s : State) : Outcome State Fault Refusal :=
  event s ((s.atsReqs.find? fun r => r.id == req && r.phase == 0).map fun r =>
    if (!r.needR || a.r) && (!r.needW || a.w) then
      let size := max a.size 4096
      (s.dropReq req).modDie r.die fun d => { d with
        ats := (⟨r.pasid, r.page * 4096 / size * size, size, a.r, a.w, a.hpa⟩ :: d.ats).take 2048 }
    else (s.setPhase (fun q => q.id == req) 2).priSend)

/-- PRI_RESPONSE. -/
def execPriResponse (prg : Nat) (code : PriCode) (s : State) : Outcome State Fault Refusal :=
  event s ((s.atsReqs.find? fun r => r.id == prg && r.phase == 1).map fun _ =>
    match code with
    | .success => (s.dropReq prg).priSend
    | .invalidRequest => (s.setPhase (fun q => q.id == prg) 4).priSend
    | .responseFailure => { s.setPhase (fun q => q.phase == 1 || q.phase == 2) 4 with priOn := false })

/-- PRI_ENABLE. -/
def execPriEnable (s : State) : Outcome State Fault Refusal := event s (some ({ s with priOn := true } : State).priSend)

/-! ## Invalidations (20 R429) -/

/-- INVALIDATE_REQUEST: matching entries go at once. -/
def execInvalidateRequest (pasid addr size : Nat) (s : State) : Outcome State Fault Refusal :=
  let s1 : State := { s with dies := s.dies.map fun d => { d with
    ats := d.ats.filter fun x => !(x.pasid == pasid && overlaps x.hva x.size addr size) } }
  event s (some { s1 with invals := s1.invals ++ [⟨pasid, addr, size, s1.openAccesses (fun t => (s1.ten t).pasid == pasid), s1.openForwards fun t => (s1.ten t).pasid == pasid⟩] })

/-- INVALIDATE_COMPLETION of the `k`-th request in hand. -/
def execInvalidateCompletion (k : Nat) (s : State) : Outcome State Fault Refusal :=
  event s ((s.invals[k]?).bind fun v =>
    if s.allDone v.waits v.acks then some (({ s with invals := s.invals.eraseIdx k } : State).emit (.invalidateDone v.pasid v.addr v.size)) else none)

end Sys2Proof.Machine
end

