-- ==== Sys2Proof/Machine/Privileged.lean ====
section
/-! DEFINITION. Privileged.lean: the control registers and their accesses (18 R380-R394), `csrrd`, `csrwr`, `sret`, `stbinv`,
`spmap`, `spunmap` (18 R393-R395; 20 R439-R441), and the host's answers to faults (21 R446). -/

namespace Sys2Proof.Machine

open Host (Outcome)

/-! ## The registers (18 R381) -/

inductive Csr where
  | tncfg (t w : Nat)
  | tnstat (t : Nat)
  | thallow (core : Nat)
  | deadpeer (k : Nat)
  | srcto
  | csrviol
  deriving DecidableEq, Repr

/-- The register of a number; none where it is unassigned. -/
def csrOf (n : Nat) : Option Csr :=
  if 0x100 ≤ n && n < 0x200 then some (.tncfg ((n - 0x100) / 16) ((n - 0x100) % 16))
  else if 0x200 ≤ n && n < 0x210 then some (.tnstat (n - 0x200))
  else if 0x400 ≤ n && n < 0x500 then some (.thallow (n - 0x400))
  else if 0x600 ≤ n && n < 0x604 then some (.deadpeer (n - 0x600))
  else if n == 0x604 then some .srcto
  else if n == 0x605 then some .csrviol
  else none

/-- Who writes: a group or the host at S, or the MC. -/
inductive Level where
  | s | m
  deriving DecidableEq, Repr

/-- Bits of word `w` of a tenancy record that are not reserved, FROZ apart (18 R382). -/
def tncfgMask (w : Nat) : Nat :=
  if w = 0 then 0xE000FFFFFFFF1FFF
  else if w = 1 then 0xFFFFFFFFF
  else if w = 4 then 0xFFFFFFFFFF00F
  else if w = 8 then 0xFFFFF000
  else if w = 9 then 0xFFFFFFFFFF
  else if w < 8 then 0xFFFFFFFFFF000
  else 0

/-- Bits of word `w` that are read-only while EN = 1 (18 R383). -/
def tncfgFixed (w : Nat) : Nat := if w = 0 then 0x6000000000000000 else tncfgMask w

/-- Work of a tenancy that is queued: a record with a team that has not started, or that waits to resume. -/
def State.queuedWork (s : State) (ten : Nat) : Bool :=
  !((s.ten ten).joinWait.isEmpty) || s.launches.any fun l => l.ten == ten && !l.completed && l.abort.isNone &&
    (l.started.length < l.crec.teams || l.started.any fun t => (s.team t).life == .saved)

/-- Resident teams of a tenancy (18 R388). -/
def State.residents (s : State) (ten : Nat) : Nat := (s.teams.filter fun t => t.ten == ten && t.life.resident).length

def State.quiesced (s : State) (ten : Nat) : Bool := !(s.ten ten).en && s.residents ten == 0 && !s.queuedWork ten

/-- The value a register reads as; a secure tenancy's TNCFG shows a non-secure agent EN and WORLD only (18 R381). -/
def State.csrRead (s : State) (secure : Bool) : Csr → Word
  | .tncfg t w =>
    let v := (s.ten t).cfg.getD w 0#64
    if (s.ten t).secure && !secure then (if w = 0 then v &&& 0xC000000000000000#64 else 0#64) else v
  | .tnstat t => BitVec.ofNat 64 (s.residents t % 65536 * 2 ^ 32 + (s.quiesced t).toNat * 2 ^ 31 + s.leased t % 8192)
  | .thallow c => BitVec.ofNat 64 ((s.core c).temp.toNat * 2 ^ 32 + (s.core c).floor.toNat * 2 ^ 16 + (s.core c).allow.toNat)
  | .deadpeer k => s.deadpeer.getD k 0#64
  | .srcto => s.srcto.setWidth 64
  | .csrviol => s.csrviol.setWidth 64

/-- Count an access that is dropped or left without effect (18 R392). -/
def State.violation (s : State) : State := { s with csrviol := BitVec.ofNat 32 (min (s.csrviol.toNat + 1) 0xFFFFFFFF) }

/-- What becomes of a write. -/
inductive CsrWrite where
  | done (s : State)
  | priv
  | refused

/-- The value a write leaves in a word of TNCFG: reserved bits stay 0, FROZ is W1C, and while EN = 1 fixed fields stay. -/
def tncfgNew (w : Nat) (old value : Word) (en : Bool) : Word :=
  let keep := if en then BitVec.ofNat 64 (tncfgFixed w) else 0#64
  let froz := if w = 0 then old &&& ~~~value &&& 0x1000000000000000#64 else 0#64
  (value &&& BitVec.ofNat 64 (tncfgMask w) &&& ~~~keep) ||| (old &&& keep) ||| froz

/-- The conditions of 18 R383 on a record that is enabled. -/
def State.tncfgBad (s : State) (t : Nat) (T : Tenancy) : Bool :=
  T.fqlog < 6 || 15 < T.fqlog || 4096 < T.lquota || 4096 < T.chtn ||
  (List.range s.tens.length).any fun u => u != t && (s.ten u).en && (s.ten u).lwoff == T.lwoff

/-- NSLOT and SLOTSZ are read when EN goes from 0 to 1 of a tenancy that is quiescent (21 R448); where their line is refused (21 R454)
they read as 0, so that no team of the tenancy is ever resident (DESIGN CHOICE, log 25). -/
def State.readSlots (s : State) (T : Tenancy) : Tenancy :=
  if s.listed T.ctxbase 8 then { T with nslot := 0, slotsz := 0 }
  else { T with nslot := s.rdMem T.ctxbase 4, slotsz := s.rdMem (T.ctxbase + 4) 4 }

/-- A write of a word of TNCFG (18 R381-R384). -/
def State.tncfgWrite (s : State) (lv : Level) (t w : Nat) (value : Word) : CsrWrite :=
  let T := s.ten t
  let old := T.cfg.getD w 0#64
  if lv == .s && (T.secure || (w == 0 && (old ^^^ value).getLsbD 62)) then .priv
  else
    let new := tncfgNew w old value T.en
    let T1 : Tenancy := { T with cfg := modAt T.cfg w fun _ => new }
    if (T1.en || T.en) && s.tncfgBad t T1 then .refused
    else
      let T2 := if T1.en && s.quiesced t then s.readSlots T1 else T1
      let s0 : State := s.modTen t fun _ => T2
      let s1 := if T2.hbmw == T.hbmw then s0 else s0.retag t
      let lost := T.en && (old ^^^ value) &&& BitVec.ofNat 64 (tncfgFixed w) != 0#64
      .done (if lost then s1.violation else s1)

/-- What is kept of an access that a peer never acknowledged goes when software clears the peer's bit: a store of a word that is over,
which releases fail on until then (log 5), and a line that is asked for anew. -/
def State.forgiven (s : State) (peer : Nat) (q : Sent) : Bool :=
  q.lost && q.peer == peer && (q.kind == .swLoad || ((q.kind == .fwdStore || q.kind == .fwdLoad) && (s.word? q.g q.word).isNone))

/-- Writing 1 clears a dead-peer bit; a peer without a LIVE lane has its 20 µs begin again (18 R390). -/
def State.deadClear (s : State) (k : Nat) (value : Word) : State :=
  let cleared := (List.range 64).filter fun i => value.getLsbD i && (s.deadpeer.getD k 0#64).getLsbD i
  let s : State := { s with deadpeer := modAt s.deadpeer k fun d => d &&& ~~~value }
  let s : State := { s with sent := s.sent.filter fun q => !(cleared.any fun i => s.forgiven (64 * k + i) q) }
  cleared.foldl (fun (s : State) i => if (s.liveTo (64 * k + i)).isEmpty then
    s.modPeer (64 * k + i) fun p => { p with darkSince := some s.clock } else s) s

/-- A write of a control register (18 R381, R389-R392). -/
def State.csrWrite (s : State) (lv : Level) (value : Word) : Csr → CsrWrite
  | .tncfg t w => s.tncfgWrite lv t w value
  | .tnstat _ => .priv
  | .thallow c => .done (s.modCore c fun k => { k with floor := BitVec.ofNat 8 (bitsOf value.toNat 16 8) })
  | .deadpeer k => .done (s.deadClear k value)
  | .srcto =>
    if lv == .s then .priv
    else if bitsOf value.toNat 0 16 < 2 || 1000 < bitsOf value.toNat 0 16 then .refused
    else .done { s with srcto := value.setWidth 16 }
  | .csrviol => .done { s with csrviol := value.setWidth 32 }

/-! ## csrrd, csrwr (18 R393, R394) -/

def csrNum (f : F64) : Nat := f.b.toNat * 128 + f.c.toNat

def execCsrrd (c : Ctl) (f : F64) (s : State) : Outcome State Fault Refusal :=
  groupWide (.csrrd c f) c s fun x =>
    match csrOf (csrNum f) with
    | none => .trap x.s 0x02 0 0 0
    | some r =>
      if !x.G.clear then .stall x.s .other true
      else x.releasedAll 6 (.out x.s { x.oword [.s f.d.toNat] (.land [.s f.d.toNat (x.s.csrRead (x.s.ten x.ten).secure r)]) with acq := 6 })

def execCsrwr (c : Ctl) (f : F64) (s : State) : Outcome State Fault Refusal :=
  groupWide (.csrwr c f) c s fun x =>
    let low : Nat := 0
    match csrOf (csrNum f) with
    | none => .trap x.s 0x02 low 0 0
    | some r =>
      match x.s.csrWrite .s (x.sreg f.a) r with
      | .priv => .trap x.s 0x05 low 0 0
      | .refused => .trap x.s 0x02 low 0 0
      | .done s' =>
        if !x.G.clear then .stall x.s .other true
        else x.releasedAll 6 (.go (s'.l1Acquire x.G.core 6))

/-! ## Accesses of the host and of the MC -/

/-- A write that is refused is dropped and counted; a SRCTO out of range is only left unchanged (18 R391, R392). -/
def State.outerWrite (s : State) (who : Agent) (r : Csr) (value : Word) : State :=
  match s.csrWrite (if who == .mc then .m else .s) value r with
  | .done s => s
  | .priv => s.violation
  | .refused => if r == .srcto then s else s.violation

/-- The number that an access names: 8 bytes, naturally aligned (18 R380). -/
def csrAt (off size : Nat) : Option Csr := if size == 8 && off % 8 == 0 then csrOf (off / 8) else none

/-- CSR_WRITE at byte offset `off` of BAR0, or of the MC's port. -/
def execCsrWrite (who : Agent) (off size : Nat) (value : Word) (s : State) : Outcome State Fault Refusal :=
  event s (some (match csrAt off size with
    | some r => s.outerWrite who r value
    | none => s.violation))

def execTncfgWrite (who : Agent) (ten w : Nat) (value : Word) (s : State) : Outcome State Fault Refusal :=
  event s (if ten < 16 && w < 16 then some (s.outerWrite who (.tncfg ten w) value) else none)

def execDeadpeerClear (who : Agent) (k : Nat) (value : Word) (s : State) : Outcome State Fault Refusal :=
  event s (if k < 4 then some (s.outerWrite who (.deadpeer k) value) else none)

/-- What a read of a register gives an agent of a world, all ones where it names none, and the state after it. -/
def State.csrFor (s : State) (secure : Bool) (off size : Nat) : State × Word :=
  match csrAt off size with
  | some r => (s, s.csrRead secure r)
  | none => (s.violation, -1#64)

/-- CSR_HOST_READ: the host is non-secure (18 R377, R380). -/
def execCsrHostRead (off size : Nat) (s : State) : Outcome State Fault Refusal :=
  let r := s.csrFor false off size
  event s (some (r.1.emit (.hostReturn r.2)))

/-- A read of the MC through its own port; the MC is secure (18 R377, R380). -/
def State.mcRead (s : State) (off size : Nat) : State :=
  let r := s.csrFor true off size
  r.1.emit (.mcReturn r.2)

/-! ## sret and the fault window (18 R395, 21 R446) -/

def execSret (c : Ctl) (f : F64) (s : State) : Outcome State Fault Refusal :=
  groupWide (.sret c f) c s fun x =>
    let low : Nat := 0
    let va := (x.sreg f.a).toNat
    let action := (x.sreg f.b).toNat
    let fq := (x.s.ten x.ten).fqbase
    if 2 < action then .trap x.s 0x02 low 0 0
    else if 2 ^ 56 ≤ va then .trap x.s 0x02 low 0 0
    else match x.s.xlateAll x.g x.G x.ten x.pc .load [(low, va)] with
      -- no line that the group may read: no record of the fault queue (log 29)
      | .fault s _ _ _ _ => .trap s 0x02 low 0 0
      | .wait s w => .stall s w true
      | .ok [] => .go x.s
      | .ok (l :: _) =>
        let seq := x.s.rdMem l.pa 8
        if l.own == .here && s.poisoned l.pa then .trap x.s 0x60 low va 0
        else if l.own != .here || l.pa < fq || fq + 64 * 2 ^ (x.s.ten x.ten).fqlog ≤ l.pa || l.pa % 64 != 0 || seq == 0 then
          .trap x.s 0x02 low 0 0
        else x.released 4 (.go (x.s.answer x.ten seq action))

/-- FAULT_ANSWER_WRITE; a SEQ whose record's line is refused counts as not in the ring (DESIGN CHOICE, log 25). -/
def execFaultAnswerWrite (ten off : Nat) (bytes : List Byte) (s : State) : Outcome State Fault Refusal :=
  let n := leNat bytes
  let seq := bitsOf n 0 64
  let ok := off == 0 && bytes.length == 16 && bitsOf n 64 8 ≤ 2 && bitsOf n 72 56 == 0 && seq != 0 &&
    !(s.poisoned (s.fqSlot ten seq)) && s.rdMem (s.fqSlot ten seq) 8 == seq
  event s (if 16 ≤ ten then none
    else some (if ok then s.answer ten seq (bitsOf n 64 8)
      else s.modTen ten fun t => { t with fqDropped := t.fqDropped + 1#64 }))

/-! ## stbinv, spmap, spunmap (20 R439-R441) -/

/-- An address of the team space, which must hold `n` bytes from it. -/
def Ctx.teamAddr (x : Ctx) (a n : Nat) (k : Res) : Res :=
  if x.s.spaceLen x.team < a + n then .trap x.s 0x20 0 a 0 else x.released 4 k

/-- The STB entries of a team's pages go, in every core of its cluster. -/
def State.stbDrop (s : State) (tid : Nat) (pages : List Nat) : State :=
  let cl := (s.team tid).cluster
  { s with cores := s.cores.zipIdx.map fun (c, i) =>
      if clusterOf i == cl then { c with stb := c.stb.filter fun e => !(e.team == tid && pages.contains e.page) } else c }

def execStbinv (c : Ctl) (f : F64) (s : State) : Outcome State Fault Refusal :=
  groupWide (.stbinv c f) c s fun x =>
    let a := (x.sreg f.a).toNat
    let n := (x.sreg f.b).toNat
    x.teamAddr a n (.go (x.s.stbDrop x.tid (pagesOf a n)))

/-- The new entry and header of a page that `spmap` maps (20 R440). -/
def State.remap (s : State) (tid page back : Nat) (hdr : Option Nat) : State :=
  let s : State := match s.frameOf tid page with
    | some f => s.dropFrame f false
    | none => s
  let s : State := s.l0Mod tid page fun e => setBits (setBits (setBits (setBits e 12 40 (back / 4096)) 2 1 1) 1 1 0) 4 1 0
  match hdr with
  | some h => s.wrMem (s.hdrAddr (s.team tid) page) 32 h
  | none => s

def execSpmap (c : Ctl) (f : F64) (s : State) : Outcome State Fault Refusal :=
  groupWide (.spmap c f) c s fun x =>
    let a := (x.sreg f.a).toNat
    let b := (x.sreg f.b).toNat
    let hdr := if f.mod.toNat == 1 then some (2 ^ 256 - 1) else if f.mod.toNat == 2 then some 0 else none
    if b % 4096 != 0 || 2 ^ 52 ≤ b then .trap x.s 0x02 0 0 0
    else x.teamAddr a 1 (.go (x.s.remap x.tid (a / 4096) b hdr))

def execSpunmap (c : Ctl) (f : F64) (s : State) : Outcome State Fault Refusal :=
  groupWide (.spunmap c f) c s fun x =>
    let a := (x.sreg f.a).toNat
    let page := a / 4096
    let s := x.s.l0Mod x.tid page fun e => setBits e 3 1 0
    x.teamAddr a 1 (.go (match s.frameOf x.tid page with
      | some fr => s.dropFrame fr true
      | none => s))

end Sys2Proof.Machine
end

