-- ==== Sys2Proof/Machine/Windows.lean ====
section
/-! DEFINITION. Windows.lean: what the host reads at the BARs (18 R380; 19 R399; 20 R420, R426; 21 R446, R455; 22 R461; 23
R476). -/

namespace Sys2Proof.Machine

/-- The launch window at a BAR2 offset. -/
def State.readBar2 (s : State) (off : Nat) : Nat :=
  match s.windowOwner (off / 4096) with
  | none => 0
  | some t => if off % 4096 == 0 then (s.ten t).winAccepted.toNat else if off % 4096 == 8 then (s.ten t).winDropped.toNat else 0

/-- The translation window of a tenancy. -/
def State.readShootWin (s : State) (t r : Nat) : Nat :=
  if r == 0x800 then (s.ten t).xDone.toNat else if r == 0x808 then (s.ten t).xDropped.toNat else 0

/-- Access counter `i` of a die: 128 bits. -/
def State.readCounter (s : State) (d : Bool) (i : Nat) : Nat :=
  match (s.die d).counters.find? fun c => c.idx == i with
  | some c => bitsOf c.frame 0 36 * 2 ^ 92 + c.src % 256 * 2 ^ 84 + 2 ^ 16 + c.count % 65536
  | none => 0

/-- The fault window of a tenancy. -/
def State.readFaultWin (s : State) (t r : Nat) : Nat :=
  if r == 0x800 then (s.ten t).fqNext else if r == 0x808 then (s.ten t).fqLost.toNat
  else if r == 0x810 then (s.ten t).fqDropped.toNat else 0

/-- The error block of a die. -/
def State.readErr (s : State) (d : Bool) (r : Nat) : Nat :=
  if r % 8 != 0 then 0
  else if 0x200 ≤ r then
    match (s.die d).poison.find? fun e => e.1 == (r - 0x200) / 8 with
    | some e => 2 ^ 63 + e.2 * 128
    | none => 0
  else ((s.die d).errs.getD (r / 8) 0#64).toNat

/-- A stack's status register (22 R461). -/
def Stack.status (x : Stack) : Nat :=
  x.offl.toNat * 2 ^ 32 + x.owner.toNat * 2 ^ 23 + x.refx2.toNat * 2 ^ 22 + x.trnd.toNat * 2 ^ 21 + x.temp.toNat

/-- BUSTAT (23 R476). -/
def Boot.status (b : Boot) : Nat :=
  b.failc * 2 ^ 24 + b.hbmf.toNat * 2 ^ 12 + b.rpt.toNat * 2 ^ 11 + b.rcv.toNat * 2 ^ 10 + b.hold.toNat * 2 ^ 9 +
  (b.step == 7).toNat * 2 ^ 8 + b.step % 8

/-- BAR4: windows, counters, error blocks, stacks and the mailbox. The registers of the windows and BUSTAT are read by 8 bytes. -/
def State.readBar4 (s : State) (off size : Nat) : Nat :=
  let eight := fun (n : Nat) => if size == 8 then n else 0
  if off < 0x10000 then eight (s.readShootWin (off / 4096) (off % 4096))
  else if off < 0x30000 then
    let i := (off - 0x10000) / 16
    bitsOf (s.readCounter (4096 ≤ i) (i % 4096)) (off % 16 / 8 * 64) 64
  else if off == 0x30000 then (s.die false).missed.toNat
  else if off == 0x30008 then (s.die true).missed.toNat
  else if 0x40000 ≤ off && off < 0x50000 then eight (s.readFaultWin ((off - 0x40000) / 4096) (off % 4096))
  else if 0x50000 ≤ off && off < 0x50800 then s.readErr (0x50400 ≤ off) (off % 0x400)
  else if 0x60000 ≤ off && off < 0x60300 && off % 64 == 0 then (s.stack ((off - 0x60000) / 64)).status
  else if off == 0x70000 then eight s.boot.status
  else if 0x70200 ≤ off && off < 0x70500 && s.boot.rpt then leNat ((s.boot.report.drop (off - 0x70200)).take size)
  else 0

/-- A read of the host; an access of the wrong size or alignment at BAR0 counts (18 R380). While bring-up holds, only the mailbox
answers (23 R471); any other read returns all ones (PRESUMED, log 32: PCIe's answer to an access that nothing serves). -/
def State.hostRead (s : State) (bar off size : Nat) : State :=
  if s.boot.hold && !(bar == 4 && 0x70000 ≤ off) then s.emit (.hostReturn (-1#64))
  else if bar == 0 then let r := s.csrFor false off size; r.1.emit (.hostReturn r.2)
  else s.emit (.hostReturn (BitVec.ofNat 64 (if bar == 2 then s.readBar2 off else if bar == 4 then s.readBar4 off size else 0)))

end Sys2Proof.Machine
end

