-- ==== Sys2Proof/Machine/Policy.lean ====
section
/-! DEFINITION. Policy.lean: what the step does around `exec`: the choice of the next fragment (01 R22-R24, 22 R468),
the fetch, and the passing of a cycle (log 3, 6). -/

namespace Sys2Proof.Machine

open Host (Outcome)

/-- What follows from the state alone at the end of a step: fault records that wait are written where their slot has become
free, accesses that were held back leave for their peers, stops whose groups have drained end, those of groups of halted teams among
them, teams finish,
records that groups handed over are taken, and purges are acknowledged. -/
def settleAll (s : State) : State :=
  let s : State := (List.range s.tens.length).foldl (fun (s : State) t => if (s.ten t).fqWait.isEmpty then s else s.fqFlush t) s
  let s : State := (List.range s.tens.length).foldl (fun (s : State) t => if (s.ten t).joinWait.isEmpty then s else s.takeJoin t) s
  let s : State := ((List.range s.teams.length).foldl (fun (s : State) t => s.closeFences t) s).finishTeams
  (List.range s.groups.length).foldl (fun (s : State) g =>
    let s : State := s.sendHeld g
    match (s.group g).stage with
    | .stopping => s.finishStop g
    | .running => s.haltStop g
    | _ => s) s.ackPurges

/-- The end of a step: one cycle passes, and nothing is issuing. -/
def tick (s : State) : State :=
  let s : State := (settleAll s).noteBase
  { s with clock := s.clock + 1, cur := none, groups := s.groups.map fun G => { G with blocked := [] } }

/-- The issues of a core in the 255 cycles before this one. -/
def State.recentIssues (s : State) (core : Nat) : List Nat := (s.core core).gate.filter fun t => s.clock < t + 256

/-- A core may issue in this cycle (22 R468: in at most ALLOW + 1 of every 256 cycles, wherever they begin). -/
def State.gateOpen (s : State) (core : Nat) : Bool := decide ((s.recentIssues core).length ≤ (s.core core).allow.toNat)

def State.gateCount (s : State) (core : Nat) : State := s.modCore core fun c => { c with gate := s.clock :: s.recentIssues core }

/-- Fragment `f` issued before `h` did; the one with the lower lane counts as the later among equals. -/
def issuedBefore (f h : Word × List Nat × Nat) : Bool :=
  f.2.2 < h.2.2 || (f.2.2 == h.2.2 && h.2.1.headD 0 < f.2.1.headD 0)

/-- Two fragments of a group that never issue together (01 R23). -/
def rivals (f h : Word × List Nat × Nat) : Bool := f.1 != h.1 && slicesMeet f.2.1 h.2.1

/-- The fragment keeps issuing while it is ready (01 R23): a lane of it has kept the stickiness of its last issue. -/
def Group.isSticky (G : Group) (h : Word × List Nat × Nat) : Bool := h.2.1.any G.sticky.contains

/-- The fragment `f` gives way to `h`: they share a slice and `h` is sticky, and issued later where both are. -/
def Group.givesWay (G : Group) (f h : Word × List Nat × Nat) : Bool :=
  rivals f h && G.isSticky h && (!(G.isSticky f) || issuedBefore f h)

/-- The fragment a group would issue next among those not found unready in this cycle (01 R21-R24, 06 R156): the suspended word;
a rival of the fragment whose stickiness has ended; else one that gives way to none of them. Among several, the one that has waited
longest. -/
def Group.choice (G : Group) : Option Word :=
  if G.outst.any OWord.suspends then none else
  let all := G.fragments
  let fs := all.filter fun f => !(G.blocked.contains f.1)
  match G.suspend with
  | some (p, _) => if fs.any fun f => f.1 == p then some p else none
  | none =>
    let due := fs.filter fun f => all.any fun h => h.2.1.any G.forced.contains && rivals f h
    longestOf (if due.isEmpty then fs.filter fun f => !(fs.any fun h => G.givesWay f h) else due)

/-- The issue class of a group (01 R22). -/
def State.issueClass (s : State) (g : Nat) (G : Group) : Nat :=
  if (s.core G.core).token.getD G.quarter none == some g then 0 else if G.promoted then 1 else 2

/-- When a quarter of a core last issued. -/
def State.quarterLast (s : State) (core quarter : Nat) : Nat :=
  s.groups.foldl (fun m G => if G.core == core && G.quarter == quarter then max m G.lastIssue else m) 0

/-- Lists of numbers of one length in lexical order. -/
def lexBelow : List Nat → List Nat → Bool
  | x :: xs, y :: ys => x < y || (x == y && lexBelow xs ys)
  | _, _ => false

/-- The place of a group in the order of issue: the quarter that issued longest ago goes first (log 6, 37); inside it the class,
then the group that has gone longest without issuing (01 R22, R44). -/
def State.issueRank (s : State) (g : Nat) (G : Group) : List Nat :=
  [s.quarterLast G.core G.quarter, 4 * G.core + G.quarter, s.issueClass g G, G.lastIssue]

/-- A group's fragments are looked at in this cycle: it runs, or its team is to be pre-empted or halted and it has a transfer to send (14 R339);
its STALL has run out, and its core is not gated. -/
def State.looksAt (s : State) (g : Nat) : Bool :=
  let G := s.group g
  (s.runs g || (G.stage == .running && ((s.team G.team).life == .stopping || (s.team G.team).life == .halted) && G.paid.isSome)) && decide (G.readyAt ≤ s.clock) && s.gateOpen G.core

/-- The fragment that issues next, among those not found unready in this cycle. Of groups of one class that last issued (or
started) at the same clock, the one first in the list of groups goes first (DESIGN CHOICE, log 37). -/
def State.pick (s : State) : Option (Nat × Word) :=
  let cands := s.groups.zipIdx.filterMap fun (G, g) =>
    if s.looksAt g then G.choice.map fun p => (g, p, s.issueRank g G) else none
  (cands.foldl (fun b c => match b with
    | none => some c
    | some d => if lexBelow c.2.2 d.2.2 then some c else some d) none).map fun c => (c.1, c.2.1)

/-- A word that cannot be decoded, fetched or reached: the fault of rows 1 to 5 (06 R172) or of the fetch (07 R185). The
next word after one of unknown length is not stated: the free value (log 12). -/
def fetchTrap (s : State) (g : Nat) (pc : Word) (code va : Nat) (size : Option Nat) : State :=
  let frag := (s.group g).fragment pc
  let (next, s) := match size with
    | some n => (nextPc pc n, s)
    | none => s.draw
  s.groupFault g ⟨code, 0, if va = 0 then 0 else frag.headD 0, 0, pc, va, false, frag, next, false, 0⟩

/-- The fragment at `pc` of group `g` issues: its word is fetched and executed. -/
def issueAt (ex : Instr → State → Outcome State Fault Refusal) (g : Nat) (pc : Word) (s : State) : Outcome State Fault Refusal :=
  let G := s.group g
  match s.fetch g pc with
  | .wait s' w => .next (stallAt g G pc w true s')
  | .trap s' code va size => .next (fetchTrap s' g pc code va size)
  | .word i => ex i ({ s with cur := some (g, pc) } : State)

/-- A store of the host over PCIe to memory of the device. The host is non-secure: at a secure region it has no effect (18 R377,
R378); nor has it while bring-up holds (23 R471). -/
def hostStore (s : State) (pa : Nat) (bs : List Byte) : State :=
  if s.boot.hold || s.inSecure pa bs.length then s else s.homeWrite .here pa bs

/-- Events that reach the device neither through PCIe configuration space nor through the management mailbox: accesses of the host at
its windows and registers, and what comes over the lanes and the front ports. None reaches it while bring-up holds (23 R471). -/
def outer : Instr → Bool
  | .tncfgWrite who _ _ _ | .deadpeerClear who _ _ | .csrWrite who _ _ _ => who == .host
  | .launchWindowWrite _ _ _ | .faultAnswerWrite _ _ _ | .poisonEntryClear _ _ _ | .errorCounterClear _ _ _ | .shootdownLocal _ _
  | .shootdownRosPurge _ _ | .accessCounterWrite _ _ _ | .missedClear _ _ | .csrHostRead _ _ | .invalidateRequest _ _ _
  | .packetArrival _ | .fabricRequestArrival _ | .forwardedAccessArrival _ | .rosPurgeReceive _ _ _ | .launchDatagram _ => true
  | _ => false

/-- What such an event finds then: a read returns all ones (PRESUMED, log 32). -/
def heldOff (s : State) : Instr → State
  | .csrHostRead off size => s.hostRead 0 off size
  | _ => s

/-- The fragment at `pc` of a group may be looked at for issue now. -/
def State.mayIssue (s : State) (g : Nat) (pc : Word) : Bool :=
  let G := s.group g
  s.looksAt g && !(G.outst.any OWord.suspends) && !(G.fragment pc).isEmpty &&
  (match G.suspend with | some (p, _) => p == pc | none => true)

/-! ## What an issue leaves behind (01 R22, R24) -/

/-- The fragment was found unready: nothing has issued. -/
def State.unready (s : State) (g : Nat) (pc : Word) : Bool := (s.group g).blocked.contains pc

/-- The fragment at `pc` of group `g` is ready: its word would issue. -/
def State.wouldIssue (ex : Instr → State → Outcome State Fault Refusal) (s : State) (g : Nat) (pc : Word) : Bool :=
  s.mayIssue g pc && !(s.unready g pc) && (match issueAt ex g pc s with | .next s' => !(s'.unready g pc) | _ => true)

/-- A rival of the fragment at `pc` is ready and waits (01 R24). -/
def State.rivalWaits (ex : Instr → State → Outcome State Fault Refusal) (s : State) (g : Nat) (pc : Word) : Bool :=
  let fs := (s.group g).fragments
  fs.any fun h => h.1 == pc && fs.any fun f => rivals f h && s.wouldIssue ex g f.1

/-- Group `g` has issued in state `s0`; a group that could have issued and was not chosen has been ready since now or earlier. -/
def State.noteReady (ex : Instr → State → Outcome State Fault Refusal) (s0 : State) (g : Nat) (s : State) : State :=
  { s with groups := s.groups.zipIdx.map fun (G, h) =>
      if h == g then G
      else if (s0.group h).fragments.any fun f => s0.wouldIssue ex h f.1 then { G with readySince := some (G.readySince.getD s.clock) }
      else { G with readySince := none } }

/-- The bookkeeping of a cycle in which the fragment at `pc` of group `g`, looked at in state `s0`, left `s`: the gating of its
core (22 R468), its fairness timer (01 R24) and the groups that wait (01 R22). A word that took a fault has not issued. -/
def afterIssue (ex : Instr → State → Outcome State Fault Refusal) (s0 : State) (g : Nat) (pc : Word) (s : State) : State :=
  if (s.group g).seq == (s0.group g).seq then s
  else
    let s : State := s.gateCount (s0.group g).core
    let s : State := if s0.rivalWaits ex g pc then s.modGroup g fun G => { G with fairness := G.fairness + 1 } else s
    s0.noteReady ex g s

/-- Fragments that a cycle can look at. -/
def State.fragmentCount (s : State) : Nat := s.groups.foldl (fun n G => n + G.gw) 0

/-! ## Internal events (log 3) -/

/-- The events that the model itself brings about. -/
inductive Chore where
  | fairnessTimerExpiry (g : Nat)
  | issueStarvationPromotion (g : Nat)
  | meetingRelease (g : Nat) (mt : Word)
  | meetwRelease (g : Nat)
  | stuckGroupRelease (g : Nat)
  | refillAttempt (g : Nat)
  | groupRetire (g : Nat)
  | loadDataLand (g word : Nat) (outside : List Byte)
  | storeAck (g word : Nat)
  | multiplyPipePerform (core : Nat) (residueOk : Bool)
  | accPortPerform (core : Nat) (parityOk : Bool)
  | drainGranuleLand (core k : Nat)
  | pageFill (team page : Nat)
  | spadStarvedTimeout (g : Nat)
  | feLaneAttempt (g word : Nat)
  | feWaitSatisfy (g word : Nat)
  | barWaitRelease (g word : Nat)
  | tokwaitTake (g word : Nat)
  | qwaitSatisfy (g word : Nat)
  | pcopyPerform (team q : Nat)
  | pcopyRfPerform (team q : Nat)
  | pstorePerform (team q : Nat)
  | pfillPerform (team q : Nat)
  | pxformRoutineRun (team q : Nat)
  | qmarkPerform (team q : Nat)
  | gwalkStep (core : Nat) (stopAfter : Bool)
  | sourceTimeout (id : Nat)
  | fecLockLossTimeout (peer : Nat)
  | arrwaitSatisfy (g word : Nat)
  | arrwaitTimeout (g word : Nat)
  | leaseLanesLive (team lease : Nat)
  | leaseExpiry (team lease : Nat)
  | laneReclaim (peer : Nat)
  | laneRetuneDone (lane : Nat)
  | tuningTimeout (lane : Nat)
  | laneRelockAttempt (lane : Nat) (locked : Bool)
  | flitRetransmit (k : Nat)
  | admissionDecision (cluster : Nat)
  | preemptBand (ten band : Nat)
  | preemptProgress (team : Nat)
  | preemptThermal (core : Nat)
  | teamSaved (team : Nat)
  | launchCompletion (launch : Nat)
  | shootdownComplete (ten : Nat)
  | baseLaneDeadTimeout (peer : Nat)
  | pageWalk (die : Bool)
  | invalidateCompletion (k : Nat)
  | thermalPowerDown
  | hbmTrainingDone
  | opticalCalibrationDone
  | reportReady (dbg : Bool)
  | registerCacheFill (g line : Nat)
  deriving DecidableEq, Repr

/-- Each is the event of that name. -/
def Chore.run (s : State) : Chore → Outcome State Fault Refusal
  | .fairnessTimerExpiry g => execFairnessTimerExpiry g s
  | .issueStarvationPromotion g => execIssueStarvationPromotion g s
  | .meetingRelease g mt => execMeetingRelease g mt s
  | .meetwRelease g => execMeetwRelease g s
  | .stuckGroupRelease g => execStuckGroupRelease g s
  | .refillAttempt g => execRefillAttempt g s
  | .groupRetire g => execGroupRetire g s
  | .loadDataLand g word outside => execLoadDataLand g word outside s
  | .storeAck g word => execStoreAck g word s
  | .multiplyPipePerform core residueOk => execMultiplyPipePerform core residueOk s
  | .accPortPerform core parityOk => execAccPortPerform core parityOk s
  | .drainGranuleLand core k => execDrainGranuleLand core k s
  | .pageFill team page => execPageFill team page s
  | .spadStarvedTimeout g => execSpadStarvedTimeout g s
  | .feLaneAttempt g word => execFeLaneAttempt g word s
  | .feWaitSatisfy g word => execFeWaitSatisfy g word s
  | .barWaitRelease g word => execBarWaitRelease g word s
  | .tokwaitTake g word => execTokwaitTake g word s
  | .qwaitSatisfy g word => execQwaitSatisfy g word s
  | .pcopyPerform team q => execPcopyPerform team q s
  | .pcopyRfPerform team q => execPcopyRfPerform team q s
  | .pstorePerform team q => execPstorePerform team q s
  | .pfillPerform team q => execPfillPerform team q s
  | .pxformRoutineRun team q => execPxformRoutineRun team q s
  | .qmarkPerform team q => execQmarkPerform team q s
  | .gwalkStep core stopAfter => execGwalkStep core stopAfter s
  | .sourceTimeout id => execSourceTimeout id s
  | .fecLockLossTimeout peer => execFecLockLossTimeout peer s
  | .arrwaitSatisfy g word => execArrwaitSatisfy g word s
  | .arrwaitTimeout g word => execArrwaitTimeout g word s
  | .leaseLanesLive team lease => execLeaseLanesLive team lease s
  | .leaseExpiry team lease => execLeaseExpiry team lease s
  | .laneReclaim peer => execLaneReclaim peer s
  | .laneRetuneDone lane => execLaneRetuneDone lane s
  | .tuningTimeout lane => execTuningTimeout lane s
  | .laneRelockAttempt lane locked => execLaneRelockAttempt lane locked s
  | .flitRetransmit k => execFlitRetransmit k s
  | .admissionDecision cluster => execAdmissionDecision cluster s
  | .preemptBand ten band => execPreemptBand ten band s
  | .preemptProgress team => execPreemptProgress team s
  | .preemptThermal core => execPreemptThermal core s
  | .teamSaved team => execTeamSaved team s
  | .launchCompletion launch => execLaunchCompletion launch s
  | .shootdownComplete ten => execShootdownComplete ten s
  | .baseLaneDeadTimeout peer => execBaseLaneDeadTimeout peer s
  | .pageWalk die => execPageWalk die s
  | .invalidateCompletion k => execInvalidateCompletion k s
  | .thermalPowerDown => execThermalPowerDown s
  | .hbmTrainingDone => execHbmTrainingDone s
  | .opticalCalibrationDone => execOpticalCalibrationDone s
  | .reportReady dbg => execReportReady dbg s
  | .registerCacheFill g line => execRegisterCacheFill g line s

/-- An event of a group that is due at once. -/
def State.dueOf (s : State) (g : Nat) : Option Chore :=
  let G := s.group g
  if !(s.runs g) then none
  else match G.fills with
  | r :: _ => some (.registerCacheFill g r)
  | [] =>
    if G.wantsRefill then some (.refillAttempt g)
    else if s.retires g then some (.groupRetire g)
    else if G.meetwDone then some (.meetwRelease g)
    else match G.lanes.find? fun x => x.st == .heldMeet && G.meetingDone x.mt with
      | some x => some (.meetingRelease g x.mt)
      | none =>
        if G.stuck then some (.stuckGroupRelease g)
        else if G.fairDue then some (.fairnessTimerExpiry g)
        else if !G.promoted && (match G.readySince with | some t => decide (t + Config.starvationLimit ≤ s.clock) | none => false)
        then some (.issueStarvationPromotion g)
        else none

/-- Events that may let a waiting word of a group go on. What a peer answers comes from outside; no answer comes from a dead one. -/
def wordChores (s : State) (g : Nat) (o : OWord) : List Chore :=
  match o.kind with
  | .load .. | .plane .. | .land .. | .owed .. | .bad .. | .fwdAtom .. | .fwdJoin .. =>
    match (s.group g).nextBatch o with
    | some b => if b.all fun a => !isPeer a || s.lostAcc a then [.loadDataLand g o.id []] else []
    | none => []
  | .store .. => [.storeAck g o.id]
  | .feLoad .. | .accLdFe .. => [.feLaneAttempt g o.id]
  | .feWait .. => [.feWaitSatisfy g o.id]
  | .barWait .. => [.barWaitRelease g o.id]
  | .tokWait => [.tokwaitTake g o.id]
  | .qWait .. => [.qwaitSatisfy g o.id]
  | .arrWait .. => [.arrwaitSatisfy g o.id, .arrwaitTimeout g o.id]
  | _ => []

def groupChores (s : State) (G : Group) (g : Nat) : List Chore :=
  (G.outst.flatMap (wordChores s g)) ++ (if G.want.isEmpty then [] else
    (G.want.map fun p => Chore.pageFill G.team p) ++ [.spadStarvedTimeout g])

/-- The event that performs a command. -/
def cmdChore (t q : Nat) : CmdOp → List Chore
  | .pcopy .. => [.pcopyPerform t q]
  | .pcopyRf .. => [.pcopyRfPerform t q]
  | .pstore .. => [.pstorePerform t q]
  | .pfill .. => [.pfillPerform t q]
  | .pxform .. => [.pxformRoutineRun t q]
  | .qmark .. => [.qmarkPerform t q]
  | .qfence .. => []

def teamChores (t : Team) (i : Nat) : List Chore :=
  (t.queues.zipIdx.flatMap fun (q, k) => match q.pending with | c :: _ => cmdChore i k c.op | [] => []) ++
  (t.leases.flatMap fun l => [.leaseLanesLive i l.id, .leaseExpiry i l.id]) ++
  (match t.life with | .stopping => [.teamSaved i] | .running => .preemptProgress i :: t.pins.map (Chore.pageFill i) | _ => [])

def coreChores (c : Core) (i : Nat) : List Chore :=
  (if c.ops.isEmpty then [] else [.multiplyPipePerform i true, .accPortPerform i true]) ++
  (if c.drains.isEmpty then [] else [.drainGranuleLand i 0]) ++ (if c.walks.isEmpty then [] else [.gwalkStep i false]) ++
  (if c.lowSamples < 2 then [] else [.preemptThermal i])

def laneChores (o : OLane) : List Chore :=
  match o.st with
  | .tuning => [.laneRetuneDone o.lane, .tuningTimeout o.lane]
  | .failed => [.laneRelockAttempt o.lane true]
  | _ => []

/-- Events of the machine as a whole that may be due. -/
def State.deviceChores (s : State) : List Chore :=
  (s.sent.map fun q => .sourceTimeout q.id) ++
  (s.peers.flatMap fun p => [.fecLockLossTimeout p.peer, .laneReclaim p.peer]) ++
  ((List.range s.flits.length).map Chore.flitRetransmit) ++ s.optics.flatMap laneChores ++
  (if (s.die false).pend.isEmpty then [] else [.pageWalk false]) ++ (if (s.die true).pend.isEmpty then [] else [.pageWalk true]) ++
  (s.launches.zipIdx.flatMap fun (l, i) => if l.completed then [] else
    .launchCompletion i :: (List.range 16).map Chore.admissionDecision ++ [.preemptBand l.ten (s.effBand l)]) ++
  (s.tens.zipIdx.flatMap fun (t, i) => if t.shoots.isEmpty then [] else [.shootdownComplete i]) ++
  ((List.range s.invals.length).map Chore.invalidateCompletion) ++
  (if s.boot.building then [.reportReady false] else []) ++
  (if s.boot.step == 2 then [.hbmTrainingDone] else if s.boot.step == 3 then [.opticalCalibrationDone] else []) ++
  (if s.tripped then [.thermalPowerDown] else []) ++ (if s.boot.step == 7 then s.boot.deadBase.map Chore.baseLaneDeadTimeout else [])

/-- Every internal event that may be due; one whose condition does not hold changes nothing. -/
def State.chores (s : State) : List Chore :=
  (s.groups.zipIdx.flatMap fun ((G, g) : Group × Nat) => match G.stage with | .running | .stopping => groupChores s G g | _ => []) ++
  (s.teams.zipIdx.flatMap fun ((t, i) : Team × Nat) => teamChores t i) ++
  (s.cores.zipIdx.flatMap fun ((c, i) : Core × Nat) => coreChores c i) ++ s.deviceChores

/-- The next internal event: one that is due at once; else, in every other cycle, the internal events in turn. -/
def State.nextEvent (s : State) : Option Chore :=
  match (List.range s.groups.length).findSome? s.dueOf with
  | some i => some i
  | none =>
    if s.clock % 2 == 0 then none
    else
      let cs := s.chores
      cs[s.clock / 2 % max cs.length 1]?

end Sys2Proof.Machine
end

