-- ==== Sys2Proof/Machine/Boot.lean ====
section
/-! DEFINITION. Boot.lean: the state that a loader leaves for `withFetchWord` (log 2). -/

namespace Sys2Proof.Machine

/-- Code address of the placed word. -/
def placeVa : Nat := 0x10000

/-- A TNCFG word 0 with EN, SLNCH, all bands, HBMW 1, all clusters and a lease quota. -/
def placeCfg : List Word :=
  [BitVec.ofNat 64 (2 ^ 63 + 2 ^ 61 + 0xFF * 2 ^ 40 + 1 * 2 ^ 32 + 0xFFFF * 2 ^ 16 + 64),
   BitVec.ofNat 64 0, BitVec.ofNat 64 (0x20 * 2 ^ 12), BitVec.ofNat 64 (0x30 * 2 ^ 12), BitVec.ofNat 64 (6 + 0x40 * 2 ^ 12),
   BitVec.ofNat 64 0, BitVec.ofNat 64 0, BitVec.ofNat 64 (0x100 * 2 ^ 12), BitVec.ofNat 64 0, BitVec.ofNat 64 0] ++
  List.replicate 6 0#64

def placeHdr : Header :=
  { Header.zero with regs := 128, acc := 64, scr := 4, queues := 8, chan := 8 }

/-- A leaf of the placed page table: identity mapped, readable, writable, executable, level U allowed. -/
def placeLeaf (pa : Nat) : Nat := pa + 2 ^ 12 + 2 ^ 11 + 2 ^ 10 + 2 ^ 9 + 3

/-- See `withFetchWord`: one enabled tenancy whose page table maps the code page, one running team of one 32-lane group
at level S, and the word at its program counter. -/
def placeWord (s : State) (w : Nat) : State :=
  let put := fun (m : List Host.Cell) (f : Nat × Nat) => Cells.writeLE m f.1 8 f.2
  let mem := [(0x20000, 0x21000 + 1), (0x21000, 0x22000 + 1), (0x22000, 0x23000 + 1), (0x23000, 0x24000 + 1),
    (0x24008, placeLeaf placeVa)].foldl put s.mem
  let mem := Cells.writeLE mem placeVa 16 w
  let hdr := placeHdr
  let g := s.groups.length
  let tid := s.teams.length
  let l := s.launches.length
  let team : Team := { Team.zero with
    launch := l, life := .running, cores := [0], groups := [g],
    bars := List.replicate 16 startBar, queues := List.replicate 8 startQueue, items := [[]], tmap := [List.range 64],
    startAt := s.clock }
  let launch : Launch := { Launch.zero with
    crec := { CRec.zero with code := placeVa, teams := 1, slvl := true, iqs := 1 },
    hdr := hdr, started := [tid], completed := false }
  { s with
    mem := mem, groups := s.groups ++ [startGroup tid 0 32 0 0 0 true (BitVec.ofNat 64 placeVa) 0#64 s.clock],
    teams := s.teams ++ [team], launches := s.launches ++ [launch],
    tens := modAt s.tens 0 fun t => { t with cfg := placeCfg, nslot := 1, slotsz := 1 },
    cores := modAt s.cores 0 fun c => { c with tlb := [⟨0, placeVa, 65536, BitVec.ofNat 64 (placeLeaf placeVa)⟩],
                                               tileOwner := (List.range 64).map fun i => (i, tid) },
    inputs := [.issue g (BitVec.ofNat 64 placeVa)] }

end Sys2Proof.Machine
end

