-- ==== Sys2Proof/Machine/Lanes.lean ====
section
/-! DEFINITION. Lanes.lean: the lane-exchange instructions (08 R215-R222). -/

namespace Sys2Proof.Machine

open Host (Outcome)

/-- A value per participating lane with vA's tag. -/
def Ctx.exch (x : Ctx) (f : F64) (g : Nat → Lane32) : List RegWrite :=
  (x.part.map fun l => .v f.d.toNat l (g l)) ++ x.copyTag f.d.toNat f.a

/-- The source lane of `shfl` when it is valid (08 R216). -/
def shflSource (mode w i n : Nat) : Option Nat :=
  let base := i - i % w
  let k := i % w
  if mode == 0 then (if n < w then some (base + n) else none)
  else if mode == 1 then (if n ≤ k then some (i - n) else none)
  else if mode == 2 then (if k + n < w then some (i + n) else none)
  else (if k ^^^ n < w then some (base + (k ^^^ n)) else none)

def execShfl (c : Ctl) (f : F64) (s : State) : Outcome State Fault Refusal :=
  fixedWord (.shfl c f) c s fun x =>
    let w := if fld f.c 4 3 == 0 then x.G.gw else 2 ^ (fld f.c 4 3 + 1)
    let src := fun (l : Nat) =>
      match shflSource f.mod.toNat w l (if fld f.c 3 1 == 1 then f.b.toNat else (x.v f.b l).toNat) with
      | some k => if x.part.contains k then some k else none
      | none => none
    .ok (x.exch f (fun l => x.v f.a ((src l).getD l)) ++ x.part.map fun l => .p (fld f.c 0 3) l (src l).isSome)

def execBcast (c : Ctl) (f : F64) (s : State) : Outcome State Fault Refusal :=
  fixedWord (.bcast c f) c s fun x =>
    let k := if f.mod.toNat == 1 then (x.sreg f.b).toNat else f.c.toNat
    .ok (x.exch f fun l => x.v f.a (if x.part.contains k then k else l))

/-- The identity of a reduction, as the 64-bit value of 08 R218. -/
def redIdentity (op : Nat) (u : Bool) : Int :=
  if op == 3 then 0xFFFFFFFF
  else if op == 1 then intMax u 32
  else if op == 2 then intMin u 32
  else 0

/-- One combination of 08 R218. -/
def redStep (op : Nat) (a b : Int) : Int :=
  if op == 0 then a + b else if op == 1 then min a b else if op == 2 then max a b
  else if op == 3 then (a.toNat &&& b.toNat : Nat) else if op == 4 then (a.toNat ||| b.toNat : Nat) else (a.toNat ^^^ b.toNat : Nat)

/-- A lane value as the reduction reads it: the bitwise operators read the 32 bits. -/
def redRead (op : Nat) (u : Bool) (v : Lane32) : Int := if op < 3 then readU u 32 v.toNat else v.toNat

/-- The reduction over a list of lane values (08 R218). -/
def reduce (op : Nat) (u : Bool) (vs : List Lane32) : Int :=
  vs.foldl (fun a v => redStep op a (redRead op u v)) (redIdentity op u)

def execRed (c : Ctl) (f : F64) (s : State) : Outcome State Fault Refusal :=
  fixedWord (.red c f) c s fun x =>
    let r := reduce (fld f.c 0 3) (fld f.c 3 1 == 1) (x.part.map (x.v f.a))
    .ok (.s f.d.toNat (BitVec.ofInt 64 r) :: x.frag.map fun l => .p f.b.toNat l (!x.part.isEmpty))

def execScan (c : Ctl) (f : F64) (s : State) : Outcome State Fault Refusal :=
  fixedWord (.scan c f) c s fun x =>
    let below := fun l => x.part.filter fun k => if fld f.c 4 1 == 1 then decide (k < l) else decide (k ≤ l)
    .ok (x.vres f.d.toNat 0 fun l =>
      BitVec.ofInt 32 (reduce (fld f.c 0 3) (fld f.c 3 1 == 1) ((below l).map (x.v f.a))))

def execMatchLanes (c : Ctl) (f : F64) (s : State) : Outcome State Fault Refusal :=
  fixedWord (.matchLanes c f) c s fun x =>
    let mask := fun l => laneBits (x.part.filter fun k => x.v f.a k == x.v f.a l)
    let one := x.part.all fun l => x.v f.a l == x.v f.a (x.part.headD 0)
    .ok (x.vres f.d.toNat 0 (fun l => BitVec.ofNat 32 (mask l)) ++
         x.vres (f.d.toNat + 1) 0 (fun l => BitVec.ofNat 32 (mask l / 2 ^ 32)) ++ x.part.map fun l => .p f.b.toNat l one)

def execCompact (c : Ctl) (f : F64) (s : State) : Outcome State Fault Refusal :=
  fixedWord (.compact c f) c s fun x =>
    let vs := (x.part.filter fun l => x.G.pred f.b.toNat l).map (x.v f.a)
    let new := x.part.zipIdx.map fun (p : Nat × Nat) => RegWrite.v f.d.toNat p.1 (vs.getD p.2 0#32)
    .ok (new ++ x.copyTag f.d.toNat f.a ++ [.s f.c.toNat (BitVec.ofNat 64 vs.length)])

end Sys2Proof.Machine
end

