-- ==== Sys2Proof/Machine/Pairs.lean ====
section
/-! DEFINITION. Pairs.lean: the paired word (06 R167-R170): two operations under one guard, each with its own latency. -/

namespace Sys2Proof.Machine

open Host (Outcome)

/-- The computation of a slot's instruction; only pairable ones stand in a slot (06 R168). -/
def slotComp : Instr → Comp
  | .sadd _ f => saddC f
  | .ssub _ f => ssubC f
  | .smul _ f => smulC f
  | .smulh _ f => smulhC f
  | .sand _ f => sandC f
  | .sor _ f => sorC f
  | .sxor _ f => sxorC f
  | .sshl _ f => sshlC f
  | .sshr _ f => sshrC f
  | .ssar _ f => ssarC f
  | .smin _ f => sminC f
  | .smax _ f => smaxC f
  | .scmp _ f => scmpC f
  | .ssel _ f => sselC f
  | .smov _ f => smovC f
  | .slea _ f => sleaC f
  | .spopc _ f => spopcC f
  | .sclz _ f => sclzC f
  | .sffs _ f => sffsC f
  | .add _ f => addC f
  | .sub _ f => subC f
  | .mul _ f => mulC f
  | .mulh _ f => mulhC f
  | .mad _ f => madC f
  | .abs _ f => absC f
  | .neg _ f => negC f
  | .min _ f => minC f
  | .max _ f => maxC f
  | .and _ f => andC f
  | .or _ f => orC f
  | .xor _ f => xorC f
  | .andn _ f => andnC f
  | .not _ f => notC f
  | .shl _ f => shlC f
  | .shr _ f => shrC f
  | .sar _ f => sarC f
  | .rot _ f => rotC f
  | .bfe _ f => bfeC f
  | .bfi _ f => bfiC f
  | .popc _ f => popcC f
  | .clz _ f => clzC f
  | .ffs _ f => ffsC f
  | .brev _ f => brevC f
  | .cmp _ f => cmpC f
  | .sel _ f => selC f
  | .mov _ f => movC f
  | .cvti _ f => cvtiC f
  | .addsat _ f => addsatC f
  | .subsat _ f => subsatC f
  | .avg _ f => avgC f
  | .sad _ f => sadC f
  | .dp4 _ f => dp4C f
  | .fadd _ f => faddC f
  | .fsub _ f => fsubC f
  | .fmul _ f => fmulC f
  | .ffma _ f => ffmaC f
  | .fmin _ f => fminC f
  | .fmax _ f => fmaxC f
  | .fcmp _ f => fcmpC f
  | .fclass _ f => fclassC f
  | .frcp _ f => frcpC f
  | .frsq _ f => frsqC f
  | .fexp2 _ f => fexp2C f
  | .flog2 _ f => flog2C f
  | .fsqrt _ f => fsqrtC f
  | .frnd _ f => frndC f
  | _ => fun _ => .ok []

def slotFixed (gw : Nat) (i : Instr) (ws : List RegWrite) : Nat × List RegName × List RegWrite :=
  ((latency i).getD 0, (slotUses gw i).2.1, ws)

/-- Both slots read their sources at issue (06 R164, R170). -/
def execPaired (c : Ctl) (p : Pair) (s : State) : Outcome State Fault Refusal :=
  word (.paired c p) c (fun x =>
    let i0 := slotInstr c p.pop0 p.slot0
    let i1 := slotInstr c p.pop1 p.slot1
    match slotComp i0 x, slotComp i1 x with
    | .ok w0, .ok w1 => .fixed [slotFixed x.G.gw i0 w0, slotFixed x.G.gw i1 w1]
    | .error (code, lane), _ => .trap x.s code lane 0 0
    | .ok _, .error (code, lane) => .trap x.s code lane 0 0) s

end Sys2Proof.Machine
end

