-- ==== Sys2Proof/Machine/Trap.lean ====
section
/-! DEFINITION. Trap.lean: `assert`, `brk`, `chk.on` and `chk.off` (13 R328-R330). -/

namespace Sys2Proof.Machine

open Host (Outcome)

/-- The assertion fails in the participating lanes whose predicate does not hold; the lowest of them takes ASSERT, a fault
of class LAUNCH, with the message pointer in VADDR (13 R328, 21 R445). -/
def execAssert (c : Ctl) (f : M96) (s : State) : Outcome State Fault Refusal :=
  word (.assert c f) c (fun x =>
    match x.part.find? fun l => x.G.pred f.a.toNat l == (f.mod.toNat == 1) with
    | none => .go x.s
    | some l =>
      let msg := BitVec.ofNat 64 (recBase (x.breg f.b).toNat) + f.imm.signExtend 64
      .trapF x.s { x.flt 0x50 l msg.toNat 0 with cls := 1 }) s

/-- BREAK records the code; a resumed group continues at the next word (13 R329). -/
def execBrk (c : Ctl) (f : F64) (s : State) : Outcome State Fault Refusal :=
  groupWide (.brk c f) c s fun x => .trapF x.s { x.flt 0x51 0 0 f.c.toNat with cont := true }

/-- The checking scoreboard is on, or off, from the next word the group issues (13 R330). -/
def Ctx.setChk (x : Ctx) (on : Bool) : Res := .go (x.s.modGroup x.g fun G => { G with chk := on })

def execChkOn (c : Ctl) (f : F64) (s : State) : Outcome State Fault Refusal :=
  groupWide (.chkOn c f) c s fun x => x.setChk true

def execChkOff (c : Ctl) (f : F64) (s : State) : Outcome State Fault Refusal :=
  groupWide (.chkOff c f) c s fun x => x.setChk false

end Sys2Proof.Machine
end

