-- ==== Sys2Proof/Machine/Dispatch.lean ====
section
/-! DEFINITION. Dispatch.lean: one arm per constructor of `Instr`. -/

namespace Sys2Proof.Machine

open Host (Outcome)

def exec (i : Instr) (s : State) : Host.Outcome State Fault Refusal :=
  match i with
  | .nop c f => Sys2Proof.Machine.execNop c f s
  | .bra c f => Sys2Proof.Machine.execBra c f s
  | .brc c f => Sys2Proof.Machine.execBrc c f s
  | .brx c f => Sys2Proof.Machine.execBrx c f s
  | .call c f => Sys2Proof.Machine.execCall c f s
  | .callx c f => Sys2Proof.Machine.execCallx c f s
  | .ret c f => Sys2Proof.Machine.execRet c f s
  | .exit c f => Sys2Proof.Machine.execExit c f s
  | .meet c f => Sys2Proof.Machine.execMeet c f s
  | .meetw c f => Sys2Proof.Machine.execMeetw c f s
  | .vote c f => Sys2Proof.Machine.execVote c f s
  | .ballot c f => Sys2Proof.Machine.execBallot c f s
  | .elect c f => Sys2Proof.Machine.execElect c f s
  | .refill c f => Sys2Proof.Machine.execRefill c f s
  | .done c f => Sys2Proof.Machine.execDone c f s
  | .yield c f => Sys2Proof.Machine.execYield c f s
  | .tokpass c f => Sys2Proof.Machine.execTokpass c f s
  | .tokwait c f => Sys2Proof.Machine.execTokwait c f s
  | .spawn c f => Sys2Proof.Machine.execSpawn c f s
  | .joinc c f => Sys2Proof.Machine.execJoinc c f s
  | .iqPush c f => Sys2Proof.Machine.execIqPush c f s
  | .iqLoad c f => Sys2Proof.Machine.execIqLoad c f s
  | .iqCount c f => Sys2Proof.Machine.execIqCount c f s
  | .sadd c f => Sys2Proof.Machine.execSadd c f s
  | .ssub c f => Sys2Proof.Machine.execSsub c f s
  | .smul c f => Sys2Proof.Machine.execSmul c f s
  | .smulh c f => Sys2Proof.Machine.execSmulh c f s
  | .sdiv c f => Sys2Proof.Machine.execSdiv c f s
  | .srem c f => Sys2Proof.Machine.execSrem c f s
  | .sand c f => Sys2Proof.Machine.execSand c f s
  | .sor c f => Sys2Proof.Machine.execSor c f s
  | .sxor c f => Sys2Proof.Machine.execSxor c f s
  | .sshl c f => Sys2Proof.Machine.execSshl c f s
  | .sshr c f => Sys2Proof.Machine.execSshr c f s
  | .ssar c f => Sys2Proof.Machine.execSsar c f s
  | .smin c f => Sys2Proof.Machine.execSmin c f s
  | .smax c f => Sys2Proof.Machine.execSmax c f s
  | .scmp c f => Sys2Proof.Machine.execScmp c f s
  | .ssel c f => Sys2Proof.Machine.execSsel c f s
  | .smov c f => Sys2Proof.Machine.execSmov c f s
  | .smovi c f => Sys2Proof.Machine.execSmovi c f s
  | .slea c f => Sys2Proof.Machine.execSlea c f s
  | .spopc c f => Sys2Proof.Machine.execSpopc c f s
  | .sclz c f => Sys2Proof.Machine.execSclz c f s
  | .sffs c f => Sys2Proof.Machine.execSffs c f s
  | .sr c f => Sys2Proof.Machine.execSr c f s
  | .add c f => Sys2Proof.Machine.execAdd c f s
  | .sub c f => Sys2Proof.Machine.execSub c f s
  | .mul c f => Sys2Proof.Machine.execMul c f s
  | .mulh c f => Sys2Proof.Machine.execMulh c f s
  | .mad c f => Sys2Proof.Machine.execMad c f s
  | .abs c f => Sys2Proof.Machine.execAbs c f s
  | .neg c f => Sys2Proof.Machine.execNeg c f s
  | .min c f => Sys2Proof.Machine.execMin c f s
  | .max c f => Sys2Proof.Machine.execMax c f s
  | .and c f => Sys2Proof.Machine.execAnd c f s
  | .or c f => Sys2Proof.Machine.execOr c f s
  | .xor c f => Sys2Proof.Machine.execXor c f s
  | .andn c f => Sys2Proof.Machine.execAndn c f s
  | .not c f => Sys2Proof.Machine.execNot c f s
  | .shl c f => Sys2Proof.Machine.execShl c f s
  | .shr c f => Sys2Proof.Machine.execShr c f s
  | .sar c f => Sys2Proof.Machine.execSar c f s
  | .rot c f => Sys2Proof.Machine.execRot c f s
  | .bfe c f => Sys2Proof.Machine.execBfe c f s
  | .bfi c f => Sys2Proof.Machine.execBfi c f s
  | .popc c f => Sys2Proof.Machine.execPopc c f s
  | .clz c f => Sys2Proof.Machine.execClz c f s
  | .ffs c f => Sys2Proof.Machine.execFfs c f s
  | .brev c f => Sys2Proof.Machine.execBrev c f s
  | .cmp c f => Sys2Proof.Machine.execCmp c f s
  | .sel c f => Sys2Proof.Machine.execSel c f s
  | .mov c f => Sys2Proof.Machine.execMov c f s
  | .movi c f => Sys2Proof.Machine.execMovi c f s
  | .cvti c f => Sys2Proof.Machine.execCvti c f s
  | .addsat c f => Sys2Proof.Machine.execAddsat c f s
  | .subsat c f => Sys2Proof.Machine.execSubsat c f s
  | .avg c f => Sys2Proof.Machine.execAvg c f s
  | .sad c f => Sys2Proof.Machine.execSad c f s
  | .dp4 c f => Sys2Proof.Machine.execDp4 c f s
  | .fadd c f => Sys2Proof.Machine.execFadd c f s
  | .fsub c f => Sys2Proof.Machine.execFsub c f s
  | .fmul c f => Sys2Proof.Machine.execFmul c f s
  | .ffma c f => Sys2Proof.Machine.execFfma c f s
  | .fmin c f => Sys2Proof.Machine.execFmin c f s
  | .fmax c f => Sys2Proof.Machine.execFmax c f s
  | .fcmp c f => Sys2Proof.Machine.execFcmp c f s
  | .fclass c f => Sys2Proof.Machine.execFclass c f s
  | .frcp c f => Sys2Proof.Machine.execFrcp c f s
  | .frsq c f => Sys2Proof.Machine.execFrsq c f s
  | .fexp2 c f => Sys2Proof.Machine.execFexp2 c f s
  | .flog2 c f => Sys2Proof.Machine.execFlog2 c f s
  | .fsqrt c f => Sys2Proof.Machine.execFsqrt c f s
  | .frnd c f => Sys2Proof.Machine.execFrnd c f s
  | .fcvt c f => Sys2Proof.Machine.execFcvt c f s
  | .f2i c f => Sys2Proof.Machine.execF2i c f s
  | .i2f c f => Sys2Proof.Machine.execI2f c f s
  | .fpack c f => Sys2Proof.Machine.execFpack c f s
  | .funpk c f => Sys2Proof.Machine.execFunpk c f s
  | .shfl c f => Sys2Proof.Machine.execShfl c f s
  | .bcast c f => Sys2Proof.Machine.execBcast c f s
  | .red c f => Sys2Proof.Machine.execRed c f s
  | .scan c f => Sys2Proof.Machine.execScan c f s
  | .matchLanes c f => Sys2Proof.Machine.execMatchLanes c f s
  | .compact c f => Sys2Proof.Machine.execCompact c f s
  | .bfpcvt c f => Sys2Proof.Machine.execBfpcvt c f s
  | .bfpexpGet c f => Sys2Proof.Machine.execBfpexpGet c f s
  | .bfpexpSet c f => Sys2Proof.Machine.execBfpexpSet c f s
  | .plpack c f => Sys2Proof.Machine.execPlpack c f s
  | .plunpk c f => Sys2Proof.Machine.execPlunpk c f s
  | .prec c f => Sys2Proof.Machine.execPrec c f s
  | .precExp c f => Sys2Proof.Machine.execPrecExp c f s
  | .ptrunc c f => Sys2Proof.Machine.execPtrunc c f s
  | .ufc c f => Sys2Proof.Machine.execUfc c f s
  | .ufcClr c f => Sys2Proof.Machine.execUfcClr c f s
  | .brecSet c f => Sys2Proof.Machine.execBrecSet c f s
  | .brecGet c f => Sys2Proof.Machine.execBrecGet c f s
  | .brecx c f => Sys2Proof.Machine.execBrecx c f s
  | .bchk c f => Sys2Proof.Machine.execBchk c f s
  | .ld c f => Sys2Proof.Machine.execLd c f s
  | .st c f => Sys2Proof.Machine.execSt c f s
  | .ldpl c f => Sys2Proof.Machine.execLdpl c f s
  | .ldrf c f => Sys2Proof.Machine.execLdrf c f s
  | .stpl c f => Sys2Proof.Machine.execStpl c f s
  | .lds c f => Sys2Proof.Machine.execLds c f s
  | .sts c f => Sys2Proof.Machine.execSts c f s
  | .ldsr c f => Sys2Proof.Machine.execLdsr c f s
  | .stsr c f => Sys2Proof.Machine.execStsr c f s
  | .atom c f => Sys2Proof.Machine.execAtom c f s
  | .atoms c f => Sys2Proof.Machine.execAtoms c f s
  | .fenceAr c f => Sys2Proof.Machine.execFenceAr c f s
  | .fenceAcq c f => Sys2Proof.Machine.execFenceAcq c f s
  | .fenceRel c f => Sys2Proof.Machine.execFenceRel c f s
  | .fenceSysAll c f => Sys2Proof.Machine.execFenceSysAll c f s
  | .pref c f => Sys2Proof.Machine.execPref c f s
  | .spin c f => Sys2Proof.Machine.execSpin c f s
  | .sunpin c f => Sys2Proof.Machine.execSunpin c f s
  | .fmtset c f => Sys2Proof.Machine.execFmtset c f s
  | .mma c f => Sys2Proof.Machine.execMma c f s
  | .accZero c f => Sys2Proof.Machine.execAccZero c f s
  | .accRd c f => Sys2Proof.Machine.execAccRd c f s
  | .accRdx c f => Sys2Proof.Machine.execAccRdx c f s
  | .accMax c f => Sys2Proof.Machine.execAccMax c f s
  | .accScl c f => Sys2Proof.Machine.execAccScl c f s
  | .accLd c f => Sys2Proof.Machine.execAccLd c f s
  | .accDrn c f => Sys2Proof.Machine.execAccDrn c f s
  | .kvslot c f => Sys2Proof.Machine.execKvslot c f s
  | .hamd c f => Sys2Proof.Machine.execHamd c f s
  | .gwalk c f => Sys2Proof.Machine.execGwalk c f s
  | .cqInit c f => Sys2Proof.Machine.execCqInit c f s
  | .cqPush c f => Sys2Proof.Machine.execCqPush c f s
  | .cqPop c f => Sys2Proof.Machine.execCqPop c f s
  | .cqTop c f => Sys2Proof.Machine.execCqTop c f s
  | .vfTest c f => Sys2Proof.Machine.execVfTest c f s
  | .pcopy c f => Sys2Proof.Machine.execPcopy c f s
  | .pcopyRf c f => Sys2Proof.Machine.execPcopyRf c f s
  | .pstore c f => Sys2Proof.Machine.execPstore c f s
  | .pfill c f => Sys2Proof.Machine.execPfill c f s
  | .pxform c f => Sys2Proof.Machine.execPxform c f s
  | .qfence c f => Sys2Proof.Machine.execQfence c f s
  | .qmark c f => Sys2Proof.Machine.execQmark c f s
  | .qwait c f => Sys2Proof.Machine.execQwait c f s
  | .csend c f => Sys2Proof.Machine.execCsend c f s
  | .cput c f => Sys2Proof.Machine.execCput c f s
  | .cget c f => Sys2Proof.Machine.execCget c f s
  | .catom c f => Sys2Proof.Machine.execCatom c f s
  | .arrset c f => Sys2Proof.Machine.execArrset c f s
  | .arrwait c f => Sys2Proof.Machine.execArrwait c f s
  | .lease c f => Sys2Proof.Machine.execLease c f s
  | .lrel c f => Sys2Proof.Machine.execLrel c f s
  | .lqry c f => Sys2Proof.Machine.execLqry c f s
  | .barArv c f => Sys2Proof.Machine.execBarArv c f s
  | .barWt c f => Sys2Proof.Machine.execBarWt c f s
  | .barSync c f => Sys2Proof.Machine.execBarSync c f s
  | .feWait c f => Sys2Proof.Machine.execFeWait c f s
  | .assert c f => Sys2Proof.Machine.execAssert c f s
  | .brk c f => Sys2Proof.Machine.execBrk c f s
  | .csrrd c f => Sys2Proof.Machine.execCsrrd c f s
  | .csrwr c f => Sys2Proof.Machine.execCsrwr c f s
  | .sret c f => Sys2Proof.Machine.execSret c f s
  | .stbinv c f => Sys2Proof.Machine.execStbinv c f s
  | .spmap c f => Sys2Proof.Machine.execSpmap c f s
  | .spunmap c f => Sys2Proof.Machine.execSpunmap c f s
  | .chkOn c f => Sys2Proof.Machine.execChkOn c f s
  | .chkOff c f => Sys2Proof.Machine.execChkOff c f s
  | .paired c p => Sys2Proof.Machine.execPaired c p s
  | .fairnessTimerExpiry g => Sys2Proof.Machine.execFairnessTimerExpiry g s
  | .issueStarvationPromotion g => Sys2Proof.Machine.execIssueStarvationPromotion g s
  | .meetingRelease g mt => Sys2Proof.Machine.execMeetingRelease g mt s
  | .meetwRelease g => Sys2Proof.Machine.execMeetwRelease g s
  | .stuckGroupRelease g => Sys2Proof.Machine.execStuckGroupRelease g s
  | .refillAttempt g => Sys2Proof.Machine.execRefillAttempt g s
  | .groupRetire g => Sys2Proof.Machine.execGroupRetire g s
  | .loadDataLand g word outside => Sys2Proof.Machine.execLoadDataLand g word outside s
  | .storeAck g word => Sys2Proof.Machine.execStoreAck g word s
  | .memUncorrectableLate g word va => Sys2Proof.Machine.execMemUncorrectableLate g word va s
  | .multiplyPipePerform core residueOk => Sys2Proof.Machine.execMultiplyPipePerform core residueOk s
  | .accPortPerform core parityOk => Sys2Proof.Machine.execAccPortPerform core parityOk s
  | .drainGranuleLand core k => Sys2Proof.Machine.execDrainGranuleLand core k s
  | .pageFill team page => Sys2Proof.Machine.execPageFill team page s
  | .spadStarvedTimeout g => Sys2Proof.Machine.execSpadStarvedTimeout g s
  | .feLaneAttempt g word => Sys2Proof.Machine.execFeLaneAttempt g word s
  | .feWaitSatisfy g word => Sys2Proof.Machine.execFeWaitSatisfy g word s
  | .barWaitRelease g word => Sys2Proof.Machine.execBarWaitRelease g word s
  | .tokwaitTake g word => Sys2Proof.Machine.execTokwaitTake g word s
  | .qwaitSatisfy g word => Sys2Proof.Machine.execQwaitSatisfy g word s
  | .pcopyPerform team q => Sys2Proof.Machine.execPcopyPerform team q s
  | .pcopyRfPerform team q => Sys2Proof.Machine.execPcopyRfPerform team q s
  | .pstorePerform team q => Sys2Proof.Machine.execPstorePerform team q s
  | .pfillPerform team q => Sys2Proof.Machine.execPfillPerform team q s
  | .pxformRoutineRun team q => Sys2Proof.Machine.execPxformRoutineRun team q s
  | .qmarkPerform team q => Sys2Proof.Machine.execQmarkPerform team q s
  | .gwalkStep core stopAfter => Sys2Proof.Machine.execGwalkStep core stopAfter s
  | .packetArrival p => Sys2Proof.Machine.execPacketArrival p s
  | .packetAck id a => Sys2Proof.Machine.execPacketAck id a s
  | .fabricRequestArrival r => Sys2Proof.Machine.execFabricRequestArrival r s
  | .forwardedAccessArrival a => Sys2Proof.Machine.execForwardedAccessArrival a s
  | .sourceTimeout id => Sys2Proof.Machine.execSourceTimeout id s
  | .fecLockLossTimeout peer => Sys2Proof.Machine.execFecLockLossTimeout peer s
  | .arrwaitSatisfy g word => Sys2Proof.Machine.execArrwaitSatisfy g word s
  | .arrwaitTimeout g word => Sys2Proof.Machine.execArrwaitTimeout g word s
  | .leaseLanesLive team lease => Sys2Proof.Machine.execLeaseLanesLive team lease s
  | .leaseExpiry team lease => Sys2Proof.Machine.execLeaseExpiry team lease s
  | .laneReclaim peer => Sys2Proof.Machine.execLaneReclaim peer s
  | .laneRetuneDone lane => Sys2Proof.Machine.execLaneRetuneDone lane s
  | .tuningTimeout lane => Sys2Proof.Machine.execTuningTimeout lane s
  | .laneRelockAttempt lane locked => Sys2Proof.Machine.execLaneRelockAttempt lane locked s
  | .laneLossOfLock lane => Sys2Proof.Machine.execLaneLossOfLock lane s
  | .flitRetransmit k => Sys2Proof.Machine.execFlitRetransmit k s
  | .launchWindowWrite page off bytes => Sys2Proof.Machine.execLaunchWindowWrite page off bytes s
  | .launchDatagram d => Sys2Proof.Machine.execLaunchDatagram d s
  | .mcSubmit ten bytes => Sys2Proof.Machine.execMcSubmit ten bytes s
  | .admissionDecision cluster => Sys2Proof.Machine.execAdmissionDecision cluster s
  | .preemptBand ten band => Sys2Proof.Machine.execPreemptBand ten band s
  | .preemptProgress team => Sys2Proof.Machine.execPreemptProgress team s
  | .preemptThermal core => Sys2Proof.Machine.execPreemptThermal core s
  | .teamSaved team => Sys2Proof.Machine.execTeamSaved team s
  | .launchCompletion launch => Sys2Proof.Machine.execLaunchCompletion launch s
  | .faultAnswerWrite ten off bytes => Sys2Proof.Machine.execFaultAnswerWrite ten off bytes s
  | .uncontainedFault ten code die => Sys2Proof.Machine.execUncontainedFault ten code die s
  | .storageErrorDetect e => Sys2Proof.Machine.execStorageErrorDetect e s
  | .poisonEntryClear die n value => Sys2Proof.Machine.execPoisonEntryClear die n value s
  | .errorCounterClear die n value => Sys2Proof.Machine.execErrorCounterClear die n value s
  | .tncfgWrite who ten w value => Sys2Proof.Machine.execTncfgWrite who ten w value s
  | .deadpeerClear who k value => Sys2Proof.Machine.execDeadpeerClear who k value s
  | .csrWrite who off size value => Sys2Proof.Machine.execCsrWrite who off size value s
  | .shootdownLocal ten c => Sys2Proof.Machine.execShootdownLocal ten c s
  | .shootdownRosPurge ten c => Sys2Proof.Machine.execShootdownRosPurge ten c s
  | .shootdownComplete ten => Sys2Proof.Machine.execShootdownComplete ten s
  | .rosPurgeReceive peer addr npg => Sys2Proof.Machine.execRosPurgeReceive peer addr npg s
  | .pageWalk die => Sys2Proof.Machine.execPageWalk die s
  | .atsCompletion req a => Sys2Proof.Machine.execAtsCompletion req a s
  | .priResponse prg code => Sys2Proof.Machine.execPriResponse prg code s
  | .invalidateRequest pasid addr size => Sys2Proof.Machine.execInvalidateRequest pasid addr size s
  | .invalidateCompletion k => Sys2Proof.Machine.execInvalidateCompletion k s
  | .accessCounterWrite die n value => Sys2Proof.Machine.execAccessCounterWrite die n value s
  | .missedClear die value => Sys2Proof.Machine.execMissedClear die value s
  | .burstCrcFail b => Sys2Proof.Machine.execBurstCrcFail b s
  | .stackTraining stack passed => Sys2Proof.Machine.execStackTraining stack passed s
  | .refreshTick stack => Sys2Proof.Machine.execRefreshTick stack s
  | .heartbeatMiss stack => Sys2Proof.Machine.execHeartbeatMiss stack s
  | .hbmBurstServe stack channel eligible => Sys2Proof.Machine.execHbmBurstServe stack channel eligible s
  | .thermalSample cores hbm => Sys2Proof.Machine.execThermalSample cores hbm s
  | .thermalPowerDown => Sys2Proof.Machine.execThermalPowerDown s
  | .powerOnReset => Sys2Proof.Machine.execPowerOnReset s
  | .railsInRange inRange coolant slot0 slot1 => Sys2Proof.Machine.execRailsInRange inRange coolant slot0 slot1 s
  | .hbmTrainingDone => Sys2Proof.Machine.execHbmTrainingDone s
  | .opticalCalibrationDone => Sys2Proof.Machine.execOpticalCalibrationDone s
  | .pcieLinkUp up => Sys2Proof.Machine.execPcieLinkUp up s
  | .ethernetLinkDone port0 port1 => Sys2Proof.Machine.execEthernetLinkDone port0 port1 s
  | .baseLaneDeadTimeout peer => Sys2Proof.Machine.execBaseLaneDeadTimeout peer s
  | .measurementExtend ten routine => Sys2Proof.Machine.execMeasurementExtend ten routine s
  | .attestationRequest nonce => Sys2Proof.Machine.execAttestationRequest nonce s
  | .reportReady dbg => Sys2Proof.Machine.execReportReady dbg s
  | .registerCacheFill g line => Sys2Proof.Machine.execRegisterCacheFill g line s
  | .eyeRecentreDone stack channel => Sys2Proof.Machine.execEyeRecentreDone stack channel s
  | .priEnable => Sys2Proof.Machine.execPriEnable s
  | .frontPortLinkChange port up => Sys2Proof.Machine.execFrontPortLinkChange port up s
  | .csrHostRead off size => Sys2Proof.Machine.execCsrHostRead off size s

end Sys2Proof.Machine
end

