-- ==== Sys2Proof/Machine/Step.lean ====
section
/-! DEFINITION. Step.lean: one step of the machine, and the placing of an instruction where the next step fetches. -/

namespace Sys2Proof.Machine

open Host (Outcome)

/-- Apply a function to the next state of an outcome. -/
def onNext (f : State → State) : Outcome State Fault Refusal → Outcome State Fault Refusal
  | .next s => .next (f s)
  | .fault r => .fault r
  | .refused r => .refused r

/-- An event happens. -/
def runEvent (i : Instr) (s : State) : Outcome State Fault Refusal := onNext tick (exec i s)

/-- An internal event happens. -/
def runChore (c : Chore) (s : State) : Outcome State Fault Refusal := onNext tick (c.run s)

/-- The end of a cycle in which the fragment at `pc` of group `g` was looked at. -/
def afterLook (g : Nat) (pc : Word) (s : State) : Outcome State Fault Refusal → Outcome State Fault Refusal :=
  onNext fun s' => tick (afterIssue exec s g pc s')

/-- A fragment is looked at, and its word issues when it is ready. -/
def runIssue (g : Nat) (pc : Word) (s : State) : Outcome State Fault Refusal := afterLook g pc s (issueAt exec g pc s)

/-- A cycle in which nothing issues. -/
def idle (s : State) : Outcome State Fault Refusal := .next (tick s)

/-- The fragments are looked at in order until one issues (01 R21, R22); `n` bounds how many there are. -/
def runQuarters : Nat → State → Outcome State Fault Refusal
  | 0, s => idle s
  | n + 1, s =>
    match s.pick with
    | none => idle s
    | some (g, pc) =>
      match issueAt exec g pc s with
      | .next s' => if s'.unready g pc then runQuarters n s' else afterLook g pc s (.next s')
      | r => r

/-- The outside world's input. -/
def runInput (s : State) : Input → Outcome State Fault Refusal
  | .event i => if s.boot.hold && outer i then idle (heldOff s i) else runEvent i s
  | .issue g pc => if s.mayIssue g pc then runIssue g pc s else idle s
  | .hostStore pa bs => idle (hostStore s pa bs)
  | .hostMemStore hpa bs => idle { s with hostMem := Cells.writeN s.hostMem hpa bs }
  | .burst key ten => idle (s.burst key ten)
  | .selfRefresh stack enter => idle (s.selfRefresh stack enter)
  | .heartbeat stack => idle (s.heartbeat stack)
  | .linkStatusRead => idle s.linkStatus
  | .hostRead bar off size => idle (s.hostRead bar off size)
  | .mcRead off size => idle (s.mcRead off size)

/-- Without power only host memory changes, and power-on reset brings the device back (22 R468, 23 R471). -/
def runOff (s : State) : Input → Outcome State Fault Refusal
  | .event .powerOnReset => runEvent .powerOnReset s
  | .hostMemStore hpa bs => idle { s with hostMem := Cells.writeN s.hostMem hpa bs }
  | _ => idle s

/-- One step: the outside world's next input; else the internal event that is due; else the first ready fragment in
the quarters' order; else a cycle in which nothing issues. -/
def step (s : State) : Outcome State Fault Refusal :=
  match s.inputs with
  | i :: rest => if s.power then runInput { s with inputs := rest } i else runOff { s with inputs := rest } i
  | [] =>
    if !s.power then idle s
    else match s.nextEvent with
      | some c => runChore c s
      | none => runQuarters s.fragmentCount s

/-- `s` with the instruction of `nbits` bits stored where the next step fetches: a tenancy is set up, one team of one
group runs, and the word stands at its program counter (log 2). -/
def State.withFetchWord (s : State) (nbits w : Nat) : State := placeWord s (w % 2 ^ nbits)

end Sys2Proof.Machine
end

