-- ==== Sys2Proof/Safety.lean ====
section
/-! DEFINITION. Safety.lean: what the statements are about: a safe step, memory in canonical form, and a word that issues
normally, its context and the state its answer leaves. -/

namespace Sys2Proof

open Machine

/-- A step that neither stops with a fault nor is refused. -/
def Safe (s : State) : Prop := ∃ t, step s = .next t

/-- Memory stands in its canonical form (log 1). -/
structure MemWf (s : State) : Prop where
  mem : Cells.wf s.mem = true
  host : Cells.wf s.hostMem = true

/-- The issue time of a word, the group as a word with that issue time reads it, and the header of its launch. -/
def readGroup (c : Ctl) (G0 : Group) : Group := G0.commit (G0.issueT c)
def headerOf (s : State) (G0 : Group) : Header := s.hdrOf (s.team G0.team)

/-- In state `s` the fragment at `pc` of group `g`, which is `G0`, may issue: it is the one that is issuing, it has lanes, and
neither the group nor its team is stopped. -/
structure Issuing (s : State) (g : Nat) (pc : Word) (G0 : Group) : Prop where
  cur : s.cur = some (g, pc)
  group : s.groups[g]? = some G0
  frag : G0.fragment pc ≠ []
  running : G0.stage = .running
  life : (s.team G0.team).life = .running

/-- The tokens and registers that the word `i` needs are free (01 R21, 02 R49, 06 R164). -/
def Ready (i : Instr) (c : Ctl) (s : State) (G0 : Group) : Prop := s.ready G0 c (uses (readGroup c G0).gw i) = true

/-- No check of 06 R172 rows 6 to 9 fails. -/
def Legal (i : Instr) (c : Ctl) (s : State) (G0 : Group) : Prop :=
  staticFault i (readGroup c G0) (headerOf s G0).regs (headerOf s G0).acc (G0.issueT c) (uses (readGroup c G0).gw i) = none

/-- The word `i` issues normally: conditions on the state and the word alone. -/
structure Issues (i : Instr) (c : Ctl) (s : State) (g : Nat) (pc : Word) (G0 : Group) : Prop extends Issuing s g pc G0 where
  ready : Ready i c s G0
  legal : Legal i c s G0

/-- The lanes of the fragment in which the guard holds: the participating lanes (07 R179). -/
def participants (c : Ctl) (pc : Word) (G0 : Group) : List Nat := (G0.fragment pc).filter ((readGroup c G0).guard c)

/-- What the word `i` sees when it issues. -/
def ctxAt (i : Instr) (c : Ctl) (s : State) (g : Nat) (pc : Word) (G0 : Group) : Ctx :=
  { s := s.modGroup g fun _ => readGroup c G0, g := g, G := readGroup c G0, pc := pc, next := nextPc pc i.size,
    frag := G0.fragment pc, part := participants c pc G0, t := G0.issueT c, c := c }

/-- The state that the answer `r` of the word `i` leaves. -/
def issued (i : Instr) (c : Ctl) (s : State) (g : Nat) (pc : Word) (G0 : Group) (r : Res) : State :=
  finish (ctxAt i c s g pc G0) G0 r

/-- `exec` of the word answers a next state: the one that the answer `r` of its meaning leaves. -/
def Answers (i : Instr) (c : Ctl) (s : State) (g : Nat) (pc : Word) (G0 : Group) (r : Res) : Prop :=
  exec i s = .next (issued i c s g pc G0 r)

/-- `exec` of the word answers a next state: the one in which the group has taken a fault of class GROUP at the word (21 R443):
its code, the lane, the address and INFO that the record holds. -/
def Traps (i : Instr) (c : Ctl) (s : State) (g : Nat) (pc : Word) (G0 : Group) (code lane va info : Nat) : Prop :=
  exec i s = .next (((ctxAt i c s g pc G0).s.backOut g G0).groupFault g ((ctxAt i c s g pc G0).flt code lane va info))

/-- The word issues normally and some lane takes part, so that a group-wide word is performed (07 R179). -/
structure Performs (i : Instr) (c : Ctl) (s : State) (g : Nat) (pc : Word) (G0 : Group) : Prop extends Issues i c s g pc G0 where
  part : participants c pc G0 ≠ []

end Sys2Proof
end

