-- ==== Sys2Proof/Certificates/Slice0/Obligations.lean ====
section
/-! DEFINITION. Obligations.lean: the statements for the provers. Safety.lean defines what they speak of: a word that issues
(`Issuing`, `Issues`, `Performs`), what it sees (`ctxAt`), the state that an answer of its meaning leaves (`issued`), and the
two forms of a conclusion, `Answers` and `Traps`. -/

open Sys2Proof Sys2Proof.Machine

/-! ## Encoding and decoding (06 R152-R172) -/

/-- No bit of an encoding is dropped: an instruction word that is well formed, and a legal pair where it is paired, is what
its bits decode to. -/
def Obligations.DecodeOfEncode : Prop :=
  ∀ (i : Instr) (w : Nat), WellFormed i = true → (∀ c p, i = .paired c p → pairOk c p = true) →
    encodeBits i = some w → decodeBits w = .ok i

/-- Each word has one meaning: bits that decode to an instruction are, over its length, the bits that encode it. -/
def Obligations.EncodeOfDecode : Prop :=
  ∀ (w : Nat) (i : Instr), decodeBits w = .ok i → encodeBits i = some (w % 2 ^ (8 * i.size))

/-- Words written out bit by bit from the encodings of the spec, one or more of each family. -/
def Obligations.DecodeWords : Prop :=
  let k : Ctl := ⟨0, false, false, 7, 7, 0, 0⟩
  decodeBits 0x0003F000 = .ok (.nop k ⟨0, 0, 0, 0, 0⟩) ∧
  decodeBits 0x3FFFFFF00103F000 = .ok (.bra k ⟨0xFFFFFFC, 0⟩) ∧
  decodeBits 0x7F80060C4003F004 = .ok (.sadd { k with stall := 1 } ⟨3, 3, 0, 0x7F, 1⟩) ∧
  decodeBits 0x41850E308703F004 = .ok (.min { k with stall := 1 } ⟨0x0C, 7, 5, 3, 1⟩) ∧
  decodeBits 0x00020211400D904C = .ok (.fadd ⟨0, true, true, 3, 1, 1, 3⟩ ⟨4, 1, 2, 0, 0⟩) ∧
  decodeBits 0x70A018214E03F000 = .ok (.fcvt k ⟨8, 0x0C, 0x20, 0x61, 1⟩) ∧
  decodeBits 0x45030A11C003F000 = .ok (.shfl k ⟨4, 5, 3, 0x0A, 1⟩) ∧
  decodeBits 0x01860A11E303F000 = .ok (.plunpk k ⟨4, 5, 6, 3, 0⟩) ∧
  decodeBits 0x0000004020430A1A0303A001 = .ok (.ld { k with setw := 2 } ⟨6, 5, 0x43, 0x40, 0, 0x40⟩) ∧
  decodeBits 0x00B0400E81038000 = .ok (.mma { k with setw := 0 } ⟨3, 0x20, 0x30, 1, 0⟩) ∧
  decodeBits 0x080A0C0AC703F000 = .ok (.vfTest k ⟨2, 6, 0x0A, 0x10, 0⟩) ∧
  decodeBits 0x00000002000000040483102AE003F002 = .ok (.pcopy k ⟨0x0A, 8, 3, 9, 0, 4, 2⟩) ∧
  decodeBits 0x00000000000002000305082B0103F002 = .ok (.cput k ⟨0x0A, 4, 5, 6, 0, 0x200, 0⟩) ∧
  decodeBits 0x418700034203F000 = .ok (.barSync k ⟨0, 0, 7, 3, 1⟩) ∧
  decodeBits 0x280206036303F000 = .ok (.csrwr k ⟨0, 3, 2, 0x50, 0⟩) ∧
  decodeBits 0x00284888000202118003F005 =
    .ok (.paired { k with stall := 1 } ⟨0x60, 4, 1, 2, 0, 0x20, 8, 9, 0x0A, 0⟩)

/-- Bits 1:0 give the length: 00 for 8 bytes, 01 for 12, 10 for 16, and 11 is illegal; the bytes of an instruction are those
of its bits, the lowest first. -/
def Obligations.InstructionLength : Prop :=
  (∀ (w : Nat) (i : Instr), decodeBits w = .ok i →
    (w % 4 = 0 ∧ i.size = 8) ∨ (w % 4 = 1 ∧ i.size = 12) ∨ (w % 4 = 2 ∧ i.size = 16)) ∧
  (∀ w : Nat, w % 4 = 3 → decodeBits w = .error .lenReserved) ∧
  (∀ (w n k : Nat), k < n → (natToBytes n w).getD k 0#8 = BitVec.ofNat 8 (w / 2 ^ (8 * k))) ∧
  (∀ (w n : Nat), w < 2 ^ (8 * n) → decode (natToBytes n w) = decodeBits w)

/-! ## Reset -/

/-! ## Memory (00 R7; log 1) -/

/-- What reset leaves, as far as the spec states it: every control register, access counter, error counter and poisoned entry,
the issue-priority tokens, the thermal and stack fields, the lanes (dark), the ports, bring-up at step 0, CLOCK 0.
(That lanes are dark, and which lists are empty, is the model's reading: log 13.)
Memory after reset stands in its canonical form. -/
def Obligations.ResetState : Prop :=
  (let s := State.reset
  s.clock = 0 ∧ s.groups = [] ∧ s.teams = [] ∧ s.launches = [] ∧
  (∀ t < 16, ∀ w < 16, (s.ten t).cfg.getD w 1#64 = 0#64) ∧
  (∀ c < 256, (s.core c).temp = 0#12 ∧ (s.core c).floor = 32#8 ∧ (s.core c).allow = 255#8 ∧
    (s.core c).token = [none, none, none, none]) ∧
  s.deadpeer = [0#64, 0#64, 0#64, 0#64] ∧ s.srcto = 20#16 ∧ s.csrviol = 0#32 ∧
  (∀ d : Bool, (s.die d).errs = List.replicate 9 0#64 ∧ (s.die d).poison = [] ∧ (s.die d).counters = [] ∧ (s.die d).missed = 0#64) ∧
  (∀ k < 12, (s.stack k).offl = 0#32 ∧ (s.stack k).owner = false ∧ (s.stack k).refx2 = false ∧ (s.stack k).trnd = false) ∧
  (∀ l : Nat, (s.lane l).st = .dark) ∧ s.ports = [false, false] ∧ s.pcie = false ∧
  s.boot.step = 0 ∧ s.boot.hold = false ∧ s.boot.failc = 0 ∧ s.boot.rpt = false) ∧
  (MemWf State.reset)

/-- Every step keeps memory, the device's and the host's, in its canonical form: addresses strictly rising, no byte listed that
an unlisted address reads as.
(The form is the model's: log 1.) -/
def Obligations.StepKeepsMemoryCanonical : Prop := ∀ s t : State, MemWf s → step s = .next t → MemWf t

/-- A byte that has been written reads as written, every other byte as before, and the form stays canonical.
Numbers lie in memory with their lowest byte at the lowest address: what was written is read back, byte `k` of it stands
`k` bytes higher, and no other byte changes. -/
def Obligations.BytesOfMemory : Prop :=
  (∀ (m : List Host.Cell) (a : Nat) (v : Byte), Cells.wf m = true →
    Cells.wf (Cells.write m a v) = true ∧
    ∀ b : Nat, Cells.read (Cells.write m a v) b = if b = a then v else Cells.read m b) ∧
  (∀ (m : List Host.Cell) (a n v : Nat), Cells.wf m = true →
    Cells.readLE (Cells.writeLE m a n v) a n = v % 2 ^ (8 * n) ∧
    (∀ k < n, Cells.read (Cells.writeLE m a n v) (a + k) = BitVec.ofNat 8 (v / 2 ^ (8 * k))) ∧
    (∀ b : Nat, (b < a ∨ a + n ≤ b) → Cells.read (Cells.writeLE m a n v) b = Cells.read m b))

/-! ## The step -/

/-- A step with nothing else to do looks at the fragments in the order that the quarters choose: the word fetched at the program
counter of the first is executed, and where it was ready the cycle passes with what an issue leaves behind (the core's gate, the
fairness count, the groups that wait); where it was not, the next fragment is looked at in the same cycle. An issue given as an input
is executed the same way.
The word fetched is the one whose bytes stand at the address that the program counter translates to: an instruction whose
encoding stands there, inside its 32-byte block, is fetched. -/
def Obligations.StepRunsTheFetchedWord : Prop :=
  ((∀ (s t : State) (g : Nat) (pc : Word) (i : Instr), s.power = true → s.inputs = [] → s.nextEvent = none → s.pick = some (g, pc) →
    s.fragmentCount ≠ 0 → s.fetch g pc = .word i → exec i { s with cur := some (g, pc) } = .next t →
    (t.unready g pc = false → step s = .next (tick (afterIssue exec s g pc t))) ∧
    (t.unready g pc = true → step s = runQuarters (s.fragmentCount - 1) t)) ∧
  (∀ (s : State) (g : Nat) (pc : Word) (i : Instr) (rest : List Input), s.power = true → s.inputs = .issue g pc :: rest →
    let s0 : State := { s with inputs := rest }
    s0.mayIssue g pc = true → s0.fetch g pc = .word i →
    step s = onNext (fun t => tick (afterIssue exec s0 g pc t)) (exec i { s0 with cur := some (g, pc) })) ∧
  (∀ (s t : State) (g : Nat) (pc : Word), (t.group g).seq ≠ (s.group g).seq →
    ((afterIssue exec s g pc t).group g).fairness = ((t.gateCount (s.group g).core).group g).fairness + (s.rivalWaits exec g pc).toNat ∨
    t.groups.length ≤ g)) ∧
  (∀ (s : State) (g : Nat) (pc : Word) (i : Instr) (w : Nat) (l : XLine) (ls : List XLine),
    WellFormed i = true → (∀ c p, i = .paired c p → pairOk c p = true) → encodeBits i = some w →
    pc.toNat < 2 ^ 56 → pc.toNat % 4 = 0 → pc.toNat % 32 + i.size ≤ 32 →
    s.xlateAll g (s.group g) (s.team (s.group g).team).ten pc .fetch [(0, pc.toNat)] = .ok (l :: ls) →
    s.poisoned l.pa = false → Cells.readLE s.mem l.pa i.size = w →
    s.fetch g pc = .word i)

/-- What the outside world gives comes first, then the internal event that is due, then an issue; without power nothing
happens but a store to the host's own memory and power-on. While bring-up holds, what comes neither through PCIe configuration space nor
through the mailbox does nothing.
(That order, one act to a step, is the model's choice: log 3, 6.) -/
def Obligations.StepOrder : Prop :=
  (∀ (s : State) (i : Instr) (rest : List Input), s.power = true → s.inputs = .event i :: rest →
    ((s.boot.hold = false ∨ outer i = false) → step s = onNext tick (exec i { s with inputs := rest })) ∧
    (s.boot.hold = true → outer i = true → ∃ t : State, step s = .next (tick t) ∧
      (t = { s with inputs := rest } ∨ ∃ off size : Nat, i = .csrHostRead off size ∧
        t = ({ s with inputs := rest } : State).emit (.hostReturn (-1#64))))) ∧
  (∀ (s : State) (pa : Nat) (bs : List Byte) (rest : List Input), s.power = true → s.boot.hold = true → s.inputs = .hostStore pa bs :: rest →
    step s = .next (tick { s with inputs := rest })) ∧
  (∀ (s : State) (c : Chore), s.power = true → s.inputs = [] → s.nextEvent = some c →
    step s = onNext tick (c.run s)) ∧
  (∀ s : State, s.power = true → s.inputs = [] → s.nextEvent = none → s.pick = none → step s = .next (tick s)) ∧
  (∀ s : State, s.power = false → s.inputs = [] → step s = .next (tick s)) ∧
  (∀ (s : State) (i : Instr) (rest : List Input), s.power = false → s.inputs = .event i :: rest → i ≠ .powerOnReset →
    step s = .next (tick { s with inputs := rest }))

/-! ## Readiness, the checks of 06 R172, and exceptions (21 R443-R447) -/

/-- Rows 3 and 4 of the table of illegal encodings: an opcode of an unassigned range is refused, and so is an assigned opcode
under a length that is not its own. A word of 12 bytes with bit 33 clear is a paired word and has no opcode.
Row 5 of the table of illegal encodings: a word of 12 bytes with bit 33 clear is a paired word where each of its pairable opcodes
stands for an instruction of 64 bits, and the two slots write different registers, draw their vector sources from at most three banks,
and are not both of the multiply-add class nor both transcendental; else it is refused.
Rows 1 to 5 as a group meets them at its program counter: a misplaced address or bytes that cross a 32-byte boundary raise
FETCH_BOUNDARY, LEN = 11 and bits that no row decodes raise ILLEGAL_INSTR, at the word itself, whatever the guard holds; nothing of it
is executed, and the group takes the fault. Row 1 comes first, and a word with LEN = 11 has no length to cross with.
Rows 6 to 9 of the table of illegal encodings, for every instruction word: the first check that fails raises its fault,
with no effect in any lane. -/
def Obligations.IllegalEncodings : Prop :=
  (let unassigned := [(0x017, 0x03F), (0x057, 0x07F), (0x0A2, 0x13F), (0x153, 0x1BF), (0x1C6, 0x1DF), (0x1E7, 0x1FF),
    (0x212, 0x27F), (0x289, 0x2BF), (0x2C8, 0x2DF), (0x2E8, 0x2FF), (0x309, 0x33F), (0x344, 0x35F), (0x36A, 0x3FF)]
  let long96 := [(0x203, 0x20D), (0x20F, 0x20F), (0x280, 0x280), (0x287, 0x288), (0x2C2, 0x2C2), (0x300, 0x300), (0x303, 0x303),
    (0x343, 0x343), (0x360, 0x360)]
  let long128 := [(0x051, 0x051), (0x09B, 0x09B), (0x201, 0x201), (0x2E0, 0x2E4), (0x301, 0x302)]
  let among := fun (l : List (Nat × Nat)) (n : Nat) => l.any fun r => r.1 ≤ n && n ≤ r.2
  ∀ w : Nat, w % 4 < 3 → (w % 4 = 1 → bitAt w 33 = true) →
    let opc := bitsOf w 24 10
    (among unassigned opc = true → decodeBits w = .error .opcUnassigned) ∧
    (among unassigned opc = false →
      (decodeBits w = .error .lenMismatch ↔
        w % 4 ≠ (if among long96 opc then 1 else if among long128 opc then 2 else 0)))) ∧
  (∀ w : Nat, w % 4 = 1 → bitAt w 33 = false →
    let c := decodeCtl w
    let p := decodePair w
    let opcOf := fun (n : Nat) => if n < 0x20 then 0x040 + n else if n < 0x60 then 0x080 + (n - 0x20) else 0x140 + (n - 0x60)
    let stands := fun (n : Nat) => (n ≤ 0x15 ∧ n ≠ 0x04 ∧ n ≠ 0x05 ∧ n ≠ 0x11) ∨ (0x20 ≤ n ∧ n ≤ 0x41 ∧ n ≠ 0x3B) ∨ (0x60 ≤ n ∧ n ≤ 0x6D)
    let alone := fun (n : Nat) (f : F64) => decodeBits (encodeCtl c 0 + opcOf n * 2 ^ 24 + encodeBody (.f64 f))
    let mulAdd := fun (n : Nat) => opcOf n ∈ [0x042, 0x043, 0x082, 0x083, 0x084, 0x0A0, 0x0A1, 0x142, 0x143]
    let transc := fun (n : Nat) => 0x148 ≤ opcOf n ∧ opcOf n ≤ 0x14C
    let n0 := p.pop0.toNat
    let n1 := p.pop1.toNat
    (¬(stands n0 ∧ stands n1) → decodeBits w = .error .pairBroken) ∧
    (stands n0 → stands n1 → ∃ i0 i1 : Instr, alone n0 ⟨p.d0, p.a0, p.b0, p.c0, 0#2⟩ = .ok i0 ∧
      alone n1 ⟨p.d1, p.a1, p.b1, p.c1, 0#2⟩ = .ok i1 ∧
      ((slotDest i0 ≠ slotDest i1 ∧ (∃ k < 4, ∀ r ∈ slotVSrcs i0 ++ slotVSrcs i1, r % 4 ≠ k) ∧ ¬(mulAdd n0 ∧ mulAdd n1) ∧
          ¬(transc n0 ∧ transc n1)) → decodeBits w = .ok (.paired c p)) ∧
      (¬(slotDest i0 ≠ slotDest i1 ∧ (∃ k < 4, ∀ r ∈ slotVSrcs i0 ++ slotVSrcs i1, r % 4 ≠ k) ∧ ¬(mulAdd n0 ∧ mulAdd n1) ∧
          ¬(transc n0 ∧ transc n1)) → decodeBits w = .error .pairBroken))) ∧
  (∀ (s : State) (g : Nat) (pc : Word) (rest : List Input), s.power = true → s.inputs = .issue g pc :: rest →
    let s0 : State := { s with inputs := rest }
    let stops := fun (code va lane : Nat) (next : Word) (s1 : State) => step s = .next (tick (afterIssue exec s0 g pc
      (s1.groupFault g ⟨code, 0, lane, 0, pc, va, false, (s0.group g).fragment pc, next, false, 0⟩)))
    s0.mayIssue g pc = true → pc.toNat < 2 ^ 56 →
    (pc.toNat % 4 ≠ 0 ∨ pc.toNat % 32 = 28 →
      stops 0x03 pc.toNat (((s0.group g).fragment pc).headD 0) s0.draw.1 s0.draw.2) ∧
    ∀ (l : XLine) (ls : List XLine), pc.toNat % 4 = 0 → pc.toNat % 32 ≠ 28 →
      s0.xlateAll g (s0.group g) (s0.team (s0.group g).team).ten pc .fetch [(0, pc.toNat)] = .ok (l :: ls) → s0.poisoned l.pa = false →
      let room := 32 - pc.toNat % 32
      let w := Cells.readLE s0.mem l.pa room
      (w % 4 = 3 → stops 0x01 0 0 s0.draw.1 s0.draw.2) ∧
      (∀ n : Nat, n = (if w % 4 = 0 then 8 else if w % 4 = 1 then 12 else 16) → w % 4 ≠ 3 →
        (room < n → stops 0x03 0 0 (nextPc pc n) s0) ∧
        (n ≤ room → ∀ e : DecodeError, decodeBits (w % 2 ^ (8 * n)) = .error e → stops 0x01 0 0 (nextPc pc n) s0))) ∧
  (∀ (i : Instr) (c : Ctl) (s : State) (g : Nat) (pc : Word) (G0 : Group), i.ctl? = some c → Issuing s g pc G0 → Ready i c s G0 →
    let G := readGroup c G0
    let h := headerOf s G0
    let u := uses G.gw i
    let t := G0.issueT c
    let names := (namesOk u h.regs h.acc && selectorOk i) = true
    let fields := (WellFormed i && widthOk G.gw i) = true
    let level := (privileged i && !G.levelS) = false
    (¬names → Traps i c s g pc G0 0x01 0 0 0) ∧
    (names → ¬fields → Traps i c s g pc G0 0x02 0 0 0) ∧
    (names → fields → ¬level → Traps i c s g pc G0 0x05 0 0 0) ∧
    (names → fields → level → G.undersize t u = true → Traps i c s g pc G0 0x04 0 0 0))

/-- At level U the six privileged words raise PRIV under row 8 of R172, the rows before it having found nothing; at level S row
8 stops no instruction, whatever word it is. -/
def Obligations.PrivilegeOfLevelU : Prop :=
  (∀ (i : Instr) (c : Ctl) (f : F64) (s : State) (g : Nat) (pc : Word) (G0 : Group),
    i = .csrrd c f ∨ i = .csrwr c f ∨ i = .sret c f ∨ i = .stbinv c f ∨ i = .spmap c f ∨ i = .spunmap c f →
    Issuing s g pc G0 → Ready i c s G0 → G0.levelS = false →
    namesOk (uses G0.gw i) (headerOf s G0).regs (headerOf s G0).acc = true → WellFormed i = true →
    Traps i c s g pc G0 0x05 0 0 0) ∧
  (∀ (i : Instr) (G : Group) (regs acc t : Nat) (u : Uses), G.levelS = true → staticFault i G regs acc t u ≠ some 0x05)

/-- The record with number SEQ stands in slot (SEQ - 1) mod 2^FQLOG, its fields at the offsets of the table; the next record
takes the next number, and no byte outside the slot changes, but for the halted queue's entry in its team's control block.
(That a record gets its number when it is written is the model's reading: log 17.) -/
def Obligations.FaultRecordFields : Prop :=
  ∀ (s : State) (ten : Nat) (r : FRec), MemWf s →
    let n := (s.ten ten).fqNext
    let a := (s.ten ten).fqbase + (n - 1) % 2 ^ (s.ten ten).fqlog * 64
    let t := s.writeRec ten r
    let entry := fun (tid q : Nat) => s.slotAddr (s.team tid) + 0x200 + 64 * q
    (∀ tid q : Nat, r.target = .queue tid q → a + 64 ≤ entry tid q ∨ entry tid q + 20 ≤ a) →
    t.rdMem a 8 = n % 2 ^ 64 ∧ t.rdMem (a + 8) 1 = r.flt.code % 2 ^ 8 ∧ t.rdMem (a + 9) 1 = r.flt.cls % 2 ^ 8 ∧
    t.rdMem (a + 10) 1 = (if r.void then 3 else if 3 ≤ r.flt.cls then 2 else 0) ∧ t.rdMem (a + 11) 1 = r.flt.lane % 2 ^ 8 ∧
    t.rdMem (a + 12) 4 = r.flt.info % 2 ^ 32 ∧ t.rdMem (a + 16) 8 = r.flt.pc.toNat ∧ t.rdMem (a + 24) 8 = r.flt.vaddr % 2 ^ 64 ∧
    t.rdMem (a + 32) 4 = r.team % 2 ^ 32 ∧ t.rdMem (a + 36) 2 = r.gidx % 2 ^ 16 ∧ t.rdMem (a + 38) 1 = r.cluster % 2 ^ 8 ∧
    t.rdMem (a + 39) 1 = r.cslot % 2 ^ 8 ∧
    t.rdMem (a + 40) 8 = r.cr % 2 ^ 64 ∧ t.rdMem (a + 48) 8 = r.cslot % 2 ^ 64 ∧ t.rdMem (a + 56) 8 = r.flt.time % 2 ^ 64 ∧
    (∀ b : Nat, (b < a ∨ a + 64 ≤ b) → (∀ tid q : Nat, r.target = .queue tid q → b < entry tid q ∨ entry tid q + 20 ≤ b) →
      Cells.read t.mem b = Cells.read s.mem b) ∧
    (ten < s.tens.length → (t.ten ten).fqNext = n + 1)

/-- Taking a fault of class GROUP: the group stops issuing, the fault is the last of those it holds, its registers and lanes
stand, every other group goes on as before, and a team that was to be pre-empted runs on, with every team of its launch where that
is concurrent. Once its issued words have completed, the image and the record are written.
(How the stop is taken in its corners is the model's reading: log 17.)
Returning from a fault: an answer to a record that is not in STATE 0 does nothing. An answer with action 0 or 1 to the last
fault of a group of a running team resumes the group from its image; the lanes of the faulting fragment leave the faulting word
only under action 1, or where BREAK continues. Action 2 discards the launch. -/
def Obligations.FaultsAndAnswers : Prop :=
  (∀ (s : State) (g : Nat) (G : Group) (f : Flt), s.groups[g]? = some G → G.stage = .running → f.cls = 0 →
    let t := s.groupFault g f
    let f' : Flt := { f with time := s.clock }
    (∀ k, k ≠ g → t.groups[k]? = s.groups[k]?) ∧ t.launches = s.launches ∧
    ((s.team G.team).life ≠ .stopping → t.teams = s.teams) ∧
    (∀ i < s.teams.length, (t.team i).life =
      if (s.team G.team).life = .stopping ∧ (s.team i).life = .stopping ∧
        (i = G.team ∨ ((s.team i).launch = (s.team G.team).launch ∧ (s.launch (s.team G.team).launch).crec.prog = 0)) then .running
      else (s.team i).life) ∧
    (∃ H, t.groups[g]? = some H ∧ H.faults = G.faults ++ [f'] ∧ H.lanes = G.lanes ∧ H.v = G.v ∧ H.s = G.s ∧ H.b = G.b ∧ H.d = G.d ∧
      H.ufc = G.ufc ∧ H.w = G.w ∧ H.outst = G.outst ∧ H.stage = (if s.drained g then .awaiting else .stopping)) ∧
    (s.drained g = false → (s.team G.team).life ≠ .stopping → t.mem = s.mem) ∧
    (s.drained g = true → G.faults = [] → (s.team G.team).life ≠ .stopping →
      let stopped : State := (s.unask g).modGroup g fun G =>
        { G with faults := [f'], stage := .awaiting, suspend := none, want := [], paid := none,
                 hadToken := (s.core G.core).token.any (· == some g) }
      t = (stopped.writeImage g).post (s.team G.team).ten (stopped.recOf g f'))) ∧
  ((∀ (s : State) (ten n action : Nat), ((s.ten ten).fqDone.find? fun r => r.seq == n) = none → s.answer ten n action = s) ∧
  (∀ (s : State) (g action : Nat) (G : Group) (f : Flt), s.groups[g]? = some G → G.faults = [f] →
    (s.team G.team).life = .running →
    s.answerGroup g action = (s.modGroup g fun G => { G with
      faults := [], answer := none
      advance := G.advance ++ (if f.late = false ∧ (f.cont = true ∨ action = 1) then [(f.lanes, f.pc, f.next)] else []) }).resumeGroup g) ∧
  (∀ (s : State) (ten n : Nat) (r : FRec) (g : Nat), ((s.ten ten).fqDone.find? fun r => r.seq == n) = some r → r.target = .group g →
    let s1 : State := (s.wrMem (s.fqSlot ten n + 10) 1 1).modTen ten fun t => { t with fqDone := t.fqDone.filter fun x => x.seq != n }
    (∀ action, action ≠ 2 → s.answer ten n action = (s1.answerGroup g action).fqFlush ten) ∧
    s.answer ten n 2 = (s1.discard (s.team (s.group g).team).launch 0x21 0).fqFlush ten))

/-! ## Scalar results (07 R199-R202) -/

namespace Sys2Proof

/-- The second operand of a scalar instruction, as a signed number: sB, or the immediate. -/
def second (x : Ctx) (f : F64) (imm : Bool) : Int := if imm then f.c.toInt else (x.sreg f.b).toInt
/-- A number read as signed or unsigned. -/
def readAs (uns : Bool) (w : Word) : Int := if uns then (w.toNat : Int) else w.toInt

/-- The latency, destination and result of each scalar instruction (R161, R199, R200), as exact arithmetic narrowed to 64 bits. -/
def scalarRule : Instr → Option (Nat × BitVec 7 × (Ctx → Word))
  | .sadd _ f => some (2, f.d, fun x =>
      let r := (x.sreg f.a).toInt + second x f (f.mod.getLsbD 0)
      if f.mod.getLsbD 1 then BitVec.ofInt 64 (clampTo (-(2 ^ 63)) (2 ^ 63 - 1) r) else BitVec.ofInt 64 r)
  | .ssub _ f => some (2, f.d, fun x =>
      let r := (x.sreg f.a).toInt - second x f (f.mod.getLsbD 0)
      if f.mod.getLsbD 1 then BitVec.ofInt 64 (clampTo (-(2 ^ 63)) (2 ^ 63 - 1) r) else BitVec.ofInt 64 r)
  | .smul _ f => some (4, f.d, fun x => BitVec.ofInt 64 ((x.sreg f.a).toInt * second x f (f.mod == 1)))
  | .smulh _ f => some (4, f.d, fun x =>
      BitVec.ofInt 64 (readAs (f.mod == 1) (x.sreg f.a) * readAs (f.mod == 1) (x.sreg f.b) / 2 ^ 64))
  | .sdiv _ f => some (24, f.d, fun x =>
      if x.sreg f.b = 0#64 then 0xFFFFFFFFFFFFFFFF#64
      else BitVec.ofInt 64 ((readAs (f.mod == 1) (x.sreg f.a)).tdiv (readAs (f.mod == 1) (x.sreg f.b))))
  | .srem _ f => some (24, f.d, fun x =>
      if x.sreg f.b = 0#64 then x.sreg f.a
      else
        let a := readAs (f.mod == 1) (x.sreg f.a)
        let b := readAs (f.mod == 1) (x.sreg f.b)
        BitVec.ofInt 64 (a - a.tdiv b * b))
  | .sand _ f => some (2, f.d, fun x => x.sreg f.a &&& BitVec.ofInt 64 (second x f (f.mod == 1)))
  | .sor _ f => some (2, f.d, fun x => x.sreg f.a ||| BitVec.ofInt 64 (second x f (f.mod == 1)))
  | .sxor _ f => some (2, f.d, fun x => x.sreg f.a ^^^ BitVec.ofInt 64 (second x f (f.mod == 1)))
  | .sshl _ f => some (2, f.d, fun x =>
      BitVec.ofNat 64 ((x.sreg f.a).toNat * 2 ^ (if f.mod = 1 then f.c.toNat else (x.sreg f.b).toNat)))
  | .sshr _ f => some (2, f.d, fun x =>
      BitVec.ofNat 64 ((x.sreg f.a).toNat / 2 ^ (if f.mod = 1 then f.c.toNat else (x.sreg f.b).toNat)))
  | .ssar _ f => some (2, f.d, fun x =>
      BitVec.ofInt 64 ((x.sreg f.a).toInt / 2 ^ (if f.mod = 1 then f.c.toNat else (x.sreg f.b).toNat)))
  | .smin _ f => some (2, f.d, fun x =>
      let b := BitVec.ofInt 64 (second x f (f.mod.getLsbD 1))
      if readAs (f.mod.getLsbD 0) (x.sreg f.a) < readAs (f.mod.getLsbD 0) b then x.sreg f.a else b)
  | .smax _ f => some (2, f.d, fun x =>
      let b := BitVec.ofInt 64 (second x f (f.mod.getLsbD 1))
      if readAs (f.mod.getLsbD 0) (x.sreg f.a) < readAs (f.mod.getLsbD 0) b then b else x.sreg f.a)
  | .ssel _ f => some (2, f.d, fun x => if x.G.pred f.c.toNat (x.frag.headD 0) then x.sreg f.a else x.sreg f.b)
  | .smov _ f => some (2, f.d, fun x => if f.mod = 0 then x.sreg f.a else BitVec.ofNat 64 (x.v f.a f.c.toNat).toNat)
  | .smovi _ w => some (2, w.d, fun x =>
      let imm : Int := (w.x.toNat : Int) + 2 ^ 32 * (w.y.toNat : Int)
      BitVec.ofInt 64 (if w.mod = 0 then imm else (x.pc.toNat : Int) + imm))
  | .slea _ f => some (2, f.d, fun x => BitVec.ofNat 64 ((x.sreg f.a).toNat + (x.sreg f.b).toNat * 2 ^ f.c.toNat))
  | .spopc _ f => some (2, f.d, fun x => BitVec.ofNat 64 ((List.range 64).countP fun i => (x.sreg f.a).getLsbD i))
  | .sclz _ f => some (2, f.d, fun x => BitVec.ofNat 64 (if x.sreg f.a = 0#64 then 64 else 63 - Nat.log2 (x.sreg f.a).toNat))
  | .sffs _ f => some (2, f.d, fun x =>
      BitVec.ofNat 64 (((List.range 64).find? fun i => (x.sreg f.a).toNat / 2 ^ i % 2 == 1).getD 64))
  | .precExp _ f => some (4, f.d, fun x => (x.tag f.a).exps)
  | .prec _ f => some (4, f.d, fun x => BitVec.ofNat 64 (x.tag f.a).field.toNat)
  | .ballot _ f => some (4, f.d, fun x =>
      BitVec.ofNat 64 (((List.range 64).filter fun l => x.part.contains l && x.G.pred f.a.toNat l).foldl (fun n l => n + 2 ^ l) 0))
  | _ => none

end Sys2Proof

/-- Each scalar instruction puts its one result on its way to sD, with its latency; with no participating lane it writes
nothing. -/
def Obligations.ScalarResults : Prop :=
  ∀ (i : Instr) (c : Ctl) (s : State) (g : Nat) (pc : Word) (G0 : Group) (lat : Nat) (d : BitVec 7) (val : Ctx → Word),
    scalarRule i = some (lat, d, val) → i.ctl? = some c → Issues i c s g pc G0 → G0.gw ≤ 64 →
    Answers i c s g pc G0 (.fixed [(lat, [.s d.toNat],
      if participants c pc G0 = [] then [] else [.s d.toNat (val (ctxAt i c s g pc G0))])])

/-! ## Vector integer results (08 R203-R213) -/

namespace Sys2Proof

/-- An element read as signed or unsigned (R205). -/
def readElem (u : Bool) (w x : Nat) : Int := if u || x < 2 ^ (w - 1) then (x : Int) else (x : Int) - 2 ^ w
/-- The largest and smallest values of an integer type. -/
def top (u : Bool) (w : Nat) : Int := if u then 2 ^ w - 1 else 2 ^ (w - 1) - 1
def bottom (u : Bool) (w : Nat) : Int := if u then 0 else -(2 ^ (w - 1))
/-- A lane whose element `e` of width `w` is `r e`, wrapped. -/
def laneOf (w : Nat) (r : Nat → Int) : Lane32 := packElems w ((List.range (32 / w)).map fun e => wrapTo w (r e))
/-- Element `e` of the second operand of form T: of vB, or the immediate, sign-extended or (in shifts) unsigned (R204). -/
def secondElem (x : Ctx) (f : F64) (shift : Bool) (w l e : Nat) : Nat :=
  if f.c.getLsbD 1 then (if shift then f.b.toNat else wrapTo w f.b.toInt) else elem w (x.v f.b l) e

/-- Form T: latency and the exact result of an element from the elements `a` and `b`; `u` is the qualifier U (R206). -/
def formTRule : Instr → Option (Nat × F64 × Bool × (Nat → Bool → Nat → Nat → Int))
  | .add _ f => some (4, f, false, fun _ _ a b => a + b)
  | .sub _ f => some (4, f, false, fun _ _ a b => (a : Int) - b)
  | .mul _ f => some (5, f, false, fun _ _ a b => (a : Int) * b)
  | .mulh _ f => some (5, f, false, fun w u a b => readElem u w a * readElem u w b / 2 ^ w)
  | .min _ f => some (4, f, false, fun w u a b => if readElem u w a ≤ readElem u w b then readElem u w a else readElem u w b)
  | .max _ f => some (4, f, false, fun w u a b => if readElem u w a ≤ readElem u w b then readElem u w b else readElem u w a)
  | .and _ f => some (4, f, false, fun _ _ a b => (a &&& b : Nat))
  | .or _ f => some (4, f, false, fun _ _ a b => (a ||| b : Nat))
  | .xor _ f => some (4, f, false, fun _ _ a b => (a ^^^ b : Nat))
  | .andn _ f => some (4, f, false, fun w _ a b => (a &&& (2 ^ w - 1 - b) : Nat))
  | .shl _ f => some (4, f, true, fun _ _ a b => (a : Int) * 2 ^ b)
  | .shr _ f => some (4, f, true, fun _ _ a b => (a : Int) / 2 ^ b)
  | .sar _ f => some (4, f, true, fun w _ a b => readElem false w a / 2 ^ b)
  | .rot _ f => some (4, f, true, fun w _ a b => (a : Int) * 2 ^ (b % w) + a / 2 ^ (w - b % w))
  | .addsat _ f => some (4, f, false, fun w u a b => clampTo (bottom u w) (top u w) (readElem u w a + readElem u w b))
  | .subsat _ f => some (4, f, false, fun w u a b => clampTo (bottom u w) (top u w) (readElem u w a - readElem u w b))
  | .avg _ f => some (4, f, false, fun w u a b => (readElem u w a + readElem u w b + 1) / 2)
  | _ => none

/-- Form U: the exact result of an element; `sat` is the qualifier S (R207). -/
def formURule : Instr → Option (F64 × (Nat → Bool → Nat → Int))
  | .abs _ f => some (f, fun w sat a => let r := |readElem false w a|; if sat && r == 2 ^ (w - 1) then 2 ^ (w - 1) - 1 else r)
  | .neg _ f => some (f, fun w sat a => let r := -readElem false w a; if sat && r == 2 ^ (w - 1) then 2 ^ (w - 1) - 1 else r)
  | .not _ f => some (f, fun w _ a => 2 ^ w - 1 - (a : Int))
  | .popc _ f => some (f, fun w _ a => ((List.range w).countP fun i => bitAt a i : Nat))
  | .clz _ f => some (f, fun w _ a => if a = 0 then (w : Int) else w - 1 - Nat.log2 a)
  | .ffs _ f => some (f, fun w _ a => (((List.range w).find? fun i => bitAt a i).getD w : Nat))
  | .brev _ f => some (f, fun w _ a => ((List.range w).foldl (fun n i => n + if bitAt a (w - 1 - i) then 2 ^ i else 0) 0 : Nat))
  | _ => none

/-- The reduction over lane values (R218); the bitwise operators work on the 32 bits. -/
def combined (op : Nat) (u : Bool) (vs : List Lane32) : Int :=
  let r := vs.map fun v => readElem u 32 v.toNat
  match op with
  | 0 => r.sum
  | 1 => r.foldl min (top u 32)
  | 2 => r.foldl max (bottom u 32)
  | 3 => ((vs.foldl (· &&& ·) 0xFFFFFFFF#32).toNat : Int)
  | 4 => ((vs.foldl (· ||| ·) 0#32).toNat : Int)
  | _ => ((vs.foldl (· ^^^ ·) 0#32).toNat : Int)

/-- Instructions with a result of their own in each lane: latency, destination and value (R209, R210, R212). -/
def laneRule : Instr → Option (Nat × BitVec 7 × (Ctx → Nat → Lane32))
  | .mad _ f => some (5, f.d, fun x l => let w := widthOf f.mod
      laneOf w fun e => (elem w (x.v f.a l) e : Int) * elem w (x.v f.b l) e + elem w (x.v f.c l) e)
  | .bfe _ f => some (4, f.d, fun x l =>
      let pos := (x.v f.b l).toNat % 256
      let len := min ((x.v f.b l).toNat / 256 % 256) 32
      let bits := (x.v f.a l).toNat / 2 ^ pos % 2 ^ len
      if len = 0 then 0#32 else BitVec.ofInt 32 (readElem (f.c.getLsbD 0) len bits))
  | .bfi _ f => some (4, f.d, fun x l =>
      let pos := (x.v f.b l).toNat % 256
      let len := min ((x.v f.b l).toNat / 256 % 256) 32
      BitVec.ofFnLE fun k => if pos ≤ k.val && k.val < pos + len then (x.v f.a l).getLsbD (k.val - pos) else (x.v f.c l).getLsbD k.val)
  | .sel _ f => some (4, f.d, fun x l => if x.G.pred f.c.toNat l then x.v f.a l else x.v f.b l)
  | .sad _ f => some (5, f.d, fun x l => let w := widthOf f.mod
      BitVec.ofInt 32 ((x.v f.c l).toNat + ((List.range (32 / w)).map fun e => |(elem w (x.v f.a l) e : Int) - elem w (x.v f.b l) e|).sum))
  | .dp4 _ f => some (5, f.d, fun x l =>
      let ua := f.mod = 1 ∨ f.mod = 3
      let ub := f.mod = 1 ∨ f.mod = 2
      BitVec.ofInt 32 ((x.v f.c l).toInt +
        ((List.range 4).map fun e => readElem ua 8 (elem 8 (x.v f.a l) e) * readElem ub 8 (elem 8 (x.v f.b l) e)).sum))
  | .plpack _ f => some (6, f.d, fun x l => BitVec.ofFnLE fun k =>
      (x.v f.a (8 * (l / 8) + k.val / 4)).getLsbD (8 * (k.val % 4) + (7 - l % 8)))
  | .bfpexpGet _ f => some (4, f.d, fun x l => BitVec.ofNat 32 ((x.tag f.a).exps.toNat / 2 ^ (8 * (l / 8)) % 256))
  | .scan _ f => some (10, f.d, fun x l =>
      let below := x.part.filter fun k => if f.c.getLsbD 4 then k < l else k ≤ l
      BitVec.ofInt 32 (combined (f.c.toNat % 8) (f.c.getLsbD 3) (below.map (x.v f.a))))
  | _ => none

end Sys2Proof

/-- Vector integer instructions of form T and form U, element by element, and those with a rule of their own: a result for each
participating lane, of type RAW, with the latency of the table.
(Which tags a word without a participating lane writes is the model's reading: log 18.) -/
def Obligations.VectorIntegerResults : Prop :=
  (∀ (i : Instr) (c : Ctl) (s : State) (g : Nat) (pc : Word) (G0 : Group) (lat : Nat) (f : F64) (sh : Bool)
      (r : Nat → Bool → Nat → Nat → Int),
    formTRule i = some (lat, f, sh, r) → i.ctl? = some c → Issues i c s g pc G0 →
    let x := ctxAt i c s g pc G0
    let w := widthOf f.mod
    Answers i c s g pc G0 (.fixed [(lat, [.v f.d.toNat], x.vres f.d.toNat 0 fun l =>
      laneOf w fun e => r w (f.c.getLsbD 0) (elem w (x.v f.a l) e) (secondElem x f sh w l e))])) ∧
  (∀ (i : Instr) (c : Ctl) (s : State) (g : Nat) (pc : Word) (G0 : Group) (f : F64) (r : Nat → Bool → Nat → Int),
    formURule i = some (f, r) → i.ctl? = some c → Issues i c s g pc G0 →
    let x := ctxAt i c s g pc G0
    let w := widthOf f.mod
    Answers i c s g pc G0 (.fixed [(4, [.v f.d.toNat], x.vres f.d.toNat 0 fun l =>
      laneOf w fun e => r w (f.c.getLsbD 2) (elem w (x.v f.a l) e))])) ∧
  (∀ (i : Instr) (c : Ctl) (s : State) (g : Nat) (pc : Word) (G0 : Group) (lat : Nat) (d : BitVec 7) (r : Ctx → Nat → Lane32),
    laneRule i = some (lat, d, r) → i.ctl? = some c → Issues i c s g pc G0 →
    Answers i c s g pc G0 (.fixed [(lat, [.v d.toNat], (ctxAt i c s g pc G0).vres d.toNat 0 (r (ctxAt i c s g pc G0)))]))

/-! ## Predicates, moves and special registers (07 R191, R199, R202; 08 R208, R211-R213; 09 R227) -/

namespace Sys2Proof

/-- The relation of a condition code (R199, R211). -/
def related (cc : Nat) (a b : Int) : Bool :=
  if cc = 0 then decide (a = b) else if cc = 1 then decide (a ≠ b) else if cc = 2 then decide (a < b)
  else if cc = 3 then decide (a ≤ b) else if cc = 4 then decide (a > b) else decide (a ≥ b)

/-- The exact rational value of a finite number. -/
def Num.rat : Num → Rat
  | .fin s m e => (if s then -1 else 1) * (m : Rat) * (2 : Rat) ^ e
  | _ => 0
/-- The order of the numbers that are not NaN; the infinities lie outside every finite number. -/
def Num.le (a b : Num) : Bool :=
  match a, b with
  | .inf s, .inf t => s || !t
  | .inf s, .fin .. => s
  | .fin .., .inf t => !t
  | a, b => decide (a.rat ≤ b.rat)
/-- The float condition codes (R227). -/
def floatRelated (cc : Nat) (a b : Num) : Bool :=
  let nan := a == .nan || b == .nan
  if cc = 0 then !nan && a.le b && b.le a else if cc = 1 then nan || !(a.le b && b.le a)
  else if cc = 2 then !nan && a.le b && !(b.le a) else if cc = 3 then !nan && a.le b
  else if cc = 4 then !nan && b.le a && !(a.le b) else if cc = 5 then !nan && b.le a
  else if cc = 6 then nan else !nan

/-- Latency, destination, lanes written and value of each predicate. -/
def predicateRule : Instr → Option (Nat × BitVec 7 × (Ctx → List Nat) × (Ctx → Nat → Bool))
  | .scmp _ f => some (2, f.d, fun x => if x.part = [] then [] else x.frag, fun x _ =>
      related f.c.toNat (readAs (f.mod == 1) (x.sreg f.a)) (readAs (f.mod == 1) (x.sreg f.b)))
  | .cmp _ f => some (4, f.d, Ctx.part, fun x l =>
      let w := widthOf f.mod
      let holds := fun e => related (f.c.toNat / 4 % 8) (readElem (f.c.getLsbD 0) w (elem w (x.v f.a l) e))
        (readElem (f.c.getLsbD 0) w (secondElem x f false w l e))
      if f.c.getLsbD 5 then (List.range (32 / w)).any holds else (List.range (32 / w)).all holds)
  | .fcmp _ f => some (4, f.d, Ctx.part, fun x l => floatRelated f.c.toNat (Fmt.f32.decode (x.v f.a l).toNat) (Fmt.f32.decode (x.v f.b l).toNat))
  | .vote _ f => some (4, f.d, Ctx.part, fun x _ =>
      if f.mod = 0 then x.part.any (x.G.pred f.a.toNat) else if f.mod = 1 then x.part.all (x.G.pred f.a.toNat)
      else x.part.all (x.G.pred f.a.toNat) || !(x.part.any (x.G.pred f.a.toNat)))
  | .elect _ f => some (4, f.d, Ctx.part, fun x l => x.part.all fun k => l ≤ k)
  | _ => none

/-- A value in each participating lane, with the tag of vA (R208, R216). -/
def movedWrites (x : Ctx) (d a : BitVec 7) (r : Nat → Lane32) : List RegWrite :=
  let t := x.tag a
  (x.part.map fun l => .v d.toNat l (r l)) ++ .fld d.toNat (fieldWord t.fmt t.pln t.fill) ::
    (blocksOf x.frag).map fun k => .exp d.toNat k (BitVec.ofNat 8 (t.exps.toNat / 2 ^ (8 * k)))

/-- The special registers (R64). -/
def specialRule (x : Ctx) (sel lane : Nat) : Nat :=
  match sel with
  | 0 => lane
  | 1 => x.G.gw
  | 2 => x.G.gidx
  | 3 => x.hdr.teamSz
  | 4 => x.team.idx
  | 5 => x.G.core % 16
  | 6 => x.G.core / 16 % 16
  | 7 => x.G.core / 128
  | 8 => x.G.ufc.toNat
  | _ => x.s.clock

end Sys2Proof

/-- Comparisons, votes and `elect` write their predicate in the lanes the rule names: in every active lane of the fragment for
`scmp`, in the participating lanes for the others.
`mov` copies the value with its tag; `movi` writes its immediate; `cvti` converts each element, and a narrowing one leaves the
elements of vD that it does not write.
(How a reserved tag is copied is the model's reading: log 18.)
`sr` reads a special register into a scalar, into each participating lane, or (CLOCK) into a pair. -/
def Obligations.RegisterResults : Prop :=
  (∀ (i : Instr) (c : Ctl) (s : State) (g : Nat) (pc : Word) (G0 : Group) (lat : Nat) (d : BitVec 7) (ls : Ctx → List Nat)
      (val : Ctx → Nat → Bool),
    predicateRule i = some (lat, d, ls, val) → i.ctl? = some c → Issues i c s g pc G0 →
    let x := ctxAt i c s g pc G0
    Answers i c s g pc G0 (.fixed [(lat, [.p d.toNat], (ls x).map fun l => .p d.toNat l (val x l))])) ∧
  ((∀ (c : Ctl) (f : F64) (s : State) (g : Nat) (pc : Word) (G0 : Group), Issues (.mov c f) c s g pc G0 →
    let x := ctxAt (.mov c f) c s g pc G0
    Answers (.mov c f) c s g pc G0 (.fixed [(4, [.v f.d.toNat], movedWrites x f.d f.a (x.v f.a))])) ∧
  (∀ (c : Ctl) (w : W128) (s : State) (g : Nat) (pc : Word) (G0 : Group), Issues (.movi c w) c s g pc G0 → w.mod ≠ 3 →
    Answers (.movi c w) c s g pc G0 (.fixed [(4, [.v w.d.toNat], (ctxAt (.movi c w) c s g pc G0).vres w.d.toNat 0 fun _ =>
      if w.mod = 0 then w.x else if w.mod = 1 then w.x.setWidth 16 ++ w.x.setWidth 16
      else w.x.setWidth 8 ++ w.x.setWidth 8 ++ w.x.setWidth 8 ++ w.x.setWidth 8)])) ∧
  (∀ (c : Ctl) (w : W128) (s : State) (g : Nat) (pc : Word) (G0 : Group), Issues (.movi c w) c s g pc G0 → w.mod = 3 →
    let x := ctxAt (.movi c w) c s g pc G0
    Answers (.movi c w) c s g pc G0 (.fixed [(4, [.v w.d.toNat, .v (w.d.toNat + 1)],
      x.vres w.d.toNat 0 (fun _ => w.x) ++ x.vres (w.d.toNat + 1) 0 fun _ => w.y)])) ∧
  (∀ (c : Ctl) (f : F64) (s : State) (g : Nat) (pc : Word) (G0 : Group), Issues (.cvti c f) c s g pc G0 →
    let x := ctxAt (.cvti c f) c s g pc G0
    let wd := widthOf f.mod
    let ws := if f.c.toNat % 4 = 0 then 32 else if f.c.toNat % 4 = 1 then 16 else 8
    let k := f.c.toNat / 32
    let conv := fun (a : Nat) =>
      let v := readElem (f.c.getLsbD 2) ws a
      if f.c.getLsbD 4 then clampTo (bottom (f.c.getLsbD 3) wd) (top (f.c.getLsbD 3) wd) v else v
    Answers (.cvti c f) c s g pc G0 (.fixed [(6, [.v f.d.toNat], x.vres f.d.toNat 0 fun l =>
      laneOf wd fun j =>
        if ws ≤ wd then conv (elem ws (x.v f.a l) (k * (32 / wd) + j))
        else if k * (32 / ws) ≤ j ∧ j < (k + 1) * (32 / ws) then conv (elem ws (x.v f.a l) (j - k * (32 / ws)))
        else elem wd (x.v f.d l) j)]))) ∧
  (∀ (c : Ctl) (f : F64) (s : State) (g : Nat) (pc : Word) (G0 : Group), Issues (.sr c f) c s g pc G0 →
    let x := ctxAt (.sr c f) c s g pc G0
    (f.mod = 0 → Answers (.sr c f) c s g pc G0 (.fixed [(4, [.s f.d.toNat],
      if x.part = [] then [] else [.s f.d.toNat (BitVec.ofNat 64 (specialRule x f.c.toNat 0))])])) ∧
    (f.mod ≠ 0 → f.c ≠ 9 → Answers (.sr c f) c s g pc G0 (.fixed [(4, [.v f.d.toNat],
      x.vres f.d.toNat 0 fun l => BitVec.ofNat 32 (specialRule x f.c.toNat l))])) ∧
    (f.mod ≠ 0 → f.c = 9 → Answers (.sr c f) c s g pc G0 (.fixed [(4, [.v f.d.toNat, .v (f.d.toNat + 1)],
      x.vres f.d.toNat 0 (fun _ => BitVec.ofNat 32 s.clock) ++
      x.vres (f.d.toNat + 1) 0 fun _ => BitVec.ofNat 32 (s.clock / 2 ^ 32))])))

/-! ## Floating point (03 R70-R78, 09 R223-R229) -/

/-- The formats, their precision, least exponent and largest finite value (R70, R73). -/
def Sys2Proof.roundingTable : List (Fmt × Nat × Int × Rat) :=
  [(.f32, 24, -126, (2 - 2 ^ (-23 : Int)) * 2 ^ (127 : Int)), (.f16, 11, -14, 65504), (.bf16, 8, -126, (2 - 2 ^ (-7 : Int)) * 2 ^ (127 : Int)),
   (.e4m3, 4, -6, 448), (.e5m2, 3, -14, 57344)]

/-- Rounding, for every format, mode and non-zero exact value: the quantum is that of the value's exponent, the result is the
multiple of it that the mode selects, a result above the largest finite value is replaced by an infinity or by the largest
value, and every other result is the encoding that decodes to it with its sign. A value known to lie strictly between two multiples of
a fine enough unit rounds as every value between them does. -/
def Obligations.RoundingIsCorrect : Prop :=
  (∀ (fmt : Fmt) (p : Nat) (emin : Int) (maxf : Rat) (rm : Rm) (neg : Bool) (m n : Nat) (e g : Int), (fmt, p, emin, maxf) ∈ roundingTable →
    2 ^ (p + 1) ≤ m → (m : Rat) * 2 ^ e < (n : Rat) * 2 ^ g → (n : Rat) * 2 ^ g < ((m : Rat) + 1) * 2 ^ e →
    fmt.result rm (.fin neg m e) true = fmt.result rm (.fin neg n g) false) ∧
  ∀ (fmt : Fmt) (p : Nat) (emin : Int) (maxf : Rat) (rm : Rm) (neg : Bool) (m : Nat) (e : Int),
    (fmt, p, emin, maxf) ∈ roundingTable → 0 < m →
    let y : Rat := (m : Rat) * 2 ^ e
    let r := fmt.result rm (.fin neg m e) false
    ∃ (t : Int) (k : Nat), (2 : Rat) ^ t ≤ y ∧ y < (2 : Rat) ^ (t + 1) ∧
      let q : Rat := 2 ^ (max t emin - p + 1)
      let away : Prop := rm = .rup ∧ neg = false ∨ rm = .rdn ∧ neg = true
      (rm = .rne → |(k : Rat) - y / q| ≤ 1 / 2 ∧ (|(k : Rat) - y / q| = 1 / 2 → k % 2 = 0)) ∧
      (rm ≠ .rne → away → y / q ≤ k ∧ (k : Rat) < y / q + 1) ∧
      (rm ≠ .rne → ¬away → (k : Rat) ≤ y / q ∧ y / q < k + 1) ∧
      (k * q ≤ maxf → ∃ m' e', fmt.decode r = .fin neg m' e' ∧ (m' : Rat) * 2 ^ e' = k * q) ∧
      (maxf < k * q → fmt.hasInf = true →
        (rm = .rz ∨ rm = .rup ∧ neg = true ∨ rm = .rdn ∧ neg = false →
          ∃ m' e', fmt.decode r = .fin neg m' e' ∧ (m' : Rat) * 2 ^ e' = maxf) ∧
        (rm = .rne ∨ away → fmt.decode r = .inf neg))

namespace Sys2Proof

/-- The integer that a mode selects for an exact value (R73). -/
def selected (rm : Rm) (y : Rat) : Int :=
  match rm with
  | .rdn => ⌊y⌋
  | .rup => ⌈y⌉
  | .rz => if y < 0 then ⌈y⌉ else ⌊y⌋
  | .rne => if y - ⌊y⌋ < 1 / 2 ∨ (y - ⌊y⌋ = 1 / 2 ∧ ⌊y⌋ % 2 = 0) then ⌊y⌋ else ⌊y⌋ + 1

end Sys2Proof

/-- Sums and products are exact before they are rounded; an exact zero sum of unlike signs is +0, and −0 in `.rdn`; a product
carries the exclusive OR of the signs; the square root, its reciprocal and the reciprocal are bracketed by what is rounded, finely
enough for one rounding; rounding to integral gives the integer that the mode selects, with the sign of its operand. NaNs, infinities,
zeros and negative operands give what the tables of R225 and R226 say. -/
def Obligations.ArithmeticIsExact : Prop :=
  (∀ (rm : Rm) (a : Sys2Proof.Num) (s t : Bool) (m : Nat) (e : Int),
    Sys2Proof.Num.add rm .nan a = .nan ∧ Sys2Proof.Num.add rm a .nan = .nan ∧ Sys2Proof.Num.mul .nan a = .nan ∧ Sys2Proof.Num.mul a .nan = .nan ∧
    Sys2Proof.Num.add rm (.inf s) (.inf t) = (if s = t then .inf s else .nan) ∧
    Sys2Proof.Num.add rm (.inf s) (.fin t m e) = .inf s ∧ Sys2Proof.Num.add rm (.fin t m e) (.inf s) = .inf s ∧
    Sys2Proof.Num.mul (.inf s) (.inf t) = .inf (s != t) ∧
    Sys2Proof.Num.mul (.inf s) (.fin t m e) = (if m = 0 then .nan else .inf (s != t)) ∧
    Sys2Proof.Num.mul (.fin t m e) (.inf s) = (if m = 0 then .nan else .inf (t != s)) ∧
    fnRnd rm .nan = .nan ∧ fnRnd rm (.inf s) = .inf s ∧ fnRnd rm (.fin s 0 e) = .fin s 0 e) ∧
  (∀ (rm : Rm) (st s : Bool) (e : Int), Fmt.f32.result rm .nan st = 0x7FC00000 ∧
    Fmt.f32.result rm (.inf s) st = (if s then 0xFF800000 else 0x7F800000) ∧
    Fmt.f32.result rm (.fin s 0 e) st = (if s then 0x80000000 else 0)) ∧
  (let all := fun (a : Sys2Proof.Num) => [(fnRcp a).1, (fnRsq a).1, (fnSqrt a).1, (fnExp2 a).1, (fnLog2 a).1];
    all .nan = [.nan, .nan, .nan, .nan, .nan] ∧
    all (.inf true) = [.fin true 0 0, .nan, .nan, .fin false 0 0, .nan] ∧
    all (.inf false) = [.fin false 0 0, .fin false 0 0, .inf false, .inf false, .inf false] ∧
    ∀ (s : Bool) (e : Int), all (.fin s 0 e) = [.inf s, .inf s, .fin s 0 0, .fin false 1 0, .inf true]) ∧
  (∀ (m : Nat) (e : Int), 0 < m → (fnRsq (.fin true m e)).1 = .nan ∧ (fnSqrt (.fin true m e)).1 = .nan ∧ (fnLog2 (.fin true m e)).1 = .nan) ∧
  fnLog2 (.fin false 1 0) = (.fin false 0 0, false) ∧
  (∀ (rm : Rm) (s : Bool) (m : Nat) (e : Int), 0 < m →
    let y : Rat := (if s then -1 else 1) * (m : Rat) * 2 ^ e
    (2 ^ 23 ≤ |y| → fnRnd rm (.fin s m e) = .fin s m e) ∧
    (|y| < 2 ^ 23 → fnRnd rm (.fin s m e) = .fin s (selected rm y).natAbs 0)) ∧
  (∀ (m : Nat) (e : Int), 0 < m → ∃ r h st, fnRsq (.fin false m e) = (.fin false r h, st) ∧ 2 ^ 25 < r ∧
    ((r : Rat) * 2 ^ h) ^ 2 ≤ 1 / ((m : Rat) * 2 ^ e) ∧ 1 / ((m : Rat) * 2 ^ e) < (((r : Rat) + 1) * 2 ^ h) ^ 2 ∧
    (st = false ↔ ((r : Rat) * 2 ^ h) ^ 2 = 1 / ((m : Rat) * 2 ^ e))) ∧
  (∀ (rm : Rm) (s t : Bool) (m n : Nat) (e g : Int), ∃ u k h, Sys2Proof.Num.add rm (.fin s m e) (.fin t n g) = .fin u k h ∧
    Sys2Proof.Num.rat (.fin u k h) = Sys2Proof.Num.rat (.fin s m e) + Sys2Proof.Num.rat (.fin t n g) ∧
    (k = 0 → u = if s = t then s else decide (rm = .rdn))) ∧
  (∀ (s t : Bool) (m n : Nat) (e g : Int), ∃ k h, Sys2Proof.Num.mul (.fin s m e) (.fin t n g) = .fin (s != t) k h ∧
    Sys2Proof.Num.rat (.fin (s != t) k h) = Sys2Proof.Num.rat (.fin s m e) * Sys2Proof.Num.rat (.fin t n g)) ∧
  (∀ (m : Nat) (e : Int), 0 < m → ∃ r h st, fnSqrt (.fin false m e) = (.fin false r h, st) ∧ 2 ^ 25 < r ∧
    ((r : Rat) * 2 ^ h) ^ 2 ≤ (m : Rat) * 2 ^ e ∧ (m : Rat) * 2 ^ e < (((r : Rat) + 1) * 2 ^ h) ^ 2 ∧
    (st = false ↔ ((r : Rat) * 2 ^ h) ^ 2 = (m : Rat) * 2 ^ e)) ∧
  (∀ (s : Bool) (m : Nat) (e : Int), 0 < m → ∃ r h st, fnRcp (.fin s m e) = (.fin s r h, st) ∧ 2 ^ 25 < r ∧
    (r : Rat) * 2 ^ h ≤ 1 / ((m : Rat) * 2 ^ e) ∧ 1 / ((m : Rat) * 2 ^ e) < ((r : Rat) + 1) * 2 ^ h ∧
    (st = false ↔ (r : Rat) * 2 ^ h = 1 / ((m : Rat) * 2 ^ e)))

namespace Sys2Proof

/-- A binary32 source lane. -/
def floatOf (x : Ctx) (r : BitVec 7) (l : Nat) : Num := Fmt.f32.decode (x.v r l).toNat

/-- Latency and the exact (or sticky) value that is rounded once, of each arithmetic instruction on binary32 (R224-R226, R229). -/
def floatRule : Instr → Option (Nat × F64 × (Rm → Ctx → Nat → Num × Bool))
  | .fadd _ f => some (4, f, fun rm x l => ((floatOf x f.a l).add rm (floatOf x f.b l), false))
  | .fsub _ f => some (4, f, fun rm x l => ((floatOf x f.a l).add rm (floatOf x f.b l).neg, false))
  | .fmul _ f => some (5, f, fun _ x l => ((floatOf x f.a l).mul (floatOf x f.b l), false))
  | .ffma _ f => some (5, f, fun rm x l => (((floatOf x f.a l).mul (floatOf x f.b l)).add rm (floatOf x f.c l), false))
  | .frcp _ f => some (12, f, fun _ x l => fnRcp (floatOf x f.a l))
  | .frsq _ f => some (12, f, fun _ x l => fnRsq (floatOf x f.a l))
  | .fsqrt _ f => some (12, f, fun _ x l => fnSqrt (floatOf x f.a l))
  | .fexp2 _ f => some (12, f, fun _ x l => fnExp2 (floatOf x f.a l))
  | .flog2 _ f => some (12, f, fun _ x l => fnLog2 (floatOf x f.a l))
  | .frnd _ f => some (4, f, fun rm x l => (fnRnd rm (floatOf x f.a l), false))
  | _ => none

end Sys2Proof

/-- `fexp2` and `flog2` of a binary32 operand: powers of two are exact, and what is rounded lies within one part in 2^200 of the exact
power, or within 2^-200 of the exact logarithm; an exponent of 256 or more, or of -256 or less, gives a value beyond the range of
binary32 on that side.
(That this decides every rounding is the model's presumption: log 14.) -/
def Obligations.FunctionAccuracy : Prop :=
  (∀ (n : Int), -256 < n → n < 256 → fnExp2 (.fin (decide (n < 0)) n.natAbs 0) = (.fin false 1 n, false)) ∧
  (∀ (n : Int), fnLog2 (.fin false 1 n) = (.fin (decide (n < 0)) n.natAbs 0, false)) ∧
  (∀ (s : Bool) (m : Nat) (e : Int), 0 < m → m < 2 ^ 24 → -149 ≤ e → e ≤ 104 →
    let y : ℝ := (if s then -1 else 1) * (m : ℝ) * (2 : ℝ) ^ e
    (|y| < 256 → ∃ r h st, fnExp2 (.fin s m e) = (.fin false r h, st) ∧
      |(r : ℝ) * (2 : ℝ) ^ h - (2 : ℝ) ^ y| ≤ (2 : ℝ) ^ (-200 : ℤ) * (2 : ℝ) ^ y ∧ (st = true → 2 ^ 25 < r)) ∧
    (256 ≤ |y| → fnExp2 (.fin s m e) = (.fin false 1 (if s then -400 else 400), false))) ∧
  (∀ (m : Nat) (e : Int), 0 < m → m < 2 ^ 24 → -149 ≤ e → e ≤ 104 →
    ∃ u r h st, fnLog2 (.fin false m e) = (.fin u r h, st) ∧
      |(if u then -1 else 1) * (r : ℝ) * (2 : ℝ) ^ h - Real.logb 2 ((m : ℝ) * (2 : ℝ) ^ e)| ≤ (2 : ℝ) ^ (-200 : ℤ) ∧ (st = true → 2 ^ 25 < r))

/-- Arithmetic on binary32: each participating lane receives the value of the rule, rounded once in the mode of MOD, with the tag
F32; `fclass` gives the one bit of the operand's class, with the tag RAW.
`fmin` and `fmax`: with one NaN the other operand, with two the canonical NaN, −0 below +0, and otherwise the smaller or the
larger of the two, whose encoding is the result. -/
def Obligations.FloatResults : Prop :=
  ((∀ (i : Instr) (c : Ctl) (s : State) (g : Nat) (pc : Word) (G0 : Group) (lat : Nat) (f : F64) (r : Rm → Ctx → Nat → Sys2Proof.Num × Bool),
    floatRule i = some (lat, f, r) → i.ctl? = some c → Issues i c s g pc G0 →
    let x := ctxAt i c s g pc G0
    let rm : Rm := if f.mod = 0 then .rne else if f.mod = 1 then .rz else if f.mod = 2 then .rdn else .rup
    Answers i c s g pc G0 (.fixed [(lat, [.v f.d.toNat], x.vres f.d.toNat 1 fun l =>
      BitVec.ofNat 32 (Fmt.f32.result rm (r rm x l).1 (r rm x l).2))])) ∧
  (∀ (c : Ctl) (f : F64) (s : State) (g : Nat) (pc : Word) (G0 : Group), Issues (.fclass c f) c s g pc G0 →
    let x := ctxAt (.fclass c f) c s g pc G0
    Answers (.fclass c f) c s g pc G0 (.fixed [(4, [.v f.d.toNat], x.vres f.d.toNat 0 fun l =>
      let w := (x.v f.a l).toNat
      let sg := 2 ^ 31 ≤ w
      let e := w / 2 ^ 23 % 256
      let m := w % 2 ^ 23
      if e = 255 then (if m ≠ 0 then 0x100#32 else if sg then 1#32 else 0x80#32)
      else if e = 0 then (if m = 0 then (if sg then 8#32 else 0x10#32) else if sg then 4#32 else 0x20#32)
      else if sg then 2#32 else 0x40#32)]))) ∧
  ((∀ (c : Ctl) (f : F64) (s : State) (g : Nat) (pc : Word) (G0 : Group), Issues (.fmin c f) c s g pc G0 → ∃ r : Nat → Lane32,
    let x := ctxAt (.fmin c f) c s g pc G0
    let a := fun l => floatOf x f.a l
    let b := fun l => floatOf x f.b l
    Answers (.fmin c f) c s g pc G0 (.fixed [(4, [.v f.d.toNat], x.vres f.d.toNat 1 r)]) ∧
    ∀ l, (a l = .nan → b l = .nan → r l = 0x7FC00000#32) ∧ (a l = .nan → b l ≠ .nan → r l = x.v f.b l) ∧
      (a l ≠ .nan → b l = .nan → r l = x.v f.a l) ∧
      (a l ≠ .nan → b l ≠ .nan → (a l).le (b l) = true → ((b l).le (a l) = false ∨ (x.v f.a l).msb = true) → r l = x.v f.a l) ∧
      (a l ≠ .nan → b l ≠ .nan → (b l).le (a l) = true → ((a l).le (b l) = false ∨ (x.v f.b l).msb = true) → r l = x.v f.b l) ∧
      (x.v f.a l = x.v f.b l → a l ≠ .nan → r l = x.v f.a l)) ∧
  (∀ (c : Ctl) (f : F64) (s : State) (g : Nat) (pc : Word) (G0 : Group), Issues (.fmax c f) c s g pc G0 → ∃ r : Nat → Lane32,
    let x := ctxAt (.fmax c f) c s g pc G0
    let a := fun l => floatOf x f.a l
    let b := fun l => floatOf x f.b l
    Answers (.fmax c f) c s g pc G0 (.fixed [(4, [.v f.d.toNat], x.vres f.d.toNat 1 r)]) ∧
    ∀ l, (a l = .nan → b l = .nan → r l = 0x7FC00000#32) ∧ (a l = .nan → b l ≠ .nan → r l = x.v f.b l) ∧
      (a l ≠ .nan → b l = .nan → r l = x.v f.a l) ∧
      (a l ≠ .nan → b l ≠ .nan → (a l).le (b l) = true → ((b l).le (a l) = false ∨ (x.v f.b l).msb = false) → r l = x.v f.b l) ∧
      (a l ≠ .nan → b l ≠ .nan → (b l).le (a l) = true → ((a l).le (b l) = false ∨ (x.v f.a l).msb = false) → r l = x.v f.a l) ∧
      (x.v f.a l = x.v f.b l → a l ≠ .nan → r l = x.v f.a l)))

/-! ## Conversions (03 R80-R86, 09 R230-R236) -/

/-- The largest finite magnitude, the infinity where there is one, and the canonical NaN of each target below binary32 (R70). -/
def Sys2Proof.policyTable : List (Fmt × Nat × Option Nat × Nat) :=
  [(.f16, 0x7BFF, some 0x7C00, 0x7E00), (.bf16, 0x7F7F, some 0x7F80, 0x7FC0), (.e4m3, 0x7E, none, 0x7F), (.e5m2, 0x7B, some 0x7C, 0x7E)]

/-- The policy byte, class by class: NaN in bits 7:6, infinity in 5:4, overflow in 3:2, underflow in 1:0; saturate, zero, propagate
or fault. Into binary32 from another format only the NaN field acts; from binary32 itself the infinity field does too. Into integers a propagated value saturates and an underflow is no event. -/
def Obligations.ConversionPolicy : Prop :=
  (∀ (fmt : Fmt) (big : Nat) (infi : Option Nat) (nan : Nat) (rm : Rm) (pol : Nat) (neg : Bool) (m : Nat) (e : Int),
    (fmt, big, infi, nan) ∈ policyTable → pol < 256 →
    let sg := fun (n : Nat) => some ((if neg then 2 ^ (fmt.bits - 1) else 0) + n)
    let cv := fmt.convert rm pol
    let k := (fmt.round rm neg m e false).1
    let q := (fmt.round rm neg m e false).2
    let above := Sys2Proof.Num.rat (fmt.decode big) < (k : Rat) * 2 ^ q
    cv .nan = [some big, some 0, some nan, none].getD (pol / 64) none ∧
    cv (.inf neg) = [sg big, sg 0, sg (infi.getD big), none].getD (pol / 16 % 4) none ∧
    cv (.fin neg 0 e) = sg 0 ∧
    (0 < m → above → cv (.fin neg m e) =
      [sg big, sg 0, if infi.isSome then some (fmt.result rm (.fin neg m e) false) else sg big, none].getD (pol / 4 % 4) none) ∧
    (0 < m → k = 0 → cv (.fin neg m e) = [sg 1, sg 0, sg 0, none].getD (pol % 4) none) ∧
    (0 < m → ¬above → k ≠ 0 → cv (.fin neg m e) = some (fmt.result rm (.fin neg m e) false))) ∧
  (∀ (rm : Rm) (pol : Nat) (neg : Bool), pol < 256 →
    Fmt.f32.convert rm pol .nan = [some 0x7F7FFFFF, some 0, some 0x7FC00000, none].getD (pol / 64) none ∧
    Fmt.f32.convert rm pol (.inf neg) = some (if neg then 0xFF800000 else 0x7F800000) ∧
    Fmt.f32.resolve rm pol (.inf neg) = (([some 0x7F7FFFFF, some 0, some 0x7F800000, none] : List (Option Nat)).getD (pol / 16 % 4) none).map
      fun n => n + if neg then 0x80000000 else 0) ∧
  (∀ (lo hi : Int) (rm : Rm) (pol : Nat) (neg : Bool) (m : Nat) (e : Int), pol < 256 →
    let r : Int := if neg then -(roundQ rm neg m e false 0 : Int) else roundQ rm neg m e false 0
    let edge := some (if neg then lo else hi)
    convertInt lo hi rm pol .nan = [some hi, some 0, some hi, none].getD (pol / 64) none ∧
    convertInt lo hi rm pol (.inf neg) = [edge, some 0, edge, none].getD (pol / 16 % 4) none ∧
    (r < lo ∨ hi < r → convertInt lo hi rm pol (.fin neg m e) = [edge, some 0, edge, none].getD (pol / 4 % 4) none) ∧
    (lo ≤ r → r ≤ hi → convertInt lo hi rm pol (.fin neg m e) = some r))

namespace Sys2Proof

/-- Elements per lane of a float code and of an integer code (R230, R231). -/
def perLane (code : Nat) : Nat := if code ≤ 1 then 1 else if code ≤ 3 then 2 else 4
/-- The range of an integer code: i32, n32, i16, n16, i8, n8. -/
def intRange (code : Nat) : Int × Int := (bottom (code % 2 == 1) (32 / perLane code), top (code % 2 == 1) (32 / perLane code))

/-- An element of a source format read from register `r`, lane `l`; a BFP byte under the register's tag (R55, R233). -/
def sourceOf (x : Ctx) (sf r l raw : Nat) : Num :=
  let t := x.tag (BitVec.ofNat 7 r)
  if sf ≠ 6 then (Fmt.ofCode sf).decode raw
  else
    let p := if t.fmt = 6 then t.pln else 8
    let kept := raw / 2 ^ (8 - p) * 2 ^ (8 - p) + if t.fmt = 6 ∧ t.fill = true ∧ p < 8 then 2 ^ (7 - p) else 0
    let b := readElem false 8 kept
    let e := t.exps.toNat / 2 ^ (8 * (l / 8)) % 256
    if e = 255 then .nan else if e = 0 then .fin false 0 0 else .fin (decide (b < 0)) b.natAbs ((e : Int) - 134)

/-- A set conversion: layout, elements per lane of source and destination, FMT of the destination, and one element's result,
none where the policy says fault (R230-R235). -/
def conversionRule : Instr → Option (F64 × Nat × Nat × Nat × (Ctx → Nat → Nat → Nat → Option Nat))
  | .fcvt _ f =>
      let sf := f.c.toNat % 8
      let df := f.c.toNat / 8 % 8
      some (f, perLane sf, perLane df, df, fun x l r raw => (Fmt.ofCode df).convert (rmOf f.mod.toNat) (policy f) (sourceOf x sf r l raw))
  | .f2i _ f =>
      let sf := f.c.toNat % 8
      let dt := f.c.toNat / 8 % 8
      some (f, perLane sf, perLane dt, 0, fun _ _ _ raw =>
        (convertInt (intRange dt).1 (intRange dt).2 (rmOf f.mod.toNat) (policy f) ((Fmt.ofCode sf).decode raw)).map fun v => (v % 2 ^ 32).toNat)
  | .i2f _ f =>
      let st := f.c.toNat % 8
      let df := f.c.toNat / 8 % 8
      some (f, perLane st, perLane df, df, fun _ _ _ raw =>
        let v := readElem (st % 2 == 1) (32 / perLane st) raw
        (Fmt.ofCode df).convert (rmOf f.mod.toNat) (policy f) (.fin (decide (v < 0)) v.natAbs 0))
  | _ => none

/-- A conversion inside one register and lane (R236): layout, FMT of the destination and the lane's result. -/
def packRule : Instr → Option (F64 × Nat × (Ctx → Nat → Option Lane32))
  | .fpack _ f =>
      let df := f.c.toNat / 8 % 8
      let n := perLane df
      some (f, df, fun x l => ((Fmt.ofCode df).convert (rmOf f.mod.toNat) (policy f) (floatOf x f.a l)).map fun v =>
        packElems (32 / n) ((List.range n).map fun i => if i = f.c.toNat % 4 then v else elem (32 / n) (x.v f.d l) i))
  | .funpk _ f =>
      let sf := f.c.toNat / 8 % 8
      let n := perLane sf
      some (f, 1, fun x l => (Fmt.f32.convert (rmOf f.mod.toNat) (policy f)
        (sourceOf x sf f.a.toNat l (elem (32 / n) (x.v f.a l) (f.c.toNat % 4)))).map (BitVec.ofNat 32))
  | _ => none

end Sys2Proof

/-- A conversion none of whose participating elements selects fault writes its destination set, tagged with the destination's
format, for participating lanes; otherwise it has no effect and raises CONV_FAULT at the lowest lane that holds such an element. -/
def Obligations.ConversionResults : Prop :=
  (∀ (i : Instr) (c : Ctl) (s : State) (g : Nat) (pc : Word) (G0 : Group) (f : F64) (es ed fmt : Nat)
      (cv : Ctx → Nat → Nat → Nat → Option Nat),
    conversionRule i = some (f, es, ed, fmt, cv) → i.ctl? = some c → Issues i c s g pc G0 →
    let x := ctxAt i c s g pc G0
    let n := max es ed
    let one := fun l k => cv x l (f.a.toNat + k % (n / es)) (elem (32 / es) (x.vn (f.a.toNat + k % (n / es)) l) (k / (n / es)))
    ((∀ l ∈ x.part, ∀ k < n, one l k ≠ none) →
      Answers i c s g pc G0 (.fixed [(6, (List.range (n / ed)).map fun j => .v (f.d.toNat + j),
        (List.range (n / ed)).flatMap fun j => x.vres (f.d.toNat + j) fmt fun l =>
          packElems (32 / ed) ((List.range ed).map fun p => (one l (p * (n / ed) + j)).getD 0))])) ∧
    (∀ l ∈ x.part, (∃ k < n, one l k = none) → (∀ l' ∈ x.part, l' < l → ∀ k < n, one l' k ≠ none) →
      Traps i c s g pc G0 0x40 l 0 0)) ∧
  (∀ (i : Instr) (c : Ctl) (s : State) (g : Nat) (pc : Word) (G0 : Group) (f : F64) (fmt : Nat) (r : Ctx → Nat → Option Lane32),
    packRule i = some (f, fmt, r) → i.ctl? = some c → Issues i c s g pc G0 →
    let x := ctxAt i c s g pc G0
    ((∀ l ∈ x.part, r x l ≠ none) →
      Answers i c s g pc G0 (.fixed [(6, [.v f.d.toNat], x.vres f.d.toNat fmt fun l => (r x l).getD 0#32)])) ∧
    (∀ l ∈ x.part, r x l = none → (∀ l' ∈ x.part, l' < l → r x l' ≠ none) → Traps i c s g pc G0 0x40 l 0 0))

/-! ## Block floating point and planes (09 R237-R243) -/

namespace Sys2Proof

/-- A finite number that is not zero; an infinity. -/
def Num.nonzero : Num → Bool
  | .fin _ k _ => k != 0
  | _ => false
def Num.infinite : Num → Bool
  | .inf _ => true
  | _ => false

end Sys2Proof

/-- The selection of R85 for a block. It is special where a NaN or an infinity propagates: exponent 255 and only zeros. Else the
exponent is that of the largest finite magnitude plus 128, one more where an element rounds above the largest integer, 254 where that
is more, 1 where it is at most 1, and one less where this saves more underflows than twice the elements it saturates. Each integer is
its element rounded at the quantum of that exponent; the policy decides NaNs, infinities, overflow at 254 and underflow, and what else
is out of range is clamped. The count is that of the underflows at the exponent, which becomes 0 where every integer is 0.
(That this last test looks at the integers before the policy acts on them is the model's reading of the steps' order: log 19.) -/
def Obligations.BlockSelection : Prop :=
  ∀ (m : Nat) (rm : Rm) (pol : Nat) (v : List Sys2Proof.Num), 2 ≤ m → m ≤ 8 → pol < 256 → v.length ≤ 32 →
    let b := bfpConvert m rm pol v
    let nanAct := pol / 64
    let infAct := pol / 16 % 4
    let mx : Int := 2 ^ (m - 1) - 1
    let mn : Int := -(2 ^ (m - 1))
    let q := fun (x : Sys2Proof.Num) (E : Int) => selected rm (x.rat / (2 : Rat) ^ (E - 126 - m))
    let fin := v.filter Sys2Proof.Num.nonzero
    let special := (.nan ∈ v ∧ nanAct = 2) ∨ (v.any Sys2Proof.Num.infinite = true ∧ infAct = 2)
    let sated := (.nan ∈ v ∧ nanAct = 0) ∨ (v.any Sys2Proof.Num.infinite = true ∧ infAct = 0)
    let under := fun (E : Int) => (fin.filter fun x => q x E == 0).length
    let sat := fun (E : Int) => (fin.filter fun x => decide (mx < q x E) || decide (q x E < mn)).length
    (special → b.exp = 255 ∧ b.ms = v.map (fun _ => 0) ∧ b.under = 0 ∧
      ∀ i, i ∈ b.faults ↔ (v[i]? = some .nan ∧ nanAct = 3) ∨ (∃ s, v[i]? = some (.inf s) ∧ infAct = 3)) ∧
    (¬special → ∃ (E : Int) (past : Prop),
      (fin = [] → ¬past ∧ (sated → E = 254) ∧ (¬sated → E = 0)) ∧
      (fin ≠ [] → ∃ (emax E0 : Int), (∃ x ∈ fin, (2 : Rat) ^ emax ≤ |x.rat|) ∧ (∀ x ∈ fin, |x.rat| < (2 : Rat) ^ (emax + 1)) ∧
        ((∃ x ∈ fin, mx < q x (emax + 128)) → E0 = emax + 129) ∧ ((∀ x ∈ fin, q x (emax + 128) ≤ mx) → E0 = emax + 128) ∧
        (past ↔ 254 < E0) ∧ (254 < E0 → E = 254) ∧ (E0 ≤ 1 → E = 1) ∧
        (1 < E0 → E0 ≤ 254 → 2 * sat (E0 - 1) + under (E0 - 1) < under E0 → E = E0 - 1) ∧
        (1 < E0 → E0 ≤ 254 → under E0 ≤ 2 * sat (E0 - 1) + under (E0 - 1) → E = E0)) ∧
      b.under = under E ∧
      ((∀ x ∈ fin, q x E = 0) ∧ ¬sated → b.exp = 0) ∧ ((∃ x ∈ fin, q x E ≠ 0) ∨ sated → (b.exp : Int) = E) ∧
      b.ms.length = v.length ∧
      (∀ (i : Nat) (x : Sys2Proof.Num), v[i]? = some x → ∃ n : Int, b.ms[i]? = some n ∧
        (x = .nan → n = if nanAct = 0 then mx else 0) ∧
        (∀ s, x = .inf s → n = if infAct = 0 then (if s then mn else mx) else 0) ∧
        (∀ s e, x = .fin s 0 e → n = 0) ∧
        (x.nonzero = true → mn ≤ q x E → q x E ≤ mx → q x E ≠ 0 → n = q x E) ∧
        (x.nonzero = true → q x E = 0 → n = if pol % 4 ≠ 0 then 0 else if x.rat < 0 then -1 else 1) ∧
        (x.nonzero = true → (mx < q x E ∨ q x E < mn) → (past ∧ pol / 4 % 4 = 1 → n = 0) ∧
          (¬(past ∧ pol / 4 % 4 = 1) → n = if mx < q x E then mx else mn))) ∧
      (∀ i, i ∈ b.faults ↔ ∃ x, v[i]? = some x ∧ ((x = .nan ∧ nanAct = 3) ∨ (x.infinite = true ∧ infAct = 3) ∨
        (x.nonzero = true ∧ q x E = 0 ∧ pol % 4 = 3) ∨ (x.nonzero = true ∧ past ∧ (mx < q x E ∨ q x E < mn) ∧ pol / 4 % 4 = 3))))

namespace Sys2Proof

/-- The elements present of block `k` of a source set of `bfpcvt`, under SF. -/
def blockSource (x : Ctx) (f : F64) (k : Nat) : List Num :=
  let sf := f.c.toNat / 8 % 8
  let es := perLane sf
  let n := 4 / es
  (x.part.filter fun l => l / 8 = k).flatMap fun l => (List.range 4).map fun i =>
    (Fmt.ofCode sf).decode (elem (32 / es) (x.vn (f.a.toNat + i % n) l) (i / n))
/-- Blocks of 32 elements (8 lanes) that hold a participating lane. -/
def partBlocks (x : Ctx) : List Nat := (List.range 8).filter fun k => x.part.any fun l => l / 8 = k

/-- Words with a BFP result: layout, field word, each lane's bytes, each written block's exponent (R238, R240, R241). -/
def blockRule : Instr → Option (F64 × Nat × (Ctx → BitVec 16) × (Ctx → Nat → Lane32) × (Ctx → Nat → BitVec 8))
  | .bfpexpSet _ f => some (f, 4, fun x => let t := x.tag f.a; if t.fmt = 6 then fieldWord 6 t.pln t.fill else 0x68#16, fun x l => x.v f.a l,
      fun x k => (x.v f.b ((x.part.filter fun l => l / 8 = k).headD 0)).setWidth 8)
  | .plunpk _ f => some (f, 6, fun _ => BitVec.ofNat 16 (0x60 + f.c.toNat), fun x l => BitVec.ofFnLE fun i =>
        let p := 7 - i.val % 8
        decide (p < f.c.toNat) && (x.v f.a (8 * (l / 8) + p)).getLsbD (4 * (l % 8) + i.val / 8),
      fun x k => BitVec.ofNat 8 ((x.tag f.b).exps.toNat / 2 ^ (8 * k)))
  | .ptrunc _ f => some (f, 4, fun x =>
        let t := x.tag f.a
        let p := min f.c.toNat t.pln
        fieldWord 6 p (decide (p < 8) && if f.mod = 0 then t.fill else f.mod == 2),
      fun x l => BitVec.ofFnLE fun i => decide (7 - i.val % 8 < min f.c.toNat (x.tag f.a).pln) && (x.v f.a l).getLsbD i.val,
      fun x k => BitVec.ofNat 8 ((x.tag f.a).exps.toNat / 2 ^ (8 * k)))
  | _ => none

end Sys2Proof

/-- `bfpcvt` selects an exponent and integers for each block that holds a participating lane, and adds the underflows to UFC; an
element that selects fault raises CONV_FAULT at the lowest lane that holds one, with no effect.
`bfpexp.set`, `plunpk` and, of a BFP register, `ptrunc` write the lanes, the field word, and the exponent of each block that
holds a participating lane; `ptrunc` of another register moves it as `mov` does. `ufc` and `ufc.clr` read and clear the count. -/
def Obligations.BlockResults : Prop :=
  (∀ (c : Ctl) (f : F64) (s : State) (g : Nat) (pc : Word) (G0 : Group), Issues (.bfpcvt c f) c s g pc G0 →
    let x := ctxAt (.bfpcvt c f) c s g pc G0
    let m := f.c.toNat % 8 + 1
    let sel := fun k => bfpConvert m (rmOf f.mod.toNat) (policy f) (blockSource x f k)
    let lanes := fun k => x.part.filter fun l => l / 8 = k
    ((∀ k ∈ partBlocks x, (sel k).faults = []) →
      Answers (.bfpcvt c f) c s g pc G0 (.fixed [(10, [.v f.d.toNat, .ufc],
        .fld f.d.toNat 0x68#16 :: .ufcAdd ((partBlocks x).map fun k => (sel k).under).sum ::
          (partBlocks x).flatMap fun k => .exp f.d.toNat k (BitVec.ofNat 8 (sel k).exp) ::
            (lanes k).zipIdx.map fun (l, n) => .v f.d.toNat l (packElems 8 ((List.range 4).map fun j =>
              (((sel k).ms.getD (4 * n + j) 0 * 2 ^ (8 - m)) % 256).toNat)))])) ∧
    ((∃ k ∈ partBlocks x, (sel k).faults ≠ []) → ∃ l ∈ x.part,
      (∃ k ∈ partBlocks x, ∃ e ∈ (sel k).faults, (lanes k)[e / 4]? = some l) ∧
      (∀ k ∈ partBlocks x, ∀ e ∈ (sel k).faults, ∀ l', (lanes k)[e / 4]? = some l' → l ≤ l') ∧
      Traps (.bfpcvt c f) c s g pc G0 0x40 l 0 0)) ∧
  ((∀ (i : Instr) (c : Ctl) (s : State) (g : Nat) (pc : Word) (G0 : Group) (f : F64) (lat : Nat) (fw : Ctx → BitVec 16)
      (v : Ctx → Nat → Lane32) (ex : Ctx → Nat → BitVec 8),
    blockRule i = some (f, lat, fw, v, ex) → i.ctl? = some c → Issues i c s g pc G0 →
    let x := ctxAt i c s g pc G0
    (i = .ptrunc c f → (x.tag f.a).fmt = 6) →
    Answers i c s g pc G0 (.fixed [(lat, [.v f.d.toNat], .fld f.d.toNat (fw x) :: (x.part.map fun l => .v f.d.toNat l (v x l)) ++
      (partBlocks x).map fun k => .exp f.d.toNat k (ex x k))])) ∧
  (∀ (c : Ctl) (f : F64) (s : State) (g : Nat) (pc : Word) (G0 : Group), Issues (.ptrunc c f) c s g pc G0 →
    let x := ctxAt (.ptrunc c f) c s g pc G0
    (x.tag f.a).fmt ≠ 6 → Answers (.ptrunc c f) c s g pc G0 (.fixed [(4, [.v f.d.toNat], movedWrites x f.d f.a (x.v f.a))])) ∧
  (∀ (c : Ctl) (f : F64) (s : State) (g : Nat) (pc : Word) (G0 : Group), Performs (.ufc c f) c s g pc G0 →
    Answers (.ufc c f) c s g pc G0
      (.fixed [(4, [.s f.d.toNat], [.s f.d.toNat ((readGroup c G0).ufc.setWidth 64)]), (0, [], [.ufcSet 0#32])])) ∧
  (∀ (c : Ctl) (f : F64) (s : State) (g : Nat) (pc : Word) (G0 : Group), Performs (.ufcClr c f) c s g pc G0 →
    Answers (.ufcClr c f) c s g pc G0 (.fixed [(4, [], []), (0, [], [.ufcSet 0#32])])))

/-! ## Lane exchange (08 R215-R221) -/

namespace Sys2Proof

/-- The source lane of `shfl` where it is valid (R216). -/
def shuffled (mode seg i n : Nat) : Option Nat :=
  let k := i % seg
  if mode = 0 then (if n < seg then some (i - k + n) else none)
  else if mode = 1 then (if n ≤ k then some (i - n) else none)
  else if mode = 2 then (if k + n < seg then some (i + n) else none)
  else if Nat.xor k n < seg then some (i - k + Nat.xor k n) else none

end Sys2Proof

/-- `shfl` takes each participating lane's value from its source lane, where that is valid and participates, else from the lane
itself, and says which in pP; the tag is copied from vA.
`bcast` writes, in every participating lane, vA of lane k with the tag copied; where k lies at or above GWIDTH or lane k does
not participate, every participating lane receives its own vA.
`red` is performed at every issue: the reduction over the participating lanes, or its identity, and whether there were any,
in every active lane of the fragment. `match` gives each lane the mask of the lanes with its value, `compact` moves the selected
values down and counts them. -/
def Obligations.LaneExchange : Prop :=
  (∀ (c : Ctl) (f : F64) (s : State) (g : Nat) (pc : Word) (G0 : Group), Issues (.shfl c f) c s g pc G0 →
    let x := ctxAt (.shfl c f) c s g pc G0
    let code := f.c.toNat / 16
    let seg := if code = 0 then x.G.gw else 2 ^ (code + 1)
    let amount := fun l => if f.c.getLsbD 3 then f.b.toNat else (x.v f.b l).toNat
    let source := fun l => (shuffled f.mod.toNat seg l (amount l)).filter (· ∈ x.part)
    Answers (.shfl c f) c s g pc G0 (.fixed [(6, [.v f.d.toNat, .p (f.c.toNat % 8)],
      movedWrites x f.d f.a (fun l => x.v f.a ((source l).getD l)) ++ x.part.map fun l => .p (f.c.toNat % 8) l (source l).isSome)])) ∧
  (∀ (c : Ctl) (f : F64) (s : State) (g : Nat) (pc : Word) (G0 : Group), Issues (.bcast c f) c s g pc G0 →
    let x := ctxAt (.bcast c f) c s g pc G0
    let k := if f.mod = 1 then (x.sreg f.b).toNat else f.c.toNat
    (k ∈ x.part → Answers (.bcast c f) c s g pc G0 (.fixed [(6, [.v f.d.toNat], movedWrites x f.d f.a fun _ => x.v f.a k)])) ∧
    (k ∉ x.part → Answers (.bcast c f) c s g pc G0 (.fixed [(6, [.v f.d.toNat], movedWrites x f.d f.a fun l => x.v f.a l)])) ∧
    (x.G.gw ≤ k → k ∉ x.part)) ∧
  ((∀ (c : Ctl) (f : F64) (s : State) (g : Nat) (pc : Word) (G0 : Group), Issues (.red c f) c s g pc G0 →
    let x := ctxAt (.red c f) c s g pc G0
    Answers (.red c f) c s g pc G0 (.fixed [(10, [.s f.d.toNat, .p f.b.toNat],
      .s f.d.toNat (BitVec.ofInt 64 (combined (f.c.toNat % 8) (f.c.getLsbD 3) (x.part.map (x.v f.a)))) ::
        x.frag.map fun l => .p f.b.toNat l (decide (x.part ≠ [])))])) ∧
  (∀ (c : Ctl) (f : F64) (s : State) (g : Nat) (pc : Word) (G0 : Group), Issues (.matchLanes c f) c s g pc G0 → G0.gw ≤ 64 →
    let x := ctxAt (.matchLanes c f) c s g pc G0
    let mask := fun l => BitVec.ofFnLE (n := 64) fun j => decide (j.val ∈ x.part) && x.v f.a j.val == x.v f.a l
    Answers (.matchLanes c f) c s g pc G0 (.fixed [(8, [.v f.d.toNat, .v (f.d.toNat + 1), .p f.b.toNat],
      x.vres f.d.toNat 0 (fun l => (mask l).setWidth 32) ++ x.vres (f.d.toNat + 1) 0 (fun l => (mask l >>> 32).setWidth 32) ++
        x.part.map fun l => .p f.b.toNat l (decide (∀ i ∈ x.part, ∀ j ∈ x.part, x.v f.a i = x.v f.a j)))])) ∧
  (∀ (c : Ctl) (f : F64) (s : State) (g : Nat) (pc : Word) (G0 : Group), Issues (.compact c f) c s g pc G0 →
    let x := ctxAt (.compact c f) c s g pc G0
    let sel := x.part.filter (x.G.pred f.b.toNat)
    Answers (.compact c f) c s g pc G0 (.fixed [(8, [.v f.d.toNat, .s f.c.toNat],
      movedWrites x f.d f.a (fun l => ((sel[x.part.idxOf l]?).map (x.v f.a)).getD 0#32) ++
        [.s f.c.toNat (BitVec.ofNat 64 sel.length)])])))

/-! ## Paired words, frames, and where results land (06 R160-R170, 02 R48) -/

/-- Each slot of a paired word acts as its 64-bit instruction would: the same writes, with that instruction's latency and
destinations, both from the registers as they stood at issue. -/
def Obligations.PairedSlots : Prop :=
  (∀ (c : Ctl) (p : Pair) (s : State) (g : Nat) (pc : Word) (G0 : Group), Issues (.paired c p) c s g pc G0 →
    let x := ctxAt (.paired c p) c s g pc G0
    let i0 := slotInstr c p.pop0 p.slot0
    let i1 := slotInstr c p.pop1 p.slot1
    ∃ w0 w1, slotComp i0 x = .ok w0 ∧ slotComp i1 x = .ok w1 ∧
      Answers (.paired c p) c s g pc G0
        (.fixed [((latency i0).getD 0, (slotUses x.G.gw i0).2.1, w0), ((latency i1).getD 0, (slotUses x.G.gw i1).2.1, w1)])) ∧
  (∀ (pop : BitVec 8) (f : F64) (c : Ctl) (s : State) (g : Nat) (pc : Word) (G0 : Group), (pairable pop.toNat).isSome = true →
    let j := slotInstr c pop f
    Issues j c s g pc G0 → ∃ ws, slotComp j (ctxAt j c s g pc G0) = .ok ws ∧
      Answers j c s g pc G0 (.fixed [((latency j).getD 0, (slotUses G0.gw j).2.1, ws)])) ∧
  (∀ (j : Instr) (x : Ctx) (n : Word), slotComp j { x with next := n } = slotComp j x)

/-- The register that a write names. -/
def Sys2Proof.named : RegWrite → RegName
  | .v r _ _ | .fld r _ | .exp r _ _ => .v r
  | .s r _ => .s r
  | .p r _ _ => .p r
  | .b r _ => .b r
  | .d r _ => .d r
  | .ufcAdd _ | .ufcSet _ => .ufc

/-- What the record of lane `l` becomes in group `H`: the program counter `pc`, all else but the state as before. An active lane that no
waiting word holds and whose program counter has come to its meeting address is held there (R26); else its state is `st`. -/
def Sys2Proof.MovedTo (H : Group) (l : Nat) (y y' : Lane) (pc : Word) (st : LaneState) : Prop :=
  y'.pc = pc ∧ y'.mt = y.mt ∧ y'.preds = y.preds ∧ y'.st = if st = .active ∧ pc = y.mt ∧ l ∉ H.heldLanes then .heldMeet else st

/-- The frame of every fixed-latency word, paired words among them, that takes no fault: no memory byte, tile, team, launch,
tenancy, core, other group, register, token count or outstanding word changes; the results queued are of its destination
registers (and UFC where the word clears it); the lanes of the fragment stand at the next word, or are held at their meeting. -/
def Obligations.FixedWordFrame : Prop :=
  ∀ (i : Instr) (c : Ctl) (s t : State) (g : Nat) (pc : Word) (G0 : Group),
    (latency i ≠ none ∨ ∃ p, i = .paired c p) → i.ctl? = some c → Issues i c s g pc G0 → exec i s = .next t → (t.group g).stage = .running →
    t = { s with groups := t.groups } ∧ (∀ k, k ≠ g → t.groups[k]? = s.groups[k]?) ∧
    ∃ (H : Group) (new : List FixedWrite), t.groups[g]? = some H ∧
      let G := readGroup c G0
      H.v = G.v ∧ H.s = G.s ∧ H.b = G.b ∧ H.d = G.d ∧ H.ufc = G.ufc ∧ H.w = G.w ∧ H.outst = G.outst ∧ H.levelS = G.levelS ∧
      H.chk = G.chk ∧ H.refill = G.refill ∧ H.rphase = G.rphase ∧ H.rvalid = G.rvalid ∧ H.faults = G.faults ∧
      H.fixed = G.fixed ++ new ∧
      (∀ n ∈ new, ∀ w ∈ n.writes, named w ∈ ((uses G.gw i).fixed.map (·.1)) ∨ (named w = .ufc ∧ ∃ f, i = .ufc c f ∨ i = .ufcClr c f)) ∧
      ∀ l y, G.lanes[l]? = some y → ∃ y', H.lanes[l]? = some y' ∧
        MovedTo H l y y' (if l ∈ G0.fragment pc then nextPc pc i.size else y.pc) y.st

/-- A register read at issue time `t` returns the write with the greatest T + L at or below `t`, the later-issued among equals;
a register that no such write has reached keeps its earlier value. Stated for a scalar, a vector lane and a predicate.
p7 reads as 1 in every lane, and a write to it changes nothing. -/
def Obligations.ResultsLand : Prop :=
  (let newest := fun (G : Group) (t : Nat) (f : FixedWrite) (same : RegWrite → Prop) => f ∈ G.fixed ∧ f.due ≤ t ∧
    ∀ f' ∈ G.fixed, f' ≠ f → f'.due ≤ t → (∃ w ∈ f'.writes, same w) → f'.due < f.due ∨ (f'.due = f.due ∧ f'.seq < f.seq)
  (∀ (G : Group) (t r : Nat) (f : FixedWrite) (x : Word), newest G t f (fun w => ∃ y, w = .s r y) → .s r x ∈ f.writes →
    (∀ y, .s r y ∈ f.writes → y = x) → r < G.s.length → (G.commit t).s[r]? = some x) ∧
  (∀ (G : Group) (t r : Nat), (∀ f ∈ G.fixed, f.due ≤ t → ∀ y, .s r y ∉ f.writes) → (G.commit t).s[r]? = G.s[r]?) ∧
  (∀ (G : Group) (t r l : Nat) (f : FixedWrite) (x : Lane32) (v : VReg), newest G t f (fun w => ∃ y, w = .v r l y) → .v r l x ∈ f.writes →
    (∀ y, .v r l y ∈ f.writes → y = x) → G.v[r]? = some v → l < v.lanes.length →
    ((G.commit t).v[r]?.bind fun v => v.lanes[l]?) = some x) ∧
  (∀ (G : Group) (t r l : Nat), (∀ f ∈ G.fixed, f.due ≤ t → ∀ y, .v r l y ∉ f.writes) →
    ((G.commit t).v[r]?.bind fun v => v.lanes[l]?) = (G.v[r]?.bind fun v => v.lanes[l]?)) ∧
  (∀ (G : Group) (t r l : Nat) (f : FixedWrite) (x : Bool), newest G t f (fun w => ∃ y, w = .p r l y) → .p r l x ∈ f.writes →
    (∀ y, .p r l y ∈ f.writes → y = x) → r < 7 → l < G.lanes.length → (G.commit t).pred r l = x)) ∧
  ((∀ (G : Group) (l : Nat), G.pred 7 l = true) ∧ (∀ (G : Group) (l : Nat) (x : Bool), G.put (.p 7 l x) = G) ∧
  (∀ (G : Group) (r l k : Nat) (x : Bool), r ≠ 7 → r < 7 → k ≠ r → k < 7 → (G.put (.p r l x)).pred k l = G.pred k l))

/-! ## Branches and thread states (07 R182-R190, 01 R25-R37) -/

namespace Sys2Proof

/-- The targets of the lanes that a branch sends away (R184), and the link pair it writes. -/
def transferRule : Instr → Option ((Ctx → List (Nat × Word)) × Option Nat)
  | .bra _ f => some (fun x => x.part.map fun l => (l, x.pc + BitVec.ofInt 64 (4 * f.off.toInt)), none)
  | .brc _ f => some (fun x =>
      if (f.mod = 0 ∧ x.part ≠ []) ∨ (f.mod = 1 ∧ x.part = x.frag) ∨ (1 < f.mod.toNat ∧ x.part = []) then
        x.frag.map fun l => (l, x.pc + BitVec.ofInt 64 (4 * f.off.toInt)) else [], none)
  | .brx _ f => some (fun x => x.part.map fun l => (l, if f.mod = 0 then x.pair f.a l else x.sreg f.a), none)
  | .call _ f => some (fun x => x.part.map fun l => (l, x.pc + BitVec.ofInt 64 (4 * f.off.toInt)), some 0)
  | .callx _ f => some (fun x => x.part.map fun l => (l, if f.mod = 0 then x.pair f.a l else x.sreg f.a), some f.d.toNat)
  | .ret _ f => some (fun x => x.part.map fun l => (l, x.pair f.a l), none)
  | _ => none

/-- A target inside the address space at which an instruction may start (R154, R185). -/
def Fetchable (t : Word) : Prop := t.toNat < 2 ^ 56 ∧ t.toNat % 4 = 0 ∧ t.toNat % 32 ≠ 28

/-- Nothing outside the group `g` differs. -/
def OnlyGroup (s t : State) (g : Nat) : Prop := t = { s with groups := t.groups } ∧ ∀ k, k ≠ g → t.groups[k]? = s.groups[k]?

/-- Registers, counters and outstanding words of a group are those of another. -/
def SameRegisters (G H : Group) : Prop :=
  H.v = G.v ∧ H.s = G.s ∧ H.b = G.b ∧ H.d = G.d ∧ H.ufc = G.ufc ∧ H.w = G.w ∧ H.outst = G.outst ∧ H.fixed = G.fixed ∧
  H.levelS = G.levelS ∧ H.chk = G.chk ∧ H.rphase = G.rphase ∧ H.rvalid = G.rvalid ∧ H.faults = G.faults ∧ H.stage = G.stage

end Sys2Proof

/-- A branch whose targets can be fetched sends the lanes it names to their targets, the fragment's other lanes to the next word,
and no other lane anywhere; without a link it writes no register.
`call` and `callx` leave the return address in the link pair of each participating lane, tagged RAW; no other lane of the pair
and no other register changes.
A branch with a target that cannot be fetched has no effect and faults at the branch: ADDR_NONCANON at the lowest lane whose
target lies at or above 2^56; with none of those, FETCH_BOUNDARY at the lowest lane whose target is no place for an instruction.
(Which of the two comes first where lanes differ is the model's reading, log 31.) -/
def Obligations.Branches : Prop :=
  (∀ (i : Instr) (c : Ctl) (s : State) (g : Nat) (pc : Word) (G0 : Group) (dst : Ctx → List (Nat × Word)) (link : Option Nat),
    transferRule i = some (dst, link) → i.ctl? = some c → Issues i c s g pc G0 →
    let x := ctxAt i c s g pc G0
    (∀ p ∈ dst x, Fetchable p.2) →
    ∃ t H, exec i s = .next t ∧ OnlyGroup s t g ∧ t.groups[g]? = some H ∧ (link = none → SameRegisters (readGroup c G0) H) ∧
      ∀ l y, (readGroup c G0).lanes[l]? = some y → ∃ y', H.lanes[l]? = some y' ∧
        MovedTo H l y y' (if l ∉ x.frag then y.pc else ((dst x).lookup l).getD (nextPc pc i.size)) y.st) ∧
  (∀ (i : Instr) (c : Ctl) (s : State) (g : Nat) (pc : Word) (G0 : Group) (dst : Ctx → List (Nat × Word)) (d : Nat),
    transferRule i = some (dst, some d) → i.ctl? = some c → Issues i c s g pc G0 →
    let x := ctxAt i c s g pc G0
    let G := readGroup c G0
    (∀ p ∈ dst x, Fetchable p.2) → d + 1 < G.v.length → (∀ r ∈ G.v, r.lanes.length = G.gw) →
    ∃ t H, exec i s = .next t ∧ t.groups[g]? = some H ∧ H.s = G.s ∧ H.b = G.b ∧ H.d = G.d ∧ H.ufc = G.ufc ∧ H.w = G.w ∧
      (∀ r, r ≠ d → r ≠ d + 1 → H.v[r]? = G.v[r]?) ∧
      (∀ l ∈ x.part, ((H.v[d]?).bind fun (v : VReg) => v.lanes[l]?) = some ((nextPc pc i.size).setWidth 32) ∧
        ((H.v[d + 1]?).bind fun (v : VReg) => v.lanes[l]?) = some ((nextPc pc i.size >>> 32).setWidth 32)) ∧
      (∀ l, l ∉ x.part → ∀ r : Nat, ((H.v[r]?).bind fun (v : VReg) => v.lanes[l]?) = ((G.v[r]?).bind fun (v : VReg) => v.lanes[l]?)) ∧
      (∀ r, r = d ∨ r = d + 1 → ((H.v[r]?).map fun (v : VReg) => v.tag.field) = some 0#16)) ∧
  (∀ (i : Instr) (c : Ctl) (s : State) (g : Nat) (pc : Word) (G0 : Group) (dst : Ctx → List (Nat × Word)) (link : Option Nat),
    transferRule i = some (dst, link) → i.ctl? = some c → Issues i c s g pc G0 →
    let ts := dst (ctxAt i c s g pc G0)
    (∀ p ∈ ts, 2 ^ 56 ≤ p.2.toNat → (∀ q ∈ ts, q.1 < p.1 → q.2.toNat < 2 ^ 56) → Traps i c s g pc G0 0x11 p.1 0 0) ∧
    (∀ p ∈ ts, ¬Fetchable p.2 → (∀ q ∈ ts, q.2.toNat < 2 ^ 56) → (∀ q ∈ ts, q.1 < p.1 → Fetchable q.2) →
      Traps i c s g pc G0 0x03 p.1 0 0))

/-- `exit`, `done`, `meet` and `meetw` change the participating lanes' state or meeting address and nothing of their registers; the
fragment's other lanes go on. `done` is `exit` where the group has no refill point.
A group whose last lanes exit frees the issue-priority token that it holds; exiting lanes count in each default-form barrier
phase of the team whose N is fixed and in which their group has not arrived, and in no other barrier. -/
def Obligations.ThreadStates : Prop :=
  ((∀ (i : Instr) (c : Ctl) (f : F64) (s : State) (g : Nat) (pc : Word) (G0 : Group), Issues i c s g pc G0 →
    ((i = .exit c f ∨ i = .done c f ∧ G0.refill = none) ∨ (i = .done c f ∧ G0.refill ≠ none) ∨ i = .meetw c f) →
    let x := ctxAt i c s g pc G0
    let gone := i = .exit c f ∨ i = .done c f ∧ G0.refill = none
    let st : LaneState := if gone then .exited else if i = .meetw c f then .heldW else .done
    ∃ t H, exec i s = .next t ∧ t.mem = s.mem ∧ t.hostMem = s.hostMem ∧ t.groups[g]? = some H ∧ SameRegisters (readGroup c G0) H ∧
      (∀ k, k ≠ g → t.groups[k]? = s.groups[k]?) ∧ (¬gone → t.teams = s.teams ∧ t.cores = s.cores) ∧
      ∀ l y, (readGroup c G0).lanes[l]? = some y → ∃ y', H.lanes[l]? = some y' ∧
        (l ∈ x.part → MovedTo H l y y' y.pc st) ∧ (l ∈ x.frag → l ∉ x.part → MovedTo H l y y' (nextPc pc i.size) y.st) ∧
        (l ∉ x.frag → MovedTo H l y y' y.pc y.st)) ∧
  (∀ (c : Ctl) (f : J64) (s : State) (g : Nat) (pc : Word) (G0 : Group), Issues (.meet c f) c s g pc G0 →
    let x := ctxAt (.meet c f) c s g pc G0
    let target := pc + BitVec.ofInt 64 (4 * f.off.toInt)
    (x.part ≠ [] → target.toNat % 32 = 28 → Traps (.meet c f) c s g pc G0 0x03 0 0 0) ∧
    (x.part = [] ∨ target.toNat % 32 ≠ 28 → ∃ t H, exec (.meet c f) s = .next t ∧ OnlyGroup s t g ∧ t.groups[g]? = some H ∧
      SameRegisters (readGroup c G0) H ∧
      ∀ l y, (readGroup c G0).lanes[l]? = some y → ∃ y', H.lanes[l]? = some y' ∧
        MovedTo H l { y with mt := if l ∈ x.part then target else y.mt } y' (if l ∈ x.frag then nextPc pc 8 else y.pc) y.st))) ∧
  (∀ (c : Ctl) (f : F64) (s t : State) (g : Nat) (pc : Word) (G0 : Group), Performs (.exit c f) c s g pc G0 → exec (.exit c f) s = .next t →
    let x := ctxAt (.exit c f) c s g pc G0
    ((∀ l y, G0.lanes[l]? = some y → y.st = .exited ∨ l ∈ x.part) →
      ∀ q : Nat, (t.core G0.core).token[q]? ≠ some (some g)) ∧
    ((∃ l y, G0.lanes[l]? = some y ∧ y.st ≠ .exited ∧ l ∉ x.part) → t.cores = s.cores) ∧
    (∀ k, k ≠ G0.team → t.teams[k]? = s.teams[k]?) ∧
    (∀ T, s.teams[G0.team]? = some T → ∃ T', t.teams[G0.team]? = some T' ∧ T'.bars.length = T.bars.length ∧
      ∀ (k : Nat) (b : Bar), T.bars[k]? = some b →
        ((b.form ≠ 0 ∨ G0.gidx ∈ b.arrived) → T'.bars[k]? = some b) ∧
        (b.form = 0 → G0.gidx ∉ b.arrived → b.count + x.part.length < b.target →
          T'.bars[k]? = some { b with count := b.count + x.part.length }) ∧
        (b.form = 0 → G0.gidx ∉ b.arrived → b.target ≤ b.count + x.part.length →
          T'.bars[k]? = some ⟨0, 0, !b.phase, 2, []⟩)))

/-! ## Words that set a bit of the group or the quarter (07 R182, R190, R192; 13 R328-R330) -/

/-- The words that a group performs once (07 R179), `red` apart, which is performed at every issue. -/
def Sys2Proof.groupWideWord : Instr → Bool
  | .yield .. | .tokpass .. | .tokwait .. | .refill .. | .iqPush .. | .iqLoad .. | .iqCount .. | .spawn .. | .joinc .. | .brk ..
  | .chkOn .. | .chkOff .. | .brecSet .. | .brecx .. | .brecGet .. | .fenceAr .. | .fenceAcq .. | .fenceRel .. | .fenceSysAll ..
  | .feWait .. | .spin .. | .sunpin .. | .fmtset .. | .mma .. | .accZero .. | .accRd .. | .accRdx .. | .accMax .. | .accScl ..
  | .accLd .. | .accDrn .. | .gwalk .. | .cqInit .. | .cqPush .. | .cqPop .. | .cqTop .. | .vfTest .. | .pcopy .. | .pcopyRf ..
  | .pstore .. | .pfill .. | .pxform .. | .qfence .. | .qmark .. | .qwait .. | .csend .. | .cput .. | .cget .. | .catom ..
  | .arrset .. | .arrwait .. | .lease .. | .lrel .. | .lqry .. | .barArv .. | .barWt .. | .barSync .. | .csrrd .. | .csrwr ..
  | .sret .. | .stbinv .. | .spmap .. | .spunmap .. => true
  | _ => false

/-- `chk.on` and `chk.off`, whose operand fields are all zero, set and clear the group's checking-scoreboard bit and complete at issue;
while it is set, every next word is checked against every fixed-latency write that has not reached its register, whenever it was issued. -/
def Obligations.CheckingScoreboard : Prop :=
  (∀ (i : Instr) (c : Ctl) (f : F64) (s : State) (g : Nat) (pc : Word) (G0 : Group), i = .chkOn c f ∨ i = .chkOff c f → Performs i c s g pc G0 →
    let G := readGroup c G0
    ∃ t H, exec i s = .next t ∧ OnlyGroup s t g ∧ t.groups[g]? = some H ∧ H.chk = decide (i = .chkOn c f) ∧
      SameRegisters { G with chk := decide (i = .chkOn c f) } H) ∧
  (∀ (c : Ctl) (f : F64), WellFormed (.chkOn c f) = true ∨ WellFormed (.chkOff c f) = true → f = ⟨0, 0, 0, 0, 0⟩) ∧
  (∀ (G : Group) (t : Nat) (u : Uses), G.undersize t u = true ↔ G.chk = true ∧ ∃ f ∈ G.fixed, t < f.due ∧ ∃ r ∈ f.regs,
    r ∈ u.reads ∨ ∃ w ∈ u.fixed, w.1 = r ∧ t + w.2 ≤ f.due)

/-- `nop` only issues; `yield` ends the stickiness of the fragment, so that a fragment that shares a slice with it goes next.
(That it leaves the fairness count as it is is the model's choice: log 37.)
The issue-priority token: `tokpass` by its holder hands it to the resident partner on the quarter, or frees it; by another group
it does nothing. `tokwait` takes a free token, goes on where the group holds it, and waits where another group does.
`brk` takes BREAK with its code in INFO, and a resumed group continues at the next word; `assert` takes ASSERT, a fault of class
LAUNCH, at the lowest participating lane that fails the test, with the message's address, and otherwise only issues. -/
def Obligations.ControlWords : Prop :=
  ((∀ (c : Ctl) (f : F64) (s : State) (g : Nat) (pc : Word) (G0 : Group), Issues (.nop c f) c s g pc G0 →
    ∃ t H, exec (.nop c f) s = .next t ∧ OnlyGroup s t g ∧ t.groups[g]? = some H ∧ SameRegisters (readGroup c G0) H ∧
      H.seq = G0.seq + 1 ∧ H.t = G0.issueT c ∧ H.stall = c.stall.toNat ∧
      ∀ l y, (readGroup c G0).lanes[l]? = some y → ∃ y', H.lanes[l]? = some y' ∧
        MovedTo H l y y' (if l ∈ G0.fragment pc then nextPc pc 8 else y.pc) y.st) ∧
  (∀ (c : Ctl) (f : F64) (s : State) (g : Nat) (pc : Word) (G0 : Group), Performs (.yield c f) c s g pc G0 →
    ∃ t H, exec (.yield c f) s = .next t ∧ OnlyGroup s t g ∧ t.groups[g]? = some H ∧ SameRegisters (readGroup c G0) H ∧
      H.lastIssue = s.clock ∧ H.fairness = G0.fairness ∧
      H.forced = (G0.fragment pc).filter (fun l => (H.laneAt l).st == .active) ∧
      (∀ l, l ∈ H.sticky ↔ l ∈ G0.sticky ∧ slicesMeet [l] (G0.fragment pc) = false) ∧
      ∀ l y, (readGroup c G0).lanes[l]? = some y → ∃ y', H.lanes[l]? = some y' ∧
        MovedTo H l y y' (if l ∈ G0.fragment pc then nextPc pc 8 else y.pc) y.st)) ∧
  ((∀ (c : Ctl) (f : F64) (s : State) (g : Nat) (pc : Word) (G0 : Group), Performs (.tokpass c f) c s g pc G0 →
    let x := ctxAt (.tokpass c f) c s g pc G0
    let p := if f.mod = 0 then (x.sreg f.a).toNat % 2 ^ 32 else f.c.toNat
    let resident := fun k => x.team.groups[p]? = some k ∧ (x.s.group k).core = G0.core ∧ (x.s.group k).quarter = G0.quarter ∧
      (x.s.group k).stage ≠ .retired
    (x.s.holder x.G ≠ some g → Answers (.tokpass c f) c s g pc G0 (.go x.s)) ∧
    (∀ k, x.s.holder x.G = some g → resident k → Answers (.tokpass c f) c s g pc G0 (.go (x.s.setHolder x.G (some k)))) ∧
    (x.s.holder x.G = some g → (∀ k, ¬resident k) → Answers (.tokpass c f) c s g pc G0 (.go (x.s.setHolder x.G none)))) ∧
  (∀ (c : Ctl) (f : F64) (s : State) (g : Nat) (pc : Word) (G0 : Group), Performs (.tokwait c f) c s g pc G0 →
    let x := ctxAt (.tokwait c f) c s g pc G0
    (x.s.holder x.G = none → Answers (.tokwait c f) c s g pc G0 (.go (x.s.setHolder x.G (some g)))) ∧
    (x.s.holder x.G = some g → Answers (.tokwait c f) c s g pc G0 (.go x.s)) ∧
    (∀ k, k ≠ g → x.s.holder x.G = some k → Answers (.tokwait c f) c s g pc G0 (.hold x.s { x.oword [] .tokWait with held := x.frag })))) ∧
  ((∀ (c : Ctl) (f : F64) (s : State) (g : Nat) (pc : Word) (G0 : Group), Performs (.brk c f) c s g pc G0 →
    let x := ctxAt (.brk c f) c s g pc G0
    exec (.brk c f) s = .next ((x.s.backOut g G0).groupFault g ⟨0x51, 0, 0, f.c.toNat, pc, 0, false, G0.fragment pc, nextPc pc 8, true, 0⟩)) ∧
  (∀ (c : Ctl) (f : M96) (s : State) (g : Nat) (pc : Word) (G0 : Group), Issues (.assert c f) c s g pc G0 →
    let x := ctxAt (.assert c f) c s g pc G0
    let fails := fun l => x.G.pred f.a.toNat l = decide (f.mod = 1)
    ((∀ l ∈ x.part, ¬fails l) → Answers (.assert c f) c s g pc G0 (.go x.s)) ∧
    (∀ l ∈ x.part, fails l → (∀ l' ∈ x.part, l' < l → ¬fails l') →
      exec (.assert c f) s = .next ((x.s.backOut g G0).groupFault g
        ⟨0x50, 1, l, 0, pc, (BitVec.ofInt 64 (((x.breg f.b).toNat % 2 ^ 56 : Nat) + f.imm.toInt)).toNat, false, G0.fragment pc,
          nextPc pc 12, false, 0⟩))))

/-! ## Item queue, spawn and join (01 R33-R42, 07 R189-R198) -/

/-- The item queue: a push appends, in lane order, once there is room, as a release at `.team`; a load removes the oldest items, one
for each participating lane from the lowest, and says which lanes received one; a count reads the number of entries; a share of no
entries is ILLEGAL_INSTR.
(That a push waits for its release first is the model's choice: log 5.)
`refill` sets the refill point, its exit target and its register pair, and at once takes the oldest items of the share, one for each
done lane from the lowest: the lane's pair takes the item, tagged RAW, the lane becomes active after the word, and it acquires at `.team`;
done lanes without an item stay done. An exit target that cannot be fetched is FETCH_BOUNDARY. -/
def Obligations.QueueWords : Prop :=
  ((∀ (i : Instr) (c : Ctl) (f : F64) (s : State) (g : Nat) (pc : Word) (G0 : Group), i = .iqPush c f ∨ i = .iqLoad c f → Performs i c s g pc G0 →
    (ctxAt i c s g pc G0).shareRoom = 0 → Traps i c s g pc G0 0x01 0 0 0) ∧
  (∀ (c : Ctl) (f : F64) (s : State) (g : Nat) (pc : Word) (G0 : Group), Performs (.iqPush c f) c s g pc G0 →
    let x := ctxAt (.iqPush c f) c s g pc G0
    let new := if f.mod = 0 then x.part.map fun l => x.pair f.a l else [x.sreg f.a]
    0 < x.shareRoom → (x.s.share g).length + new.length ≤ x.shareRoom → x.s.relCheck g 2 = .ok →
      Answers (.iqPush c f) c s g pc G0 (.go (x.s.setShare g (x.s.share g ++ new)))) ∧
  (∀ (c : Ctl) (f : F64) (s : State) (g : Nat) (pc : Word) (G0 : Group), Performs (.iqPush c f) c s g pc G0 →
    let x := ctxAt (.iqPush c f) c s g pc G0
    0 < x.shareRoom → x.shareRoom < (x.s.share g).length + (if f.mod = 0 then x.part.length else 1) →
      Answers (.iqPush c f) c s g pc G0 (.stall x.s .itemRoom false)) ∧
  (∀ (c : Ctl) (f : F64) (s : State) (g : Nat) (pc : Word) (G0 : Group), Performs (.iqLoad c f) c s g pc G0 →
    let x := ctxAt (.iqLoad c f) c s g pc G0
    let q := x.s.share g
    let got := x.part.zip q
    0 < x.shareRoom →
      let taken : State := (x.s.setShare g (q.drop x.part.length)).modGroup g fun G =>
        G.putVar (itemWrites f.d.toNat got ++ x.part.zipIdx.map fun (l, k) => .p f.b.toNat l (decide (k < q.length)))
      Answers (.iqLoad c f) c s g pc G0 (.go (if q = [] then taken else taken.l1Acquire G0.core 2))) ∧
  (∀ (c : Ctl) (f : F64) (s : State) (g : Nat) (pc : Word) (G0 : Group), Performs (.iqCount c f) c s g pc G0 →
    let x := ctxAt (.iqCount c f) c s g pc G0
    Answers (.iqCount c f) c s g pc G0 (.go (x.s.modGroup g fun G => G.putVar [.s f.d.toNat (BitVec.ofNat 64 (x.s.share g).length)])))) ∧
  ((∀ (d : Nat) (got : List (Nat × Word)), ∀ p ∈ got, p.1 < 64 →
    .v d p.1 (p.2.setWidth 32) ∈ itemWrites d got ∧ .v (d + 1) p.1 ((p.2 >>> 32).setWidth 32) ∈ itemWrites d got ∧
    ∀ e, e = d ∨ e = d + 1 → .fld e 0#16 ∈ itemWrites d got ∧ .exp e (p.1 / 8) 0#8 ∈ itemWrites d got) ∧
  ∀ (c : Ctl) (f : F64) (s : State) (g : Nat) (pc : Word) (G0 : Group), Performs (.refill c f) c s g pc G0 →
    let x := ctxAt (.refill c f) c s g pc G0
    let target := pc + BitVec.ofInt 64 (4 * (f.c ++ f.b ++ f.a).toInt)
    let marked := x.s.modGroup g fun G => { G with refill := some ⟨pc, target, f.d.toNat⟩ }
    let got := x.G.doneLanes.zip (x.s.share g)
    (target.toNat % 32 = 28 → Traps (.refill c f) c s g pc G0 0x03 0 0 0) ∧
    (target.toNat % 32 ≠ 28 → got ≠ [] → Answers (.refill c f) c s g pc G0
      (.go (((marked.setShare g ((x.s.share g).drop x.G.doneLanes.length)).modGroup g fun G =>
        ((G.putVar (itemWrites f.d.toNat got)).modLanes (got.map (·.1)) fun y => { y with st := .active, pc := nextPc pc 8 }).settle).l1Acquire
          G0.core 2))) ∧
    (target.toNat % 32 ≠ 28 → ∃ t H, exec (.refill c f) s = .next t ∧ t.groups[g]? = some H ∧ t.mem = s.mem ∧
      H.refill = some ⟨pc, target, f.d.toNat⟩ ∧
      (∀ l ∈ x.G.doneLanes.drop (x.s.share g).length, (H.laneAt l).st = .done) ∧
      (∀ (k l : Nat), (x.G.doneLanes.take (x.s.share g).length)[k]? = some l → (H.laneAt l).pc = nextPc pc 8 ∧
        ((H.laneAt l).st = .active ∨ (H.laneAt l).st = .heldMeet ∧ (H.laneAt l).mt = nextPc pc 8)) ∧
      (x.G.doneLanes = [] ∨ x.s.share g = [] → Answers (.refill c f) c s g pc G0 (.go marked))))

/-! ## Buffer records (02 R56-R59, 10 R251-R253) -/

/-- Field codes of a buffer record: lowest bit and width (R252). -/
def Sys2Proof.recordFields : List (Nat × Nat) :=
  [(252, 4), (248, 4), (247, 1), (240, 4), (192, 40), (168, 24), (128, 40), (104, 24), (64, 40), (0, 56)]

/-- The set forms write one field of a copy of bA, the get form reads one, and a value too wide for its field faults: a base with
ADDR_NONCANON, any other with RESERVED_FIELD. The NULL code takes the value 0 only. `bchk` tells in each participating lane whether
its bytes are in bounds. -/
def Obligations.RecordWords : Prop :=
  (∀ (i : Instr) (c : Ctl) (d a : BitVec 7) (code v : Nat) (s : State) (g : Nat) (pc : Word) (G0 : Group), Performs i c s g pc G0 →
    let x := ctxAt i c s g pc G0
    let r := x.breg a
    ((∃ f, i = .brecSet c f ∧ d = f.d ∧ a = f.a ∧ code = f.c.toNat ∧ v = (x.sreg f.b).toNat) ∨
     (∃ w, i = .brecx c w ∧ d = w.d ∧ a = w.a ∧ code = w.c.toNat ∧ v = (w.y ++ w.x).toNat)) →
    (∀ lo w : Nat, recordFields[code]? = some (lo, w) → v < 2 ^ w →
      Answers i c s g pc G0 (.go (x.s.modGroup g fun G => G.putVar [.b d.toNat (BitVec.ofFnLE fun k =>
        if lo ≤ k.val ∧ k.val < lo + w then v.testBit (k.val - lo) else r.getLsbD k.val)]))) ∧
    (∀ lo w : Nat, recordFields[code]? = some (lo, w) → 2 ^ w ≤ v → Traps i c s g pc G0 (if code = 9 then 0x11 else 0x02) 0 0 0) ∧
    (code = 10 → v = 0 → Answers i c s g pc G0 (.go (x.s.modGroup g fun G => G.putVar [.b d.toNat 0#256]))) ∧
    (code = 10 → v ≠ 0 → Traps i c s g pc G0 0x02 0 0 0)) ∧
  (∀ (c : Ctl) (f : F64) (s : State) (g : Nat) (pc : Word) (G0 : Group) (lo w : Nat), Performs (.brecGet c f) c s g pc G0 →
    recordFields[f.c.toNat]? = some (lo, w) →
    let x := ctxAt (.brecGet c f) c s g pc G0
    Answers (.brecGet c f) c s g pc G0 (.go (x.s.modGroup g fun G =>
      G.putVar [.s f.d.toNat (BitVec.ofNat 64 ((x.breg f.a).toNat / 2 ^ lo % 2 ^ w))]))) ∧
  (∀ (c : Ctl) (f : F64) (s : State) (g : Nat) (pc : Word) (G0 : Group), Issues (.bchk c f) c s g pc G0 →
    let x := ctxAt (.bchk c f) c s g pc G0
    let r := (x.breg f.b).toNat
    let n := sizeOf' (f.b.toNat / 16)
    let off := fun (l : Nat) => if f.mod = 0 then ((x.v f.a l).toNat : Int) + f.c.toInt
      else if f.mod = 1 then (x.sreg f.a).toInt + f.c.toInt + l * n else (x.sreg f.a).toInt + f.c.toInt
    (x.part = [] → Answers (.bchk c f) c s g pc G0 (.go x.s)) ∧
    (x.part ≠ [] → recBad r [1, 2, 3] = true → Traps (.bchk c f) c s g pc G0 0x02 (x.part.headD 0) 0 0) ∧
    (x.part ≠ [] → recBad r [1, 2, 3] = false → Answers (.bchk c f) c s g pc G0 (.go (x.s.modGroup g fun G => G.putVar (x.part.map fun l =>
      .p f.d.toNat l (decide (r / 2 ^ 252 % 16 ≠ 0 ∧ 0 ≤ off l ∧ off l + n ≤ r / 2 ^ 64 % 2 ^ 40)))))))

/-! ## The checks before a global access (10 R246-R250) -/

namespace Sys2Proof

/-- The offset of a lane: from vA, or from sA with one element per lane, or from sA (R246). -/
def laneOffset (x : Ctx) (mod : BitVec 2) (a : BitVec 7) (imm : Int) (n l : Nat) : Int :=
  if mod = 0 then ((x.v a l).toNat : Int) + imm
  else if mod = 1 then (x.sreg a).toInt + imm + l * n else (x.sreg a).toInt + imm

/-- Words that access KIND 1 and 2 records lane by lane: the record, the lanes' offsets, the size and what is done. -/
def accessRule : Instr → Option (Ctx → Nat × (Nat → Int) × Nat × How)
  | .ld _ f => some fun x => ((x.breg f.b).toNat, laneOffset x f.mod f.a f.imm.toInt (sizeOf' (f.c.toNat / 16)), sizeOf' (f.c.toNat / 16), .load)
  | .st _ f => some fun x => ((x.breg f.b).toNat, laneOffset x f.mod f.a f.imm.toInt (sizeOf' (f.c.toNat / 16)), sizeOf' (f.c.toNat / 16), .store)
  | .atom _ f => some fun x => let n := if f.imm.getLsbD 21 then 8 else 4
      ((x.breg f.b).toNat, laneOffset x f.mod f.a (f.imm.setWidth 16).toInt n, n, .atomic (atomHostOk (f.imm.toNat / 2 ^ 16 % 16)))
  | _ => none

/-- Steps 1 to 4 pass for a record `r`, lanes `ls` with offsets `off` and size `n`. -/
structure AccessOk (r : Nat) (ls : List Nat) (off : Nat → Int) (n : Nat) : Prop where
  record : recBad r [1, 2] = false
  bounds : recStrict r = true → ∀ l ∈ ls, recIn r (off l) n = true
  range : ∀ l ∈ ls, recIn r (off l) n = true → recAddr r (off l).toNat < 2 ^ 56 ∧ recAddr r ((off l).toNat + n - 1) < 2 ^ 56
  aligned : ∀ l ∈ ls, recIn r (off l) n = true → recAddr r (off l).toNat % n = 0 ∧
    (recKind r = 2 → (off l).toNat / recRowb r = ((off l).toNat + n - 1) / recRowb r)

/-- The lanes in bounds with their addresses; the others are dropped (R249). -/
def liveLanes (r : Nat) (ls : List Nat) (off : Nat → Int) (n : Nat) : List (Nat × Nat) :=
  (ls.filter fun l => recIn r (off l) n).map fun l => (l, recAddr r (off l).toNat)
def droppedLanes (r : Nat) (ls : List Nat) (off : Nat → Int) (n : Nat) : List Nat := ls.filter fun l => !(recIn r (off l) n)

/-- No earlier SO access of the group is open, of its words and of its engine commands, where this one lies on an SO page (05 R120, R121). -/
def SoFree (x : Ctx) (ls : List XLine) : Prop :=
  (∃ l ∈ ls, l.kind = .so) → (∀ o ∈ x.G.outst, o.so = false) ∧ x.s.soCmds x.tid x.g x.G.seq = false

/-- What a store or atomic finds before it: on UN pages alone nothing; with a scope, what all before it is performed; without one, what
comes before the last `fence.rel` (05 R128, R131, R135). -/
def releaseFinds (x : Ctx) (scope : Nat) (un : Bool) : Rel :=
  if un = true then .ok else if scope = 0 then
    (match x.G.fence with | none => .ok | some n => x.s.relUpTo x.g 4 fun k => decide (k < n))
  else x.s.relCheck x.g scope

end Sys2Proof

/-- The checks of a global access come in the order of the rule, each over every participating lane before the next, the lowest lane
that fails naming the fault: the record, bounds of a STRICT record, the address range, alignment, then translation; a fault leaves no
lane performed, and a translation in hand keeps the word waiting with its fetch suspended. -/
def Obligations.AccessChecksInOrder : Prop :=
  ∀ (i : Instr) (c : Ctl) (s : State) (g : Nat) (pc : Word) (G0 : Group) (rule : Ctx → Nat × (Nat → Int) × Nat × How),
    accessRule i = some rule → i.ctl? = some c → Performs i c s g pc G0 →
    let x := ctxAt i c s g pc G0
    let r := (rule x).1
    let off := (rule x).2.1
    let n := (rule x).2.2.1
    let inb := fun l => recIn r (off l) n = true
    let strictOk := recStrict r = true → ∀ l ∈ x.part, inb l
    let rangeBad := fun l => inb l ∧ (2 ^ 56 ≤ recAddr r (off l).toNat ∨ 2 ^ 56 ≤ recAddr r ((off l).toNat + n - 1))
    let alignBad := fun l => inb l ∧ (recAddr r (off l).toNat % n ≠ 0 ∨
      (recKind r = 2 ∧ (off l).toNat / recRowb r ≠ ((off l).toNat + n - 1) / recRowb r))
    let first := fun (P : Nat → Prop) (l : Nat) => l ∈ x.part ∧ P l ∧ ∀ k ∈ x.part, k < l → ¬P k
    (recBad r [1, 2] = true → Traps i c s g pc G0 0x02 (x.part.headD 0) 0 0) ∧
    (recBad r [1, 2] = false → recStrict r = true → ∀ l, first (fun k => ¬inb k) l → Traps i c s g pc G0 0x10 l 0 0) ∧
    (recBad r [1, 2] = false → strictOk → ∀ l, first rangeBad l →
      Traps i c s g pc G0 (if 2 ^ 56 ≤ recAddr r (off l).toNat then 0x11 else 0x12) l (recAddr r (off l).toNat) 0) ∧
    (recBad r [1, 2] = false → strictOk → (∀ l ∈ x.part, ¬rangeBad l) → ∀ l, first alignBad l →
      Traps i c s g pc G0 0x13 l (recAddr r (off l).toNat) 0) ∧
    (AccessOk r x.part off n → ∀ s' code lane va info,
      x.s.xlateAll g x.G x.ten pc (rule x).2.2.2 (liveLanes r x.part off n) = .fault s' code lane va info →
      exec i s = .next ((s'.backOut g G0).groupFault g (x.flt code lane va info))) ∧
    (AccessOk r x.part off n → ∀ s' w, x.s.xlateAll g x.G x.ten pc (rule x).2.2.2 (liveLanes r x.part off n) = .wait s' w →
      exec i s = .next (stallAt g G0 pc w true s'))

/-! ## Loads, stores, prefetch (10 R254-R260, R267; 05 R124) -/

/-- The word leaves the fragment and is outstanding once its core has room for its accesses `as`: those to pages of peers that nothing
earlier holds back leave at once; without room it waits. -/
def Sys2Proof.outOnce (x : Ctx) (as : List Acc) (w : OWord) : Res :=
  if x.fits as = true then .out (x.s.sendWord x.g x.G w).2 (x.s.sendWord x.g x.G w).1 else .stall x.s .other true

/-- A load that passes its checks issues: it is outstanding with one access for each lane in bounds; dropped lanes will receive
zeros, and the tags RAW. A store takes its bytes at issue, after its release if it carries one, and one that carries none after what a
`fence.rel` before it names; where a peer's acknowledgement of what comes before will never come it takes PEER_DEAD. Where no page belongs
to a peer, nothing but the group changes. Without a participating lane they only issue.
(When an access is performed, and that a core's requests have a limit that a word waits for, is the model's reading: log 4.)
Plane loads, refines and stores that pass the plane checks issue: a load or refine with a request for each assembled line that holds
an element of a participating lane, for planes 0 (or, for a refine of a BFP register, the first it lacks) up to the number asked for, and
with vD as it stands; a store with, for each block, the exponent byte of the tag and masked chunks that hold the bits of its participating
lanes' elements in bounds, and nothing else: a chunk without such an element is not written. A refine that already holds every plane, and any of the three with no participating lane, only issues. A check
that fails faults.
(When an access is performed, and that a core's requests have a limit that a word waits for, is the model's reading: log 4.)
`pref` raises no fault whatever its operands: it changes no memory byte, no register and no other group. Each participating lane in
bounds prefetches the line at its address, or at its element the chunks of a plane set, having raised the walks of what misses in the
TLBs, for which it waits where there is no room; a record that a check refuses, and a plane set whose base or strides are not multiples
of 128, prefetch nothing.
(One byte a lane, and the planes for k = 0 at `.l2`, are the model's choice: log 38.) -/
def Obligations.AccessesIssue : Prop :=
  ((∀ (c : Ctl) (f : M96) (s : State) (g : Nat) (pc : Word) (G0 : Group) (ls : List XLine), Performs (.ld c f) c s g pc G0 →
    let x := ctxAt (.ld c f) c s g pc G0
    let sz := f.c.toNat / 16
    let n := sizeOf' sz
    let r := (x.breg f.b).toNat
    let off := laneOffset x f.mod f.a f.imm.toInt n
    let as := mkAccs (liveLanes r x.part off n) ls n fun _ => []
    AccessOk r x.part off n → x.s.xlateAll g x.G x.ten pc .load (liveLanes r x.part off n) = .ok ls → SoFree x ls →
    Answers (.ld c f) c s g pc G0 (outOnce x as
      { x.oword ((List.range (dataRegs sz)).map fun k => .v (f.d.toNat + k)) (.load as sz f.d.toNat (f.c.getLsbD 3)
          ((List.range (dataRegs sz)).flatMap fun k => plainTag (f.d.toNat + k) 0 x.frag ++
            (droppedLanes r x.part off n).map fun l => .v (f.d.toNat + k) l 0#32)) with
        acq := if unAll as then 0 else f.b.toNat / 16, isLoad := true, unOnly := unAll as, so := soAny as })) ∧
  (∀ (c : Ctl) (f : M96) (s : State) (g : Nat) (pc : Word) (G0 : Group) (ls : List XLine), Performs (.st c f) c s g pc G0 →
    let x := ctxAt (.st c f) c s g pc G0
    let n := sizeOf' (f.c.toNat / 16)
    let r := (x.breg f.b).toNat
    let off := laneOffset x f.mod f.a f.imm.toInt n
    let as := mkAccs (liveLanes r x.part off n) ls n fun l => natToBytes n ((List.range 4).foldr (fun k v => (x.vn (f.d.toNat + k) l).toNat + 2 ^ 32 * v) 0)
    AccessOk r x.part off n → x.s.xlateAll g x.G x.ten pc .store (liveLanes r x.part off n) = .ok ls → SoFree x ls →
    let finds := releaseFinds x (f.b.toNat / 16) (unAll as)
    (finds = .ok → Answers (.st c f) c s g pc G0 (outOnce x as
      { x.oword [] (.store as) with isStore := true, unOnly := unAll as, so := soAny as })) ∧
    (finds = .wait → Answers (.st c f) c s g pc G0 (.stall x.s .acks true)) ∧
    (∀ s' p, finds = .dead s' p → Traps (.st c f) c s g pc G0 0x33 0 0 p)) ∧
  (∀ (x : Ctx) (w : OWord), (∀ a ∈ w.accs, ∀ p, a.own ≠ .peer p) → x.s.sendWord x.g x.G w = (w, x.s)) ∧
  (∀ (i : Instr) (c : Ctl) (f : M96) (s : State) (g : Nat) (pc : Word) (G0 : Group), i = .ld c f ∨ i = .st c f ∨ i = .atom c f →
    Issues i c s g pc G0 → participants c pc G0 = [] → Answers i c s g pc G0 (.go (ctxAt i c s g pc G0).s))) ∧
  ((∀ (i : Instr) (c : Ctl) (f : M96) (s : State) (g : Nat) (pc : Word) (G0 : Group), i = .ldpl c f ∨ i = .ldrf c f → Performs i c s g pc G0 →
    let x := ctxAt i c s g pc G0
    let r := (x.breg f.b).toNat
    let o := (x.sreg f.a).toInt + f.imm.toInt
    let kk := min (f.c.toNat % 16) (recMw r)
    let refine := decide (i = .ldrf c f ∧ (x.tag f.d).fmt = 6)
    let p := if refine = true then (x.tag f.d).pln else 0
    let nothing := refine = true ∧ (p = 8 ∨ kk ≤ p)
    let need := fun l => (laneLines r o l).flatMap fun a =>
      (if refine = true then [] else [(expAddr r (4 * a), 4)]) ++
        (List.range kk).filterMap fun j => if p ≤ j then some (planeAddr r j (128 * a), 16) else none
    (∀ reqs, nothing → x.planeCheck r o (fun _ => []) = .ok reqs → Answers i c s g pc G0 (.go x.s)) ∧
    (∀ reqs ls, ¬nothing → x.planeCheck r o need = .ok reqs → x.s.xlateAll g x.G x.ten pc .load (reqs.map fun q => (q.1, q.2.1)) = .ok ls →
      SoFree x ls → ∃ rs : List AsmReq,
        (∀ l ∈ x.part, ∀ a ∈ laneLines r o l, ∃ q ∈ rs, q.a = a) ∧ (∀ q ∈ rs, ∃ l ∈ x.part, q.a ∈ laneLines r o l) ∧
        (∀ q ∈ rs, q.pstride = recPstride r ∧ q.mw = recMw r ∧ (q.exp.va, q.exp.size) = (expAddr r (4 * q.a), 4) ∧
          q.pieces.map (fun a => (a.lane, a.va, a.size)) = ((List.range kk).filter fun j => p ≤ j).map fun j => (j, planeAddr r j (128 * q.a), 16)) ∧
        let as := rs.flatMap fun q => q.accs refine
        Answers i c s g pc G0 (outOnce x as { x.oword [.v f.d.toNat] (.plane rs
          { d := f.d.toNat, o := o, extent := recExtent r, kk := kk, p := p
            field := fieldWord 6 (if kk = recMw r then 8 else kk) (decide (kk ≠ recMw r ∧ kk < 8) && f.c.getLsbD 4)
            fresh := f.c.getLsbD 5, refine := refine, part := x.part, old := (List.range x.G.gw).map (x.v f.d), known := [] }) with
          acq := if unAll as then 0 else f.b.toNat / 16, isLoad := true, unOnly := unAll as, so := soAny as })) ∧
    (∀ code lane va, x.planeCheck r o (if nothing then fun _ => [] else need) = .error (code, lane, va) → Traps i c s g pc G0 code lane va 0)) ∧
  (∀ (c : Ctl) (f : M96) (s : State) (g : Nat) (pc : Word) (G0 : Group) (reqs : List (Nat × Nat × Nat)) (ls : List XLine),
    Performs (.stpl c f) c s g pc G0 →
    let x := ctxAt (.stpl c f) c s g pc G0
    let r := (x.breg f.b).toNat
    let o := (x.sreg f.a).toInt + f.imm.toInt
    let kk := min (f.c.toNat % 16) (recMw r)
    let need := fun (l : Nat) => if recIn r (o + 32 * (l / 8 : Nat)) 1 = false then [] else
      let e := (o + 32 * (l / 8 : Nat)).toNat
      (expAddr r (e / 32), 1) :: (List.range kk).map fun j => (planeAddr r j e, 4)
    x.planeCheck r o need = .ok reqs → x.s.xlateAll g x.G x.ten pc .store (reqs.map fun q => (q.1, q.2.1)) = .ok ls → SoFree x ls →
    ∃ as : List Acc,
      (let bitOf := fun (b j e : Nat) =>
         if 8 * b + e / 4 ∈ x.part ∧ recIn r (o + 32 * (b : Nat) + (e : Nat)) 1 = true then some ((x.v f.d (8 * b + e / 4)).getLsbD (8 * (e % 4) + 7 - j)) else none
       let bytes := fun (h : Option Bool → Bool) (b j : Nat) => (List.range 4).map fun q => (BitVec.ofFnLE fun (i : Fin 8) => h (bitOf b j (8 * q + i.val)) : Byte)
       as.map (fun a => (a.va, a.size, a.depth, a.mask, a.data)) =
         ((blocksOf x.part).filter fun b => recIn r (o + 32 * (b : Nat)) 1).flatMap fun b =>
           let e0 := (o + 32 * (b : Nat)).toNat
           (expAddr r (e0 / 32), 1, 0, [], [(x.tag f.d).exp b]) ::
             ((List.range kk).map fun j => (planeAddr r j e0, 4, j + 1, bytes Option.isSome b j, bytes (fun v => v.getD false) b j)).filter
               fun w => w.2.2.2.1.any fun m => m != 0#8) ∧
      (∀ a ∈ as, ∃ q ∈ reqs.zip ls, q.1.2 = (a.va, a.size) ∧ a = { q.2.acc q.1.1 a.va a.size with data := a.data, mask := a.mask, depth := a.depth }) ∧
      let finds := releaseFinds x (f.b.toNat / 16) (unAll as)
      (finds = .ok → Answers (.stpl c f) c s g pc G0 (outOnce x as
        { x.oword [] (.store as) with isStore := true, unOnly := unAll as, so := soAny as })) ∧
      (finds = .wait → Answers (.stpl c f) c s g pc G0 (.stall x.s .acks true)) ∧
      (∀ s' p, finds = .dead s' p → Traps (.stpl c f) c s g pc G0 0x33 0 0 p)) ∧
  (∀ (i : Instr) (c : Ctl) (f : M96) (s : State) (g : Nat) (pc : Word) (G0 : Group), i = .ldpl c f ∨ i = .ldrf c f ∨ i = .stpl c f →
    Issues i c s g pc G0 → participants c pc G0 = [] → Answers i c s g pc G0 (.go (ctxAt i c s g pc G0).s))) ∧
  (∀ (c : Ctl) (f : M96) (s : State) (g : Nat) (pc : Word) (G0 : Group), Issues (.pref c f) c s g pc G0 →
    let x := ctxAt (.pref c f) c s g pc G0
    let r := (x.breg f.b).toNat
    let off := laneOffset x f.mod f.a f.imm.toInt 1
    let live := x.part.filter fun l => recIn r (off l) 1
    let aligned := recBase r % 128 = 0 ∧ recMoff r % 128 = 0 ∧ recPstride r % 128 = 0
    let refused := recBad r [1, 2, 3] = true ∨ (recKind r = 3 ∧ ¬aligned)
    let vas := live.flatMap fun l => if recKind r = 3 then prefVas r (f.c.toNat % 16) (off l).toNat else [recAddr r (off l).toNat]
    (refused → Answers (.pref c f) c s g pc G0 (.go x.s)) ∧
    (¬refused → x.prefWalks vas = none → Answers (.pref c f) c s g pc G0 (.stall x.s .walkSlot true)) ∧
    (¬refused → ∀ s1, x.prefWalks vas = some s1 →
      (recKind r ≠ 3 → Answers (.pref c f) c s g pc G0
        (.go (live.foldl (fun s l => x.prefLinear (f.c.getLsbD 6) s (recAddr r (off l).toNat)) s1))) ∧
      (recKind r = 3 → Answers (.pref c f) c s g pc G0
        (.go (live.foldl (fun s l => x.prefPlane (f.c.getLsbD 6) r (f.c.toNat % 16) s (off l).toNat) s1)))) ∧
    (∀ va ∈ vas, va < 2 ^ 56 → x.s.tlbLook x.G.core x.ten va = none → ∀ s1, ¬refused → x.prefWalks vas = some s1 →
      x.s.dies.length ≤ (dieOf x.G.core).toNat ∨
        ∃ p ∈ (s1.die (dieOf x.G.core)).pend, p.ten = x.ten ∧ p.page = va / 65536 ∧ (g, pc) ∈ p.raisers) ∧
    ∃ t H, exec (.pref c f) s = .next t ∧ t.mem = s.mem ∧ t.hostMem = s.hostMem ∧ t.teams = s.teams ∧ t.outbox = s.outbox ∧
      (∀ k, k ≠ g → t.groups[k]? = s.groups[k]?) ∧ t.groups[g]? = some H ∧
      (refused ∨ x.prefWalks vas ≠ none → SameRegisters (readGroup c G0) H) ∧ (¬refused → x.prefWalks vas = none → SameRegisters G0 H))

/-- STORE_ACK: the accesses of a store that it performs next (all of them, where they lie on pages of one kind of this device and
nothing earlier holds them back) are performed at their home, in order, when their stacks take them; every byte that none of them covers reads as before; no register
changes; the word leaves the group when it has no access left, and otherwise stays with those it has.
(When an access is performed is the model's choice: log 4.)
A masked chunk of a plane store is written at its home under its masks: the bits outside them stay.
Accesses that an earlier one holds back are not performed: while an acquire that the group issued before them is open, unless they
lie on UN pages; and while an earlier access touches their bytes. Nor are accesses whose stack makes them wait. Neither event changes
anything. -/
def Obligations.StoresArePerformed : Prop :=
  (∀ (s : State) (g id : Nat) (o : OWord) (G : Group) (as : List Acc),
    s.groups[g]? = some G → G.stage = .running → G.outst.find? (fun y => y.id == id) = some o → o.kind = .store as →
    (∀ k : Kind, as ≠ [] → (∀ a ∈ as, a.kind = k ∧ isPeer a = false) → G.heldBack o k as = false → G.nextBatch o = some as) ∧
    ∀ b : List Acc, G.nextBatch o = some b → (∀ a ∈ b, a.own = .here ∧ a.fwd = none ∧ a.mask = [] ∧ s.hbmWaits a.pa = false) → Cells.wf s.mem = true →
    ∃ t H, exec (.storeAck g id) s = .next t ∧ t.mem = b.foldl (fun m a => Cells.writeN m a.pa a.data) s.mem ∧
      (∀ n : Nat, (∀ a ∈ b, n < a.pa ∨ a.pa + a.data.length ≤ n) → Cells.read t.mem n = Cells.read s.mem n) ∧
      (∀ (pre post : List Acc) (a : Acc) (k : Nat), b = pre ++ a :: post → k < a.data.length →
        (∀ a' ∈ post, a.pa + k < a'.pa ∨ a'.pa + a'.data.length ≤ a.pa + k) → Cells.read t.mem (a.pa + k) = a.data.getD k 0#8) ∧
      t.hostMem = s.hostMem ∧ t.teams = s.teams ∧ (∀ k, k ≠ g → t.groups[k]? = s.groups[k]?) ∧ t.groups[g]? = some H ∧
      (let rest := as.filter fun a => !(b.contains a)
       (rest = [] → H.outst = G.outst.filter (fun y => y.id != o.id) ∧
         H.w = (match o.tok with | some k => modAt G.w k (· - 1) | none => G.w)) ∧
       (rest ≠ [] → H.w = G.w ∧ H.outst.length = G.outst.length ∧ ∃ y ∈ H.outst, y.id = id ∧ y.kind = .store rest)) ∧
      H.v = G.v ∧ H.s = G.s ∧ H.b = G.b ∧ H.d = G.d ∧ H.ufc = G.ufc) ∧
  (∀ (s : State) (g id : Nat) (o : OWord) (G : Group) (m : Acc),
    s.groups[g]? = some G → G.stage = .running → G.outst.find? (fun y => y.id == id) = some o → o.kind = .store [m] →
    G.heldBack o (unitKind [m]) [m] = false → m.own = .here → m.fwd = none → s.hbmWaits m.pa = false → m.mask ≠ [] → m.mask.length = m.size → m.data.length = m.size →
    Cells.wf s.mem = true →
    ∃ t, exec (.storeAck g id) s = .next t ∧
      (∀ b < m.size, ∀ k : Nat, (Cells.read t.mem (m.pa + b)).getLsbD k =
        if (m.mask.getD b 0#8).getLsbD k then (m.data.getD b 0#8).getLsbD k else (Cells.read s.mem (m.pa + b)).getLsbD k) ∧
      ∀ n : Nat, (n < m.pa ∨ m.pa + m.size ≤ n) → Cells.read t.mem n = Cells.read s.mem n) ∧
  ((∀ (s : State) (g id : Nat) (outside : List Byte) (o e : OWord) (G : Group) (k : Kind), s.groups[g]? = some G →
    G.outst.find? (fun y => y.id == id) = some o → e ∈ G.before o → e.kind.isWait = false → (∀ u ∈ o.kind.units, unitKind u = k) →
    (k ≠ .un ∧ e.acq ≠ 0) ∨ spansMeet e.spans ((batchOf k o.kind).flatten.map Acc.span) = true →
    exec (.loadDataLand g id outside) s = .next s ∧ exec (.storeAck g id) s = .next s) ∧
  (∀ (s : State) (g id : Nat) (outside : List Byte) (o : OWord) (G : Group) (b : List Acc), s.groups[g]? = some G →
    G.outst.find? (fun y => y.id == id) = some o → G.nextBatch o = some b → (∀ l a, o.kind ≠ .bad l a) →
    (∃ a ∈ b, a.own = .here ∧ s.hbmWaits a.pa = true) →
    exec (.loadDataLand g id outside) s = .next s ∧ exec (.storeAck g id) s = .next s))

/-- The group once a word has been taken back: the word leaves it, its token loses 1, and the lanes that it held go on, so that it is
never issued again (21 R497). -/
def Sys2Proof.takenBack (G : Group) (o : OWord) : Group :=
  (({ G with outst := G.outst.filter fun y => y.id != o.id, w := match o.tok with | some k => modAt G.w k (· - 1) | none => G.w } : Group).modLanes
    o.held fun y => if y.st == .active && y.pc == o.pc then { y with pc := o.next } else y).settle

/-- LOAD_DATA_LAND: a load from this device's memory that no earlier access holds back, whose lines are not poisoned and whose stacks
answer, writes in each lane the bytes at its address, extended as its size code says, and leaves memory alone; its word leaves the group
and its token loses 1. A plane load writes for each element the bits of its planes, zeros below them, zeros out of bounds, the exponent
byte of each block and the field word; a refine merges the bits of the planes that it fetched into the register as it stood at issue.
(The lines are not in the core's L1, or the page is SO.) A result known at issue lands the same way.
(When an access is performed is the model's choice: log 4.)
Data found uncorrectable after issue, in a line that the word still reads or in what a peer or the host answers: the word is taken
back, having written nothing, and the group stops between two issues with MEM_UNCORRECTABLE at the word, its lane and the address.
The result of a `joinc` that has been performed is not taken back, nor is what does not lie in an access of the word. -/
def Obligations.LoadsLand : Prop :=
  ((∀ (s : State) (g id : Nat) (outside : List Byte) (o : OWord) (G : Group) (k : Kind) (as : List Acc) (sz d : Nat) (fresh : Bool) (known : List RegWrite),
    s.groups[g]? = some G → G.stage = .running → G.outst.find? (fun y => y.id == id) = some o → o.kind = .load as sz d fresh known →
    as ≠ [] → (∀ a ∈ as, a.kind = k ∧ a.own = .here ∧ a.size = sizeOf' sz ∧ a.pa % 128 + a.size ≤ 128 ∧
      s.poisoned a.pa = false ∧ s.hbmWaits a.pa = false ∧ (∀ v ∈ G.v, a.lane < v.lanes.length) ∧
      (a.kind = .so ∨ ∀ l ∈ (s.core G.core).l1, l.line ≠ a.pa / 128)) →
    (as.map Acc.lane).Nodup → G.heldBack o k as = false → sz ≤ 6 → (∀ w ∈ known, ∃ r, named w = .v r) → d + dataRegs sz ≤ G.v.length →
    ∃ t H, exec (.loadDataLand g id outside) s = .next t ∧ t.mem = s.mem ∧ t.hostMem = s.hostMem ∧ t.teams = s.teams ∧
      (∀ k, k ≠ g → t.groups[k]? = s.groups[k]?) ∧ t.groups[g]? = some H ∧
      (∀ a ∈ as, ∀ k, k < dataRegs sz →
        let n := Cells.readLE s.mem a.pa a.size
        ((H.v[d + k]?).bind fun (v : VReg) => v.lanes[a.lane]?) = some (if sz = 0 then (BitVec.ofNat 8 n).signExtend 32
          else if sz = 2 then (BitVec.ofNat 16 n).signExtend 32 else BitVec.ofNat 32 (n / 2 ^ (32 * k)))) ∧
      H.outst = G.outst.filter (fun y => y.id != o.id) ∧ H.w = (match o.tok with | some k => modAt G.w k (· - 1) | none => G.w) ∧
      H.s = G.s ∧ H.b = G.b ∧ H.d = G.d ∧ H.ufc = G.ufc) ∧
  (∀ (s : State) (g id : Nat) (outside : List Byte) (o : OWord) (G : Group) (k : Kind) (rs : List AsmReq) (j : PlaneJob) (v0 : VReg),
    s.groups[g]? = some G → G.stage = .running → G.outst.find? (fun y => y.id == id) = some o → o.kind = .plane rs j →
    rs ≠ [] → j.p < j.kk → j.kk ≤ 8 → G.v[j.d]? = some v0 → (∀ l ∈ j.part, l < v0.lanes.length) →
    (rs.map AsmReq.a).Nodup → (∀ w ∈ j.known, ∃ r, named w = .v r) → G.heldBack o k o.accs = false →
    (∀ q ∈ rs, q.exp.size = 4 ∧ (∀ a ∈ q.pieces, a.size = 16) ∧ q.pieces.map Acc.lane = (List.range j.kk).filter (j.p ≤ ·) ∧
      ∀ a ∈ q.accs j.refine, a.kind = k ∧ a.own = .here ∧ s.poisoned a.pa = false ∧ s.hbmWaits a.pa = false) →
    (j.refine = false → j.p = 0 ∧ (rs.map fun q => q.exp.key).Nodup ∧ ∀ q ∈ rs, ∀ l ∈ (s.core G.core).asm, asmSame q l = false) →
    (∀ l ∈ j.part, ∀ i < 4, 0 ≤ j.o + 4 * (l : Int) + (i : Int) → j.o + 4 * (l : Int) + (i : Int) < j.extent →
      ∃ q ∈ rs, (q.a : Int) = (j.o + 4 * (l : Int) + (i : Int)) / 128) →
    (∀ b ∈ blocksOf j.part, 0 ≤ j.o + 32 * (b : Int) → j.o + 32 * (b : Int) < j.extent → ∃ q ∈ rs, (q.a : Int) = (j.o + 32 * (b : Int)) / 128) →
    ∃ t H v, exec (.loadDataLand g id outside) s = .next t ∧ t.mem = s.mem ∧ t.hostMem = s.hostMem ∧ t.teams = s.teams ∧
      (∀ k, k ≠ g → t.groups[k]? = s.groups[k]?) ∧ t.groups[g]? = some H ∧ H.v[j.d]? = some v ∧ v.tag.field = j.field ∧
      (∀ l ∈ j.part, ∃ y : Lane32, v.lanes[l]? = some y ∧ ∀ i b : Nat, i < 4 → b < 8 →
        let e := j.o + 4 * (l : Int) + (i : Int)
        let had := (j.old.getD l 0#32).getLsbD (8 * i + b)
        (0 ≤ e → e < j.extent → ∀ q ∈ rs, (q.a : Int) = e / 128 → ∀ a : Acc, (7 - b < j.kk → j.p ≤ 7 - b → a ∈ q.pieces → a.lane = 7 - b →
            y.getLsbD (8 * i + b) = (Cells.read s.mem (a.pa + e.toNat % 128 / 8)).getLsbD (e.toNat % 8)) ∧
          (j.kk ≤ 7 - b ∨ 7 - b < j.p → y.getLsbD (8 * i + b) = if j.refine = true then had else false)) ∧
        (e < 0 ∨ j.extent ≤ e → y.getLsbD (8 * i + b) = if j.refine = true then had else false)) ∧
      (j.refine = false → ∀ b ∈ blocksOf j.part,
        let e := j.o + 32 * (b : Int)
        (0 ≤ e → e < j.extent → ∀ q ∈ rs, (q.a : Int) = e / 128 → v.tag.exp b = Cells.read s.mem (q.exp.pa + e.toNat / 32 % 4)) ∧
        (e < 0 ∨ j.extent ≤ e → v.tag.exp b = 0#8)) ∧
      (j.refine = true → j.known = [] → v.tag.exps = v0.tag.exps) ∧
      H.outst = G.outst.filter (fun y => y.id != o.id) ∧ H.s = G.s ∧ H.b = G.b ∧ H.d = G.d ∧ H.ufc = G.ufc) ∧
  (∀ (s : State) (g id : Nat) (outside : List Byte) (o : OWord) (G : Group) (ws : List RegWrite),
    s.groups[g]? = some G → G.stage = .running → G.outst.find? (fun y => y.id == id) = some o → o.kind = .land ws ∨ o.kind = .owed ws → G.heldBack o .rc [] = false →
    exec (.loadDataLand g id outside) s = .next (s.complete g o ws))) ∧
  (∀ (s : State) (g id : Nat) (va : Word) (o : OWord) (G : Group), s.groups[g]? = some G → G.stage = .running →
    G.outst.find? (fun y => y.id == id) = some o →
    let reads := (∃ as sz d fr k, o.kind = .load as sz d fr k) ∨ (∃ rs j, o.kind = .plane rs j) ∨ (∃ as op ty ret d k, o.kind = .fwdAtom as op ty ret d k) ∨
      (∃ a d, o.kind = .fwdJoin a d)
    let hit := o.accs.find? fun a => decide (a.va ≤ va.toNat) && decide (va.toNat < a.va + a.size) && (a.own != .here || s.poisoned a.pa)
    ((∃ ws, o.kind = .owed ws ∨ o.kind = .land ws) ∨ (∃ as, o.kind = .store as) ∨ (reads ∧ hit = none) → exec (.memUncorrectableLate g id va) s = .next s) ∧
    ∀ lane at_ : Nat, o.kind = .bad lane at_ ∨ (at_ = va.toNat ∧ reads ∧ ∃ a, hit = some a ∧ lane = o.kind.laneOf a) ∨
        (at_ = va.toNat ∧ lane = 0 ∧ ((∃ a n k ctr, o.kind = .cget a n k ctr) ∨ (∃ r d ty, o.kind = .catom r d ty))) →
      ∃ t H, exec (.memUncorrectableLate g id va) s = .next t ∧ t.groups[g]? = some H ∧ H.v = G.v ∧ H.s = G.s ∧ H.b = G.b ∧ H.d = G.d ∧
        H.lanes = (takenBack G o).lanes ∧ H.outst = (takenBack G o).outst ∧ H.w = (takenBack G o).w ∧
        H.stage ≠ .running ∧ (∀ k, k ≠ g → t.groups[k]? = s.groups[k]?) ∧
        ∃ f, H.faults = G.faults ++ [f] ∧ f.code = 0x60 ∧ f.cls = 0 ∧ f.lane = lane ∧ f.late = true ∧ f.pc = o.pc ∧ f.vaddr = at_ ∧ f.time = s.clock)

/-! ## Atomics (04 R116, 10 R264, R265) -/

namespace Sys2Proof

/-- The new value of each operation on an old value of 32 or 64 bits; TYPE 0 i32, 1 n32, 2 i64, 3 n64. -/
def rmwRule (op t old x b : Nat) : Nat :=
  let w := if t < 2 then 32 else 64
  let num := fun (n : Nat) => readElem (decide (t % 2 = 1)) w n
  match op with
  | 0 => (old + x) % 2 ^ w
  | 1 => if num x < num old then x else old
  | 2 => if num x > num old then x else old
  | 3 => Nat.land old x
  | 4 => Nat.lor old x
  | 5 => Nat.xor old x
  | 6 => x
  | 7 => if old = b then x else old
  | _ => if num old + num x ≤ num b then (old + x) % 2 ^ w else old

/-- The operand of an atomic in a lane: a register, or a pair for the 64-bit types. -/
def atomOperand (x : Ctx) (wide : Bool) (r : BitVec 7) (l : Nat) : Nat :=
  (x.vn r.toNat l).toNat + if wide then 2 ^ 32 * (x.vn (r.toNat + 1) l).toNat else 0

end Sys2Proof

/-- `atom` on this device's memory is performed lane by lane, in lane order, each a read and a write of its word at the home slice; the
old values land where the form returns them; every byte outside the words reads as before.
(That it is performed when it issues is the model's choice: log 4.) -/
def Obligations.AtomicsAtTheHome : Prop :=
  ∀ (c : Ctl) (f : M96) (s : State) (g : Nat) (pc : Word) (G0 : Group) (ls : List XLine), Performs (.atom c f) c s g pc G0 →
    let x := ctxAt (.atom c f) c s g pc G0
    let wide := f.imm.getLsbD 21
    let n := if wide then 8 else 4
    let r := (x.breg f.b).toNat
    let off := laneOffset x f.mod f.a (f.imm.setWidth 16).toInt n
    let op := f.imm.toNat / 2 ^ 16 % 16
    let as := mkAccs (liveLanes r x.part off n) ls n fun _ => []
    let scope := f.b.toNat / 16
    AccessOk r x.part off n →
    x.s.xlateAll g x.G x.ten pc (.atomic (atomHostOk op)) (liveLanes r x.part off n) = .ok ls → SoFree x ls →
    (∀ l ∈ ls, l.own = .here ∧ s.poisoned l.pa = false) → (unAll as = true ∨ x.G.clear = true) → x.G.touches as = false → x.fits as = true →
    releaseFinds x (if f.imm.getLsbD 23 = true then scope else 0) (unAll as) = .ok → Cells.wf s.mem = true →
    let run := as.foldl (fun (ms : List Host.Cell × List (Nat × Nat)) a =>
      let old := Cells.readLE ms.1 a.pa n
      (Cells.writeLE ms.1 a.pa n (rmwRule op (f.imm.toNat / 2 ^ 20 % 4) old (atomOperand x wide f.c a.lane) (atomOperand x wide f.d a.lane)),
        ms.2 ++ [(a.lane, old)])) (s.mem, [])
    ∃ t H, exec (.atom c f) s = .next t ∧ t.mem = run.1 ∧ t.groups[g]? = some H ∧
      (∀ b : Nat, (∀ a ∈ as, b < a.pa ∨ a.pa + n ≤ b) → Cells.read t.mem b = Cells.read s.mem b) ∧
      (f.imm.getLsbD 24 = false → H.outst = x.G.outst ∧ H.v = x.G.v) ∧
      (f.imm.getLsbD 24 = true → ∃ w, H.outst = x.G.outst ++ [w] ∧ w.id = G0.seq ∧ w.kind = .land (
        ((List.range (n / 4)).flatMap fun k => plainTag (f.d.toNat + k) 0 x.frag ++
          (droppedLanes r x.part off n).map fun l => .v (f.d.toNat + k) l 0#32) ++
        run.2.flatMap fun (l, old) => (List.range (n / 4)).map fun k => .v (f.d.toNat + k) l (BitVec.ofNat 32 (old / 2 ^ (32 * k))))) ∧
      (∀ k, k ≠ g → t.groups[k]? = s.groups[k]?) ∧ t.teams = s.teams

/-! ## Fences, and what leaves memory alone (05 R135, R136; 10 R266) -/

/-- The fences: each waits for the earlier accesses that its rule names, then invalidates the L1 lines it names; `fence.rel` need not
wait but for packets: from then on a store or atomic waits for what came before it. An acknowledgement that will never come gives PEER_DEAD.
(That a fence orders the accesses of every lane of the group is the model's choice: log 5.) -/
def Obligations.FenceWords : Prop :=
  (∀ (c : Ctl) (f : F64) (s : State) (g : Nat) (pc : Word) (G0 : Group), Performs (.fenceAr c f) c s g pc G0 →
    let x := ctxAt (.fenceAr c f) c s g pc G0
    (x.s.relCheck g f.c.toNat = .ok → Answers (.fenceAr c f) c s g pc G0 (.go (x.s.l1Acquire G0.core f.c.toNat))) ∧
    (x.s.relCheck g f.c.toNat = .wait → Answers (.fenceAr c f) c s g pc G0 (.stall x.s .acks true)) ∧
    (∀ s' p, x.s.relCheck g f.c.toNat = .dead s' p → Traps (.fenceAr c f) c s g pc G0 0x33 0 0 p)) ∧
  (∀ (c : Ctl) (f : F64) (s : State) (g : Nat) (pc : Word) (G0 : Group), Performs (.fenceAcq c f) c s g pc G0 →
    let x := ctxAt (.fenceAcq c f) c s g pc G0
    let opened := ∃ o ∈ x.G.outst, o.isLoad = true ∧ o.unOnly = false ∧ o.kind.isWait = false
    (¬opened → Answers (.fenceAcq c f) c s g pc G0 (.go (x.s.l1Acquire G0.core f.c.toNat))) ∧
    (opened → Answers (.fenceAcq c f) c s g pc G0 (.stall x.s .other true))) ∧
  (∀ (c : Ctl) (f : F64) (s : State) (g : Nat) (pc : Word) (G0 : Group), Performs (.fenceRel c f) c s g pc G0 →
    let x := ctxAt (.fenceRel c f) c s g pc G0
    let packets := 5 ≤ f.c.toNat ∧ ∃ p ∈ x.s.sent, p.g = g ∧ p.kind.packet = true
    (x.s.relCheck g f.c.toNat = .ok → Answers (.fenceRel c f) c s g pc G0 (.go (x.s.modGroup g fun G => { G with fence := none }))) ∧
    (x.s.relCheck g f.c.toNat = .wait → ¬packets →
      Answers (.fenceRel c f) c s g pc G0 (.go (x.s.modGroup g fun G => { G with fence := some x.G.seq }))) ∧
    (x.s.relCheck g f.c.toNat = .wait → packets → Answers (.fenceRel c f) c s g pc G0 (.stall x.s .acks true)) ∧
    (∀ s' p, x.s.relCheck g f.c.toNat = .dead s' p → Traps (.fenceRel c f) c s g pc G0 0x33 0 0 p)) ∧
  (∀ (c : Ctl) (f : F64) (s : State) (g : Nat) (pc : Word) (G0 : Group), Performs (.fenceSysAll c f) c s g pc G0 →
    let x := ctxAt (.fenceSysAll c f) c s g pc G0
    let opened := ∃ o ∈ x.G.outst, (o.isLoad = true ∨ o.isStore = true) ∧ o.kind.isWait = false
    (opened → Answers (.fenceSysAll c f) c s g pc G0 (.stall x.s .acks true)) ∧
    (¬opened → x.s.relCheck g 6 = .ok → Answers (.fenceSysAll c f) c s g pc G0 (.go (x.s.l1All G0.core)))) ∧
  (∀ (s : State) (g scope : Nat) (old : Nat → Bool),
    (s.relUpTo g scope old = .ok → (∀ o ∈ (s.group g).outst, old o.id = true → o.isLoad = true ∨ o.isStore = true →
      o.unOnly = true ∨ o.kind.isWait = true) ∧ ∀ p ∈ s.sent, p.g = g → old p.word = true → p.kind ≠ .fwdStore ∧ ¬(5 ≤ scope ∧ p.kind.packet = true)) ∧
    (∀ p ∈ s.sent, p.g = g → old p.word = true → p.kind = .fwdStore → p.lost = true → (∀ q ∈ s.sent, q.refused = false) →
      ∃ q ∈ s.sent, q.lost = true ∧ s.relUpTo g scope old = .dead s q.peer))

/-- Words that store to no memory and to no scratchpad when they issue (a `st` stores when it is acknowledged, an engine command when
it is performed). -/
def Sys2Proof.quietWord : Instr → Bool
  | .nop .. | .bra .. | .brc .. | .brx .. | .call .. | .callx .. | .ret .. | .exit .. | .meet .. | .meetw .. | .done .. | .refill ..
  | .yield .. | .tokpass .. | .tokwait .. | .iqPush .. | .iqLoad .. | .iqCount .. | .brecSet .. | .brecx .. | .brecGet .. | .bchk ..
  | .ld .. | .st .. | .ldpl .. | .ldrf .. | .stpl .. | .pref .. | .fenceAr .. | .fenceAcq .. | .fenceRel .. | .fenceSysAll ..
  | .fmtset .. | .mma .. | .accZero .. | .accRd .. | .accRdx .. | .accMax .. | .accScl .. | .barArv .. | .barWt .. | .barSync ..
  | .chkOn .. | .chkOff .. | .assert .. | .brk .. | .qfence .. | .qwait .. => true
  | i => (latency i).isSome

/-- Every byte of memory, the device's and the host's, and every scratchpad frame stand after such a word as before, unless it took a
fault. -/
def Obligations.QuietWordsLeaveMemory : Prop :=
  ∀ (i : Instr) (s t : State) (g : Nat) (pc : Word), quietWord i = true ∨ (∃ c p, i = .paired c p) → s.cur = some (g, pc) →
    exec i s = .next t → (t.group g).stage = .running →
    t.mem = s.mem ∧ t.hostMem = s.hostMem ∧ (∀ k : Nat, (t.core k).frames = (s.core k).frames) ∧ (∀ a, Cells.read t.mem a = Cells.read s.mem a)

/-! ## Scratchpad (04 R106-R112, 10 R261-R269, 13 R327) -/

namespace Sys2Proof

/-- The lane-by-lane scratchpad words: whether the group's own slot is meant, the size, and the lanes' offsets. -/
def scratchRule : Instr → Option (Bool × Nat × (Ctx → Nat → Int))
  | .lds _ f => some (true, sizeOf' (f.c.toNat / 16), fun x => laneOffset x f.mod f.a f.imm.toInt (sizeOf' (f.c.toNat / 16)))
  | .ldsr _ f => some (false, sizeOf' (f.c.toNat / 16), fun x => laneOffset x f.mod f.a f.imm.toInt (sizeOf' (f.c.toNat / 16)))
  | .sts _ f => some (true, sizeOf' (f.c.toNat / 16), fun x => laneOffset x f.mod f.a f.imm.toInt (sizeOf' (f.c.toNat / 16)))
  | .stsr _ f => some (false, sizeOf' (f.c.toNat / 16), fun x => laneOffset x f.mod f.a f.imm.toInt (sizeOf' (f.c.toNat / 16)))
  | .atoms _ f => let n := if f.imm.getLsbD 21 then 8 else 4
      some (true, n, fun x => laneOffset x f.mod f.a (f.imm.setWidth 16).toInt n)
  | _ => none

/-- Bytes of the group's slot, or of the team's space; and where it begins in the team's space (04 R106). -/
def spaceOf (x : Ctx) (own : Bool) : Nat := if own then x.s.slotLen x.team else x.s.spaceLen x.team
def spaceBase (x : Ctx) (own : Bool) : Nat := if own then x.s.slotBase x.team x.G else 0

/-- An offset at which a form may not access `n` bytes: a full-empty form across two granules (04 R111), an atomic off its own size. -/
def spMisaligned (i : Instr) (n : Nat) (o : Int) : Prop :=
  match i with
  | .lds _ f | .ldsr _ f => f.c.toNat / 4 % 4 ≠ 0 ∧ 16 < o % 16 + n
  | .sts _ f | .stsr _ f => f.c.toNat / 4 % 4 = 1 ∧ 16 < o % 16 + n
  | .atoms .. => o % n ≠ 0
  | _ => False

/-- The scratchpad accesses of size `n` of word `i` pass their checks. -/
def ScratchOk (i : Instr) (x : Ctx) (own : Bool) (n : Nat) (off : Nat → Int) : Prop :=
  ∀ l ∈ x.part, 0 ≤ off l ∧ off l + n ≤ spaceOf x own ∧ ¬spMisaligned i n (off l)

/-- The page that holds a team-space address is resident. -/
def Resident (x : Ctx) (addr : Nat) : Prop := (x.s.frameOf x.tid (addr / 4096)).isSome = true

/-- The pages of `n` bytes are resident; and no word among those bytes is uncorrectable. -/
def Whole (x : Ctx) (addr n : Nat) : Prop := ∀ k < n, Resident x (addr + k)
def Sound (x : Ctx) (addr n : Nat) : Prop := Whole x addr n ∧ x.s.spBad x.tid addr n = none

/-- The value a load of size code `sz` gives register `k` of its set from the little-endian number `n` (R247). -/
def loadedValue (sz n k : Nat) : Lane32 :=
  if sz = 0 then (BitVec.ofNat 8 n).signExtend 32 else if sz = 2 then (BitVec.ofNat 16 n).signExtend 32 else BitVec.ofNat 32 (n / 2 ^ (32 * k))

end Sys2Proof

/-- The checks of a scratchpad access: SPAD_NOTMAPPED at the lowest lane outside the space, then MISALIGNED at the lowest lane whose
full-empty access crosses a granule or whose atomic stands off its own size, with the offset in VADDR; neither has an effect in any lane.
(The address in the record is the model's reading: log 15; that a plain form needs no alignment: log 39.)
A scratchpad load whose pages are resident, with good words: the plain form will write each participating lane's bytes; a full-empty form whose
granules are all full does the same and, in the take form, empties them; where every granule is empty it waits with every lane.
(When an access is performed is the model's choice: log 4.)
A scratchpad store whose pages are resident, once its release, if it carries one, is performed: each lane's bytes stand at its address (a later lane's over an
earlier one's), every other byte of the team's resident pages as before, and the form that fills sets the granules it stores to.
`atoms` on distinct resident words: each lane's word takes the new value of its operation, and the old values land where the form
returns them. -/
def Obligations.ScratchpadWords : Prop :=
  (∀ (i : Instr) (c : Ctl) (s : State) (g : Nat) (pc : Word) (G0 : Group) (own : Bool) (n : Nat) (offs : Ctx → Nat → Int),
    scratchRule i = some (own, n, offs) → i.ctl? = some c → Performs i c s g pc G0 →
    let x := ctxAt i c s g pc G0
    let off := offs x
    let outside := fun l => off l < 0 ∨ (spaceOf x own : Int) < off l + n
    (∀ l ∈ x.part, outside l → (∀ k ∈ x.part, k < l → ¬outside k) → Traps i c s g pc G0 0x20 l (off l % 2 ^ 64).toNat 0) ∧
    (∀ l ∈ x.part, (∀ k ∈ x.part, ¬outside k) → spMisaligned i n (off l) → (∀ k ∈ x.part, k < l → ¬spMisaligned i n (off k)) →
      Traps i c s g pc G0 0x13 l (off l % 2 ^ 64).toNat 0)) ∧
  (∀ (i : Instr) (c : Ctl) (f : M96) (s : State) (g : Nat) (pc : Word) (G0 : Group) (own : Bool) (n : Nat) (offs : Ctx → Nat → Int),
    i = .lds c f ∨ i = .ldsr c f → scratchRule i = some (own, n, offs) → Performs i c s g pc G0 →
    let x := ctxAt i c s g pc G0
    let sz := f.c.toNat / 16
    let addr := fun l => spaceBase x own + (offs x l).toNat
    let value := fun l k => loadedValue sz (x.s.spReadLE x.tid (addr l) n) k
    let fe := f.c.toNat / 4 % 4
    let loaded := fun (ws : List RegWrite) => ∀ l ∈ x.part, ∀ k < dataRegs sz, ∀ y, .v (f.d.toNat + k) l y ∈ ws ↔ y = value l k
    ScratchOk i x own n (offs x) → (∀ l ∈ x.part, Sound x (addr l) n) → x.G.clear = true →
    (fe = 0 → ∃ t H w ws, exec i s = .next t ∧ t.mem = s.mem ∧ t.groups[g]? = some H ∧ H.outst = x.G.outst ++ [w] ∧ w.kind = .land ws ∧
      w.acq = f.b.toNat / 16 ∧ w.dests = (List.range (dataRegs sz)).map (fun k => .v (f.d.toNat + k)) ∧ loaded ws ∧
      (∀ a, t.spRead1 x.tid a = s.spRead1 x.tid a) ∧ (∀ a, t.feGet x.tid a = s.feGet x.tid a)) ∧
    (fe ≠ 0 → (∀ l ∈ x.part, x.s.feGet x.tid (addr l) = true) →
      (∀ l ∈ x.part, ∀ k ∈ x.part, addr l / 16 = addr k / 16 → l = k) →
      ∃ t H w ws, exec i s = .next t ∧ t.groups[g]? = some H ∧ H.outst = x.G.outst ++ [w] ∧ w.kind = .land ws ∧ loaded ws ∧
        (∀ a, Resident x a → t.feGet x.tid a = (s.feGet x.tid a && !(fe == 1 && x.part.any fun l => addr l / 16 == a / 16)))) ∧
    (fe ≠ 0 → (∀ l ∈ x.part, x.s.feGet x.tid (addr l) = false ∧ x.s.haltedOver x.tid (addr l) = none) →
      ∃ t H w pend, exec i s = .next t ∧ t.mem = s.mem ∧ t.groups[g]? = some H ∧ H.outst = x.G.outst ++ [w] ∧ w.held = x.frag ∧
        w.kind = .feLoad pend (fe == 1) sz f.d.toNat ∧ (∀ l a m, ⟨l, a, m⟩ ∈ pend ↔ l ∈ x.part ∧ a = addr l ∧ m = n) ∧
        (∀ l ∈ x.frag, (H.laneAt l).pc = pc))) ∧
  (∀ (i : Instr) (c : Ctl) (f : M96) (s : State) (g : Nat) (pc : Word) (G0 : Group) (own : Bool) (n : Nat) (offs : Ctx → Nat → Int),
    i = .sts c f ∨ i = .stsr c f → scratchRule i = some (own, n, offs) → Performs i c s g pc G0 →
    let x := ctxAt i c s g pc G0
    let addr := fun l => spaceBase x own + (offs x l).toNat
    let fills := f.c.toNat / 4 % 4 = 1
    ScratchOk i x own n (offs x) → (∀ l ∈ x.part, Whole x (addr l) n) → x.G.clear = true → MemWf s →
    releaseFinds x (f.b.toNat / 16) false = .ok → (∀ fr ∈ (s.cores.flatMap (·.frames)), Cells.wf fr.data = true) →
    ∃ t H, exec i s = .next t ∧ t.groups[g]? = some H ∧ SameRegisters x.G H ∧
      (∀ l ∈ x.part, ∀ k < n, (∀ m ∈ x.part, l < m → addr l + k < addr m ∨ addr m + n ≤ addr l + k) →
        t.spRead1 x.tid (addr l + k) = BitVec.ofNat 8 ((x.vn (f.d.toNat + k / 4) l).toNat / 2 ^ (8 * (k % 4)))) ∧
      (∀ a, (∀ l ∈ x.part, a < addr l ∨ addr l + n ≤ a) → t.spRead1 x.tid a = s.spRead1 x.tid a) ∧
      (∀ a, Resident x a → t.feGet x.tid a = (s.feGet x.tid a || (decide fills && x.part.any fun l => addr l / 16 == a / 16)))) ∧
  (∀ (c : Ctl) (f : M96) (s : State) (g : Nat) (pc : Word) (G0 : Group), Performs (.atoms c f) c s g pc G0 →
    let x := ctxAt (.atoms c f) c s g pc G0
    let wide := f.imm.getLsbD 21
    let n := if wide then 8 else 4
    let off := laneOffset x f.mod f.a (f.imm.setWidth 16).toInt n
    let addr := fun l => spaceBase x true + (off l).toNat
    let old := fun l => x.s.spReadLE x.tid (addr l) n
    ScratchOk (.atoms c f) x true n off → (∀ l ∈ x.part, Sound x (addr l) n) → x.G.clear = true → MemWf s →
    (∀ fr ∈ (s.cores.flatMap (·.frames)), Cells.wf fr.data = true) → (∀ l ∈ x.part, ∀ m ∈ x.part, addr l = addr m → l = m) →
    releaseFinds x (if f.imm.getLsbD 23 = true then f.b.toNat / 16 else 0) false = .ok →
    ∃ t H, exec (.atoms c f) s = .next t ∧ t.groups[g]? = some H ∧
      (∀ l ∈ x.part, t.spReadLE x.tid (addr l) n = rmwRule (f.imm.toNat / 2 ^ 16 % 16) (f.imm.toNat / 2 ^ 20 % 4) (old l)
        (atomOperand x wide f.c l) (atomOperand x wide f.d l) % 2 ^ (8 * n)) ∧
      (∀ a, (∀ l ∈ x.part, a < addr l ∨ addr l + n ≤ a) → t.spRead1 x.tid a = s.spRead1 x.tid a) ∧
      (∀ a, Resident x a → t.feGet x.tid a = s.feGet x.tid a) ∧
      (f.imm.getLsbD 24 = false → H.outst = x.G.outst) ∧
      (f.imm.getLsbD 24 = true → ∃ w ws, H.outst = x.G.outst ++ [w] ∧ w.kind = .owed ws ∧
        ∀ l ∈ x.part, ∀ k < n / 4, ∀ y, .v (f.d.toNat + k) l y ∈ ws ↔ y = BitVec.ofNat 32 (old l / 2 ^ (32 * k))))

/-- `fe.wait` on resident granules goes on where all are full, and waits with those that are empty where some is; `spin` gives 1 and
sets the pins of its pages once they are resident, 1 for an empty range, 0 where the limit of 96 would be passed; `sunpin` clears the pins of its range. -/
def Obligations.WaitsAndPins : Prop :=
  (∀ (c : Ctl) (f : M96) (s : State) (g : Nat) (pc : Word) (G0 : Group), Performs (.feWait c f) c s g pc G0 →
    let x := ctxAt (.feWait c f) c s g pc G0
    let own := decide (f.mod = 0)
    let n := f.c.toNat + 1
    let o := (x.sreg f.a).toInt + f.imm.toInt
    let gs := (List.range n).map fun k => spaceBase x own + o.toNat + 16 * k
    (o < 0 ∨ (spaceOf x own : Int) < o + 16 * n → Traps (.feWait c f) c s g pc G0 0x20 0 (o % 2 ^ 64).toNat 0) ∧
    (0 ≤ o → o + 16 * n ≤ spaceOf x own → o % 16 ≠ 0 → Traps (.feWait c f) c s g pc G0 0x13 0 (o % 2 ^ 64).toNat 0) ∧
    (0 ≤ o → o + 16 * n ≤ spaceOf x own → o % 16 = 0 → x.G.clear = true → (∀ a ∈ gs, Resident x a) →
      ((∀ a ∈ gs, x.s.feGet x.tid a = true) → ∃ t H, exec (.feWait c f) s = .next t ∧ t.mem = s.mem ∧ t.groups[g]? = some H ∧ SameRegisters x.G H ∧
        ∀ l ∈ x.frag, (H.laneAt l).pc = nextPc pc 12) ∧
      ((∃ a ∈ gs, x.s.feGet x.tid a = false) → (∀ a ∈ gs, x.s.feGet x.tid a = false → x.s.haltedOver x.tid a = none) →
        ∃ t H w pend, exec (.feWait c f) s = .next t ∧ t.mem = s.mem ∧ t.groups[g]? = some H ∧ H.outst = x.G.outst ++ [w] ∧ w.held = x.frag ∧
          w.kind = .feWait pend ∧ (∀ a, a ∈ pend ↔ a ∈ gs ∧ x.s.feGet x.tid a = false)))) ∧
  (∀ (c : Ctl) (f : F64) (s : State) (g : Nat) (pc : Word) (G0 : Group), Performs (.spin c f) c s g pc G0 →
    let x := ctxAt (.spin c f) c s g pc G0
    let answer := fun (s' : State) (v : Word) => Answers (.spin c f) c s g pc G0 (.out s' (x.oword [.s f.d.toNat] (.land [.s f.d.toNat v])))
    (x.pinRange f = none → Traps (.spin c f) c s g pc G0 0x20 0 (x.sreg f.a).toNat 0) ∧
    (∀ ps, x.pinRange f = some ps →
      let new := (ps.filter fun p => !(x.s.rdMem (x.s.l0Addr x.team p) 8).testBit 3).length
      (ps = [] → answer x.s 1#64) ∧
      (ps ≠ [] → 96 < x.s.pinnedFrames G0.core + new → answer x.s 0#64) ∧
      (∀ s' u, ps ≠ [] → x.s.pinnedFrames G0.core + new ≤ 96 → x.s.bring G0.core x.tid ps = .ok s' u →
        answer (ps.foldl (fun s p => s.l0Mod x.tid p fun e => setBits e 3 1 1) s') 1#64))) ∧
  (∀ (c : Ctl) (f : F64) (s : State) (g : Nat) (pc : Word) (G0 : Group), Performs (.sunpin c f) c s g pc G0 →
    let x := ctxAt (.sunpin c f) c s g pc G0
    (x.pinRange f = none → Traps (.sunpin c f) c s g pc G0 0x20 0 (x.sreg f.a).toNat 0) ∧
    (∀ ps, x.pinRange f = some ps → Answers (.sunpin c f) c s g pc G0 (.go (ps.foldl (fun s p => s.l0Mod x.tid p fun e => setBits e 3 1 0) x.s)))) ∧
  (∀ (s : State) (c : Ctl) (f : F64) (g : Nat) (pc : Word) (G0 : Group) (i : Instr), i = .spin c f ∨ i = .sunpin c f →
    let x := ctxAt i c s g pc G0
    x.pinRange f = if x.sreg f.b = 0#64 then some []
      else if x.s.slotLen x.team < (x.sreg f.a).toNat + (x.sreg f.b).toNat then none
      else some (pagesOf (x.s.slotBase x.team x.G + (x.sreg f.a).toNat) (x.sreg f.b).toNat))

/-! ## Matrix engine (11 R270-R288, 03 R87-R92) -/

namespace Sys2Proof

/-- The operation that a tile word hands to the engine, its tile and the registers it will write (R277, R283-R286). -/
def tileRule : Instr → Option (Ctx → BitVec 7 × List RegName × TOp)
  | .mma _ f => some fun x => (f.d, [], .mma (f.c.toNat / 8 % 8) (x.G.d.getD (f.c.toNat % 8) 0#32) (x.vregs f.a (512 / x.G.gw)) (x.vregs f.b (512 / x.G.gw)))
  | .accZero _ f => some fun _ => (f.d, [], .zero (if f.mod = 0 then 0#32 else if f.mod = 1 then 0x7F800000#32 else 0xFF800000#32))
  | .accRd _ f => some fun x => let n := 2 ^ (f.c.toNat % 4)
      (f.a, (List.range (n * 64 / x.G.gw)).map fun k => .v (f.d.toNat + k),
        .rd false (if f.c.getLsbD 2 then f.b.toNat else (x.sreg f.b).toNat % 64) n f.d.toNat x.part x.frag)
  | .accRdx _ f => some fun x => let n := 2 ^ (f.c.toNat % 4)
      (f.a, (List.range (n * 64 / x.G.gw)).map fun k => .v (f.d.toNat + k),
        .rd true (if f.c.getLsbD 2 then f.b.toNat else (x.sreg f.b).toNat % 64) n f.d.toNat x.part x.frag)
  | .accMax _ f => some fun x => (f.a, (List.range (64 / x.G.gw)).map fun k => .v (f.d.toNat + k),
        .max (f.mod == 1) (f.c.getLsbD 0) f.d.toNat (x.vregs f.d (64 / x.G.gw)) x.part x.frag)
  | .accScl _ f => some fun x => (f.d, [], .scl ((x.vregs f.a (64 / x.G.gw)).flatMap (·.lanes)) ((x.vregs f.b (64 / x.G.gw)).flatMap (·.lanes)))
  | _ => none

end Sys2Proof

/-- A tile word reads its registers and is accepted, in order, by its core's queue unless the queue holds 64 operations; `mma` under a
semiring that is not its descriptor's is ILLEGAL_INSTR. `fmtset` writes a valid descriptor and refuses another value.
(That room is looked at before the semiring is the model's reading: log 19.)
`acc.ld` and `acc.drn`: a region outside its space, or off a granule, faults; with the region's pages resident the load hands the
engine the region's 4,096 values (its full-empty form once every granule is full; until then it waits, holding its fragment) and the drain
its address. -/
def Obligations.TileWords : Prop :=
  ((∀ (i : Instr) (c : Ctl) (s : State) (g : Nat) (pc : Word) (G0 : Group) (rule : Ctx → BitVec 7 × List RegName × TOp),
    tileRule i = some rule → i.ctl? = some c → Performs i c s g pc G0 →
    let x := ctxAt i c s g pc G0
    let r := rule x
    let agrees := ∀ f, i = .mma c f → (x.G.d.getD (f.c.toNat % 8) 0#32).toNat / 2 ^ 13 % 8 = f.c.toNat / 8 % 8
    ((x.s.core G0.core).ops.length < 64 → agrees → ∃ t H, exec i s = .next t ∧ t.mem = s.mem ∧ t.groups[g]? = some H ∧ H.v = x.G.v ∧ H.s = x.G.s ∧
      H.outst = x.G.outst ++ [x.oword r.2.1 .tile] ∧
      (G0.core < s.cores.length → (t.core G0.core).ops = (s.core G0.core).ops ++ [⟨g, G0.seq, pc, r.1.toNat, x.s.physTile g r.1.toNat, r.2.2⟩])) ∧
    (64 ≤ (x.s.core G0.core).ops.length → Answers i c s g pc G0 (.stall x.s .room false)) ∧
    ((x.s.core G0.core).ops.length < 64 → ¬agrees → Traps i c s g pc G0 0x01 0 0 0)) ∧
  (∀ (c : Ctl) (f : M96) (s : State) (g : Nat) (pc : Word) (G0 : Group), Performs (.fmtset c f) c s g pc G0 →
    let x := ctxAt (.fmtset c f) c s g pc G0
    let v : Lane32 := if f.mod = 0 then f.imm else (x.sreg f.a).setWidth 32
    let n := v.toNat
    let valid := n / 2 ^ 24 = 0 ∧ n / 256 % 8 = 0 ∧ n / 2 ^ 13 % 8 ≤ 4 ∧ n / 2 ^ 11 % 4 ≤ 2 ∧ 2 ≤ n % 16 ∧ n % 16 ≤ 8 ∧ 2 ≤ n / 16 % 16 ∧ n / 16 % 16 ≤ 8
    (valid → Answers (.fmtset c f) c s g pc G0 (.go (x.s.modGroup g fun G => G.putVar [.d f.d.toNat v]))) ∧
    (¬valid → Traps (.fmtset c f) c s g pc G0 0x02 0 0 0))) ∧
  (∀ (i : Instr) (c : Ctl) (f : M96) (s : State) (g : Nat) (pc : Word) (G0 : Group), i = .accLd c f ∨ i = .accDrn c f → Performs i c s g pc G0 →
    let x := ctxAt i c s g pc G0
    let own := !(f.c.getLsbD 2)
    let o := (x.sreg f.a).toInt + f.imm.toInt
    let a := spaceBase x own + o.toNat
    let free := (x.s.core G0.core).ops.length < 64
    (free → (o < 0 ∨ (spaceOf x own : Int) < o + 16384) → Traps i c s g pc G0 0x20 0 (o % 2 ^ 64).toNat 0) ∧
    (free → 0 ≤ o → o + 16384 ≤ spaceOf x own → o % 16 ≠ 0 → Traps i c s g pc G0 0x13 0 (o % 2 ^ 64).toNat 0) ∧
    (free → 0 ≤ o → o + 16384 ≤ spaceOf x own → o % 16 = 0 → x.G.clear = true → (∀ p ∈ pagesOf a 16384, Resident x (p * 4096)) →
      G0.core < s.cores.length → (i = .accLd c f → x.s.spBad x.tid a 16384 = none) →
      (i = .accLd c f → f.c.toNat % 4 = 0 ∨ (∀ k < 1024, x.s.feGet x.tid (a + 16 * k) = true) → ∃ t H, exec i s = .next t ∧ t.mem = s.mem ∧ t.groups[g]? = some H ∧ H.outst = x.G.outst ++ [x.oword [] .tile] ∧
        ∃ vals, (t.core G0.core).ops = (s.core G0.core).ops ++ [⟨g, G0.seq, pc, f.d.toNat, x.s.physTile g f.d.toNat, .ld vals⟩] ∧
          vals.length = 4096 ∧ ∀ k < 4096, (vals.getD k 0#32).toNat = x.s.spReadLE x.tid (a + 4 * k) 4) ∧
      (i = .accLd c f → f.c.toNat % 4 ≠ 0 → (∃ k < 1024, x.s.feGet x.tid (a + 16 * k) = false) →
        (∀ k < 1024, x.s.feGet x.tid (a + 16 * k) = false → x.s.haltedOver x.tid (a + 16 * k) = none) →
        ∃ t H w rest got, exec i s = .next t ∧ t.mem = s.mem ∧ t.groups[g]? = some H ∧ H.outst = x.G.outst ++ [w] ∧ w.held = x.frag ∧
          w.kind = .accLdFe f.d.toNat a rest got ∧ ∀ b, b ∈ rest ↔ ∃ k < 1024, b = a + 16 * k ∧ x.s.feGet x.tid b = false) ∧
      (i = .accDrn c f → ∃ t H, exec i s = .next t ∧ t.mem = s.mem ∧ t.groups[g]? = some H ∧ H.outst = x.G.outst ++ [x.oword [] .tile] ∧
        (t.core G0.core).ops = (s.core G0.core).ops ++ [⟨g, G0.seq, pc, f.b.toNat, x.s.physTile g f.b.toNat, .drn a (f.c.getLsbD 3)⟩])))

namespace Sys2Proof

/-- Element (i, j) of the tile after an operation that writes a tile, from the tile before and its group's width. -/
def tileResult (gw : Nat) (t : List Lane32) (i j : Nat) : TOp → Option Nat
  | .mma sr desc a b =>
      let h := gw / 8
      some (mmaElem sr (descSoff desc.toNat) (tileRow (descFillm desc.toNat) (descMwa desc.toNat) a h i)
        (tileRow (descFillm desc.toNat) (descMwb desc.toNat) b h j) (tileAt t i j))
  | .zero v => some v.toNat
  | .scl f g => some (Fmt.f32.result .rne (Num.add .rne (Num.mul (Fmt.f32.decode (tileAt t i j)) (Fmt.f32.decode (f.getD i 0#32).toNat))
      (Fmt.f32.decode (g.getD i 0#32).toNat)) false)
  | .ld vals => some (tileAt vals i j)
  | _ => none

/-- The register writes of an operation that reads a tile. -/
def tileReads (gw : Nat) (t : List Lane32) : TOp → Option (List RegWrite)
  | .rd exp row0 nr d act frag => some (rdWrites gw row0 nr d act frag fun i j => BitVec.ofNat 32 (if exp then exu (tileAt t i j) else tileAt t i j))
  | .max col mrg d old act frag => some (maxWrites gw d old mrg act frag (tileMax col t))
  | _ => none

end Sys2Proof

namespace Sys2Proof

/-- A binary32 encoding is the exact value `y` rounded once, to nearest; an exact zero is +0. -/
def RoundedTo (w : Nat) (y : Rat) : Prop :=
  ∃ u k h, Num.rat (.fin u k h) = y ∧ (y = 0 → u = false) ∧ w = Fmt.f32.result .rne (.fin u k h) false

/-- Neither of two binary32 encodings is NaN, and the first is not above the second; −0 lies below +0 (R77). -/
def atMost (x y : Nat) : Prop :=
  let a := Fmt.f32.decode x
  let b := Fmt.f32.decode y
  a ≠ .nan ∧ b ≠ .nan ∧ a.le b = true ∧ (b.le a = true → 2 ^ 31 ≤ y → 2 ^ 31 ≤ x)

/-- Register and block that hold row or column `i` of a fragment (R274), a byte, a code bit and a half of that block. -/
def fragAt (gw : Nat) (vs : List VReg) (i : Nat) : VReg × Nat := (vs.getD (i / (gw / 8)) ⟨[], ⟨0#64, 0#16⟩⟩, i % (gw / 8))
def fragBits (gw : Nat) (vs : List VReg) (i lo : Nat) : Bool :=
  (((fragAt gw vs i).1.lanes.getD (8 * (fragAt gw vs i).2 + lo / 32) 0#32)).getLsbD (lo % 32)
def fragInt16 (gw : Nat) (vs : List VReg) (i k : Nat) : Int := (BitVec.ofFnLE fun b : Fin 16 => fragBits gw vs i (16 * k + b.val)).toInt

/-- Byte `k` of row or column `i` as read under `.pt` and `.mt` (R279): the top bits of the plane count that the tag and the width
give, and the fill bit below them where the descriptor and the tag ask for it. -/
def fragRead (gw fillm w : Nat) (vs : List VReg) (i k : Nat) : Int :=
  let t := (fragAt gw vs i).1.tag
  let p := if t.fmt = 6 ∧ t.pln < 8 then min t.pln w else w
  (BitVec.ofFnLE fun b : Fin 8 => if 8 - p ≤ b.val then fragBits gw vs i (8 * k + b.val)
    else decide (b.val + 1 + p = 8 ∧ (fillm = 2 ∨ (fillm = 0 ∧ t.fill = true)))).toInt

end Sys2Proof

/-- The arithmetic of the matrix engine on one element. `.pt` adds the block product, `.px` the number of differing bits, each with one
rounding; `.oa` sets 1.0 where the codes share a bit; `.mp` and `.mt` take the least saturated sum and the largest rounded product.
A block exponent of 255 gives the canonical NaN; an exponent of 0, or a zero product, leaves a `.pt` element as it is. `acc.rdx` delivers
the exponential of the table, whose entries are the rounded powers; `acc.max` the largest element of a row or column.
The engine performs the oldest operation of a pipe once no older one on its tile is left: the tile takes the operation's result in
every element, its word completes (with the registers that a read writes), and no other tile changes. A drain hands 1,024 granules to
the port core and zeroes the tile where it asks; each granule that lands, on a page that is resident or brought, is written and set full, and one whose page cannot be corrected is lost (the model's choice: log 24). A
failed residue check stops the group with ARITH_CHECK. -/
def Obligations.TileOperationsPerform : Prop :=
  ((∀ (gw : Nat) (A B : List VReg) (desc : Lane32) (i j acc : Nat), gw ∈ [16, 32, 64] → i < 64 → j < 64 → acc < 2 ^ 32 →
    let d := desc.toNat
    let ea := ((fragAt gw A i).1.tag.exp (fragAt gw A i).2).toNat
    let eb := ((fragAt gw B j).1.tag.exp (fragAt gw B j).2).toNat
    let scale : Rat := (2 : Rat) ^ ((ea : Int) + eb - 268 + (desc.extractLsb' 16 8).toInt)
    let pr := fun (k : Nat) => fragRead gw (d / 2 ^ 11 % 4) (d % 16) A i k * fragRead gw (d / 2 ^ 11 % 4) (d / 16 % 16) B j k
    let old := Fmt.f32.decode acc
    let el := fun (sr : Nat) => mmaElem sr (descSoff d) (tileRow (descFillm d) (descMwa d) A (gw / 8) i) (tileRow (descFillm d) (descMwb d) B (gw / 8) j) acc
    let added := fun (w : Nat) (y : Rat) => (old = .nan → w = 0x7FC00000) ∧ (∀ s, old = .inf s → w = acc) ∧
      (∀ s m e, old = .fin s m e → RoundedTo w (old.rat + y))
    (ea = 255 ∨ eb = 255 → el 0 = 0x7FC00000 ∧ el 4 = 0x7FC00000) ∧
    (ea ≠ 255 → eb ≠ 255 →
      (let P := ((List.range 32).map pr).sum
       (ea = 0 ∨ eb = 0 ∨ P = 0 → el 0 = acc) ∧ (ea ≠ 0 → eb ≠ 0 → P ≠ 0 → added (el 0) (P * scale))) ∧
      ∃ N : Nat → Nat, (∀ k < 32, (ea = 0 ∨ eb = 0 ∨ pr k = 0 → N k = 0) ∧ (ea ≠ 0 → eb ≠ 0 → pr k ≠ 0 → RoundedTo (N k) (pr k * scale))) ∧
        (old ≠ .nan → atMost acc (el 4)) ∧ (∀ k < 32, atMost (N k) (el 4)) ∧ ((old ≠ .nan ∧ el 4 = acc) ∨ ∃ k < 32, el 4 = N k)) ∧
    added (el 1) (((List.range 256).countP fun b => fragBits gw A i b != fragBits gw B j b : Nat) : Rat) ∧
    ((∃ b < 256, fragBits gw A i b = true ∧ fragBits gw B j b = true) → el 2 = 0x3F800000) ∧
    ((∀ b < 256, fragBits gw A i b = true → fragBits gw B j b = false) → el 2 = acc) ∧
    (∃ N : Nat → Nat, (∀ k < 16, RoundedTo (N k) ((max (-32768) (min 32767 (fragInt16 gw A i k + fragInt16 gw B j k)) : Int) : Rat)) ∧
      (old ≠ .nan → atMost (el 3) acc) ∧ (∀ k < 16, atMost (el 3) (N k)) ∧ ((old ≠ .nan ∧ el 3 = acc) ∨ ∃ k < 16, el 3 = N k))) ∧
  (∀ (x f g : Nat), x < 2 ^ 32 → f < 2 ^ 32 → g < 2 ^ 32 → ∀ s m e s' m' e' s2 m2 e2, Fmt.f32.decode x = .fin s m e →
    Fmt.f32.decode f = .fin s' m' e' → Fmt.f32.decode g = .fin s2 m2 e2 →
    Sys2Proof.Num.rat (.fin s m e) * Sys2Proof.Num.rat (.fin s' m' e') + Sys2Proof.Num.rat (.fin s2 m2 e2) ≠ 0 →
    RoundedTo (sclElem x f g) (Sys2Proof.Num.rat (.fin s m e) * Sys2Proof.Num.rat (.fin s' m' e') + Sys2Proof.Num.rat (.fin s2 m2 e2))) ∧
  (∀ (t : List Lane32) (col : Bool) (i : Nat), i < 64 →
    let e := fun (j : Nat) => if col then tileAt t j i else tileAt t i j
    let r := (tileMax col t).getD i 0
    ((∀ j < 64, Fmt.f32.decode (e j) = .nan) → r = 0x7FC00000) ∧
    ((∃ j < 64, Fmt.f32.decode (e j) ≠ .nan) → (∃ j < 64, r = e j) ∧ ∀ j < 64, Fmt.f32.decode (e j) ≠ .nan → atMost (e j) r)) ∧
  (∀ (gw row0 nr d : Nat) (act frag : List Nat) (elem : Nat → Nat → Lane32) (r l : Nat) (y : Lane32),
    .v r l y ∈ rdWrites gw row0 nr d act frag elem ↔
      ∃ q < nr * 64 / gw, r = d + q ∧ l ∈ act ∧ y = elem ((row0 + (gw * q + l) / 64) % 64) ((gw * q + l) % 64)) ∧
  (∀ (gw d : Nat) (old : List VReg) (mrg : Bool) (act frag : List Nat) (ms : List Nat) (q l : Nat), q < 64 / gw → l ∈ act →
    (∀ m ∈ ms, m < 2 ^ 32) →
    let m := ms.getD (gw * q + l) 0
    let o := ((old.getD q ⟨[], ⟨0#64, 0#16⟩⟩).lanes.getD l 0#32).toNat
    ∃ y : Lane32, .v (d + q) l y ∈ maxWrites gw d old mrg act frag ms ∧ (mrg = false → y.toNat = m) ∧
      (mrg = true → Fmt.f32.decode m ≠ .nan → Fmt.f32.decode o ≠ .nan → atMost m y.toNat ∧ atMost o y.toNat ∧ (y.toNat = m ∨ y.toNat = o)) ∧
      (mrg = true → Fmt.f32.decode m = .nan → Fmt.f32.decode o ≠ .nan → y.toNat = o) ∧
      (mrg = true → Fmt.f32.decode m ≠ .nan → Fmt.f32.decode o = .nan → y.toNat = m)) ∧
  (∀ s < 64, |((exuRow s).1 : ℝ) - (2 : ℝ) ^ ((s : ℝ) / 64) * 2 ^ 16| ≤ 1 / 2 ∧
    |((exuRow s).2 : ℝ) - ((2 : ℝ) ^ (((s : ℝ) + 1) / 64) - (2 : ℝ) ^ ((s : ℝ) / 64)) * 2 ^ 16| ≤ 1 / 2) ∧
  (∀ x : Nat, x < 2 ^ 32 →
    (Fmt.f32.decode x = .nan → exu x = 0x7FC00000) ∧ (Fmt.f32.decode x = .inf false → exu x = 0x7F800000) ∧ (Fmt.f32.decode x = .inf true → exu x = 0) ∧
    (∀ s e, Fmt.f32.decode x = .fin s 0 e → exu x = 0x3F800000) ∧
    ∀ s m e, Fmt.f32.decode x = .fin s m e → m ≠ 0 → ∃ Y : Nat, RoundedTo Y (Sys2Proof.Num.rat (.fin s m e) * (12102203 / 2 ^ 23)) ∧
      (Fmt.f32.decode Y = .inf false → exu x = 0x7F800000) ∧ (Fmt.f32.decode Y = .inf true → exu x = 0) ∧
      ∀ s' m' e', Fmt.f32.decode Y = .fin s' m' e' →
        let y := Sys2Proof.Num.rat (.fin s' m' e')
        let c := exuRow ⌊64 * (y - ⌊y⌋)⌋.toNat
        (128 ≤ y → exu x = 0x7F800000) ∧ (⌊y⌋ < -126 → exu x = 0) ∧
        (y < 128 → -126 ≤ ⌊y⌋ → RoundedTo (exu x) ((c.1 + c.2 * (64 * (y - ⌊y⌋) - ⌊64 * (y - ⌊y⌋)⌋)) * (2 : Rat) ^ (⌊y⌋ - 16))))) ∧
  ((∀ (i : Instr) (s : State) (core : Nat) (o : TileOp) (w : OWord) (G : Group) (isMma : Bool),
    i = .multiplyPipePerform core true ∧ isMma = true ∨ i = .accPortPerform core true ∧ isMma = false → (s.core core).nextOp isMma = some o →
    core < s.cores.length → ((s.core core).tile o.phys).length = 4096 → s.groups[o.g]? = some G → G.stage = .running →
    G.outst.find? (fun y => y.id == o.word) = some w → (∀ vals, o.op = .ld vals → vals.length = 4096) →
    let t0 := (s.core core).tile o.phys
    ∃ t H, exec i s = .next t ∧ t.mem = s.mem ∧ (t.core core).ops = (s.core core).ops.erase o ∧ t.groups[o.g]? = some H ∧
      H.outst = G.outst.filter (fun y => y.id != w.id) ∧ (∀ n, n ≠ o.phys → (t.core core).tile n = (s.core core).tile n) ∧
      (∀ ws, tileReads G.gw t0 o.op = some ws → t = (s.dropOp core o).complete o.g w ws) ∧
      (∀ r c v, r < 64 → c < 64 → tileResult G.gw t0 r c o.op = some v → tileAt ((t.core core).tile o.phys) r c = v % 2 ^ 32) ∧
      (∀ a z, o.op = .drn a z → (t.core core).drains.length = (s.core core).drains.length + 1024 ∧
        (t.core core).tile o.phys = if z then List.replicate 4096 0#32 else t0)) ∧
  (∀ (s s' : State) (core k : Nat) (d : Drain) (u : Unit), (s.core core).drains[k]? = some d → s.bring core d.team (pagesOf d.addr 16) = .ok s' u →
    exec (.drainGranuleLand core k) s = .next ((s'.spWriteFull d.team d.addr d.bytes).modCore core fun c => { c with drains := c.drains.eraseIdx k })) ∧
  (∀ (s s' : State) (core k lane va : Nat) (d : Drain), (s.core core).drains[k]? = some d → s.bring core d.team (pagesOf d.addr 16) = .bad s' lane va →
    exec (.drainGranuleLand core k) s = .next (s'.modCore core fun c => { c with drains := c.drains.eraseIdx k })) ∧
  (∀ (s : State) (core : Nat), (s.core core).nextOp true = none → exec (.multiplyPipePerform core true) s = .next s) ∧
  (∀ (s : State) (core : Nat) (o : TileOp) (G : Group) (w : OWord) (sr : Nat) (d : Lane32) (a b : List VReg),
    (s.core core).nextOp true = some o → o.op = .mma sr d a b → sr ≤ 1 → s.groups[o.g]? = some G → G.stage = .running →
    G.outst.find? (fun y => y.id == o.word) = some w →
    ∃ t H, exec (.multiplyPipePerform core false) s = .next t ∧ (t.core core).tile o.phys = (s.core core).tile o.phys ∧
      t.groups[o.g]? = some H ∧ H.stage ≠ .running ∧ H.v = G.v ∧ ∃ f ∈ H.faults, f.code = 0x41 ∧ f.late = true ∧ f.info = o.tile))

/-! ## Search (12 R290-R309) -/

/-- A candidate queue of capacity `cap` holds at most `cap` keys in rising order; a push keeps that, adds the key while there is room,
and otherwise puts it in the place of the largest key if it is smaller.
The queue words, `vf.test`, `hamd` and `kvslot` on operands that pass their checks, with every page they need resident or brought, and
with the answers that peers owe `kvslot` received: it asks them first, and waits. A capacity of `cq.init` outside 1 to 1,024, an invalid
queue header and a KV descriptor with a field outside its range are RESERVED_FIELD. A header, an entry or a KV descriptor that cannot be
corrected is a precise fault; a lane's word of `kvslot` that cannot is a late one.
(The order of checks in the corners, and that `kvslot` reads when it issues, are the model's readings: log 4, 22.)
`gwalk` is accepted by its core's walk unit once its descriptor and regions pass their checks: the fragment waits with it, last in
the unit's order; nothing else of the group changes. -/
def Obligations.SearchWords : Prop :=
  (∀ (q : CQ) (e : Nat × Nat), q.ents.Pairwise (fun a b => a.1 ≤ b.1) → q.ents.length ≤ q.cap → 0 < q.cap →
    let r := q.push e
    r.cap = q.cap ∧ r.ents.Pairwise (fun a b => a.1 ≤ b.1) ∧ r.ents.length ≤ r.cap ∧
    (q.ents.length < q.cap → r.ents.Perm (e :: q.ents)) ∧
    (∀ y, q.ents.length = q.cap → q.ents.getLast? = some y → e.1 < y.1 → r.ents.Perm (e :: q.ents.dropLast)) ∧
    (∀ y, q.ents.length = q.cap → q.ents.getLast? = some y → y.1 ≤ e.1 → r = q)) ∧
  ((∀ (c : Ctl) (f : F64) (s : State) (g : Nat) (pc : Word) (G0 : Group), Issues (.hamd c f) c s g pc G0 →
    let x := ctxAt (.hamd c f) c s g pc G0
    let w := 8 * 2 ^ (f.c.toNat % 4)
    Answers (.hamd c f) c s g pc G0 (.out x.s (x.oword [.v f.d.toNat] (.land (x.vres f.d.toNat 0 fun l => BitVec.ofNat 32
      ((List.range w).map fun k => (List.range 32).countP fun b =>
        (x.v f.a (l / w * w + k)).getLsbD b != (x.v f.b (if f.mod = 1 then k else l / w * w + k)).getLsbD b).sum))))) ∧
  (∀ (c : Ctl) (f : F64) (s : State) (g : Nat) (pc : Word) (G0 : Group) (addr : Nat) (s' : State) (u : Unit), Performs (.cqInit c f) c s g pc G0 →
    let x := ctxAt (.cqInit c f) c s g pc G0
    let cap := (x.sreg f.b).toNat
    (cap = 0 ∨ 1024 < cap → Traps (.cqInit c f) c s g pc G0 0x02 0 0 0) ∧
    (0 < cap → cap ≤ 1024 → x.cqRegion (f.mod.getLsbD 0) (x.sreg f.a).toNat (16 + 8 * cap) = .ok addr → x.G.clear = true →
      x.s.bring G0.core x.tid (pagesOf addr 16) = .ok s' u →
      Answers (.cqInit c f) c s g pc G0 (.go (s'.spWrite x.tid addr (natToBytes 4 cap ++ List.replicate 4 0#8))))) ∧
  (∀ (i : Instr) (c : Ctl) (f : F64) (s : State) (g : Nat) (pc : Word) (G0 : Group) (addr : Nat) (s1 s2 : State) (u v : Unit) (q q' : CQ),
    i = .cqPush c f ∨ i = .cqPop c f ∨ i = .cqTop c f → Performs i c s g pc G0 →
    let x := ctxAt i c s g pc G0
    x.cqRegion (f.mod.getLsbD 0) (x.sreg f.a).toNat 16 = .ok addr → x.G.clear = true → x.s.bringRead G0.core x.tid [(addr, 16)] = .ok s1 u →
    s1.cqRead x.tid addr = some q → x.cqRegion (f.mod.getLsbD 0) (x.sreg f.a).toNat (16 + 8 * q.cap) = .ok addr →
    s1.bringQueue G0.core x.tid addr q = .ok s2 v → s2.cqRead x.tid addr = some q' →
    (i = .cqPush c f →
      let after := x.part.foldl (fun (q : CQ) l => q.push ((x.v f.b l).toNat * 2 ^ 32 + (x.v f.c l).toNat, l + 1)) q'
      Answers i c s g pc G0 (.out (s2.cqWrite x.tid addr after)
        (x.oword [.p f.d.toNat] (.land (x.part.map fun l => .p f.d.toNat l (after.ents.any fun e => e.2 == l + 1)))))) ∧
    (i = .cqPop c f →
      let got := x.part.zip (q'.ents.map fun e => BitVec.ofNat 64 e.1)
      Answers i c s g pc G0 (.out (s2.cqWrite x.tid addr { q' with ents := q'.ents.drop x.part.length })
        (x.oword [.v f.d.toNat, .v (f.d.toNat + 1), .p f.b.toNat]
          (.land ((got.flatMap fun p => [.v f.d.toNat p.1 (p.2.setWidth 32), .v (f.d.toNat + 1) p.1 ((p.2 >>> 32).setWidth 32)]) ++
            (plainTag f.d.toNat 0 x.frag ++ plainTag (f.d.toNat + 1) 0 x.frag) ++ x.part.zipIdx.map fun (l, k) => .p f.b.toNat l (decide (k < q'.ents.length))))))) ∧
    (i = .cqTop c f → Answers i c s g pc G0 (.out s2 (x.oword [.s f.d.toNat] (.land [.s f.d.toNat (BitVec.ofNat 64
      (if f.c = 0 then (q'.ents.head?.map (·.1)).getD (2 ^ 64 - 1) else if f.c = 1 then (q'.ents.getLast?.map (·.1)).getD (2 ^ 64 - 1)
       else if f.c = 2 then q'.ents.length else q'.cap))]))))) ∧
  (∀ (i : Instr) (c : Ctl) (f : F64) (s s1 s2 : State) (g : Nat) (pc : Word) (G0 : Group) (addr lane va : Nat) (u : Unit) (q : CQ),
    i = .cqPush c f ∨ i = .cqPop c f ∨ i = .cqTop c f → Performs i c s g pc G0 →
    let x := ctxAt i c s g pc G0
    let faults := fun (t : State) (code va : Nat) => exec i s = .next ((t.backOut g G0).groupFault g (x.flt code 0 va 0))
    (∀ code va, x.cqRegion (f.mod.getLsbD 0) (x.sreg f.a).toNat 16 = .error (code, va) → Traps i c s g pc G0 code 0 va 0) ∧
    (x.cqRegion (f.mod.getLsbD 0) (x.sreg f.a).toNat 16 = .ok addr → x.G.clear = true →
      (x.s.bringRead G0.core x.tid [(addr, 16)] = .bad s1 lane va → faults s1 0x60 va) ∧
      (x.s.bringRead G0.core x.tid [(addr, 16)] = .ok s1 u →
        (s1.cqRead x.tid addr = none → faults s1 0x02 0) ∧
        (s1.cqRead x.tid addr = some q → x.cqRegion (f.mod.getLsbD 0) (x.sreg f.a).toNat (16 + 8 * q.cap) = .ok addr →
          s1.bringQueue G0.core x.tid addr q = .bad s2 lane va → faults s2 0x60 va)))) ∧
  (∀ (c : Ctl) (f : F64) (s : State) (g : Nat) (pc : Word) (G0 : Group) (addr : Nat), Performs (.vfTest c f) c s g pc G0 →
    let x := ctxAt (.vfTest c f) c s g pc G0
    let k := f.c.toNat
    let bitOf := fun l => (x.v f.b l).toNat * 0x9E3779B1 % 2 ^ 32 / 2 ^ (32 - k)
    x.cqRegion (f.mod.getLsbD 0) (x.sreg f.a).toNat (2 ^ (k - 3)) = .ok addr → x.G.clear = true → (∀ l ∈ x.part, Sound x (addr + bitOf l / 8) 1) →
    let bit := fun (t : State) l => (t.spRead1 x.tid (addr + bitOf l / 8)).getLsbD (bitOf l % 8)
    (f.mod.getLsbD 1 = true →
      ∃ t H w, exec (.vfTest c f) s = .next t ∧ t.mem = s.mem ∧ t.groups[g]? = some H ∧ H.outst = x.G.outst ++ [w] ∧
        (∀ a, t.spRead1 x.tid a = s.spRead1 x.tid a) ∧ w.kind = .land (x.part.map fun l => .p f.d.toNat l (bit x.s l))) ∧
    (f.mod.getLsbD 1 = false → MemWf s → (∀ fr ∈ (s.cores.flatMap (·.frames)), Cells.wf fr.data = true) →
      ∃ t H w, exec (.vfTest c f) s = .next t ∧ t.groups[g]? = some H ∧ H.outst = x.G.outst ++ [w] ∧
        (∀ l ∈ x.part, bit t l = true) ∧
        (∀ a b : Nat, (∀ l ∈ x.part, a ≠ addr + bitOf l / 8 ∨ b ≠ bitOf l % 8) → (t.spRead1 x.tid a).getLsbD b = (s.spRead1 x.tid a).getLsbD b) ∧
        w.kind = .land (x.part.map fun l => .p f.d.toNat l (bit x.s l || x.part.any fun k => k < l && bitOf k == bitOf l)))) ∧
  (∀ (c : Ctl) (f : F64) (s : State) (g : Nat) (pc : Word) (G0 : Group) (l0 : XLine) (live : List (Nat × Nat)) (dropped : List Nat) (ls : List XLine),
    Performs (.kvslot c f) c s g pc G0 →
    let x := ctxAt (.kvslot c f) c s g pc G0
    let r := (x.breg f.b).toNat
    let wr := f.mod.getLsbD 1
    let desc := mkAccs [(0, recBase r)] [l0] 64 fun _ => []
    let got := x.readAll x.s 0 desc
    let bytes := got.1.flatMap (·.2)
    let d := kvDesc bytes
    let pos := fun l => if f.mod.getLsbD 0 then (x.v f.a l).toNat else (x.pair f.a l).toNat
    let slot := fun l => if pos l < d.nsink then pos l else d.nsink + (pos l - d.nsink) % d.win
    let gen := fun l => if pos l < d.nsink then 1 else (pos l - d.nsink) / d.win % (2 ^ 32 - 1) + 1
    let scope := if unAll desc then 0 else f.b.toNat / 16
    let s2 := got.2.l1Acquire G0.core scope
    let as := mkAccs live ls 4 fun _ => []
    let tag := 2 * leNat bytes + 2
    let words := x.readAll s2 tag as
    let word := fun (o : Nat) => if recIn r o 4 then match words.1.find? fun p => p.1.va == recAddr r o with | some p => leNat p.2 | none => 0 else 0
    let seen := fun l => decide (pos l < d.len) && (decide (pos l < d.nsink) || decide (max d.nsink (d.len - d.win) ≤ pos l))
    recBad r [1] = false → recIn r 0 64 = true → recBase r + 63 < 2 ^ 56 → recBase r % 64 = 0 → x.G.clear = true →
    x.s.xlateAll g x.G x.ten pc .load [(0, recBase r)] = .ok [l0] → SoFree x [l0] → x.G.touches desc = false →
    x.s.batchWaits desc = false →
    (l0.own = .here → x.s.poisoned l0.pa = true → Traps (.kvslot c f) c s g pc G0 0x60 0 (recBase r) 0) ∧
    ((l0.own = .here → x.s.poisoned l0.pa = false) →
    ((x.askAll 0 desc).1 = false → Answers (.kvslot c f) c s g pc G0 (.stall (x.askAll 0 desc).2 .other true)) ∧
    ((x.askAll 0 desc).1 = true → d.ok = false → exec (.kvslot c f) s = .next ((got.2.backOut g G0).groupFault g (x.flt 0x02 0 0 0))) ∧
    ((x.askAll 0 desc).1 = true → d.ok = true →
      checkLanes r (x.part.flatMap fun l => (d.offs wr (pos l)).map fun o => (l, o)) 4 = .ok (live, dropped) →
      s2.xlateAll g x.G x.ten pc .load live = .ok ls → SoFree { x with s := s2 } ls → x.G.touches as = false → x.fits (desc ++ as) = true →
      got.2.batchWaits as = false →
      let dests := (List.range 4).map (fun k => RegName.v (f.d.toNat + k)) ++ [.p (f.c.toNat % 8)]
      (∀ a, firstPoison got.2 as = some a → Answers (.kvslot c f) c s g pc G0 (.out got.2 (x.oword dests (.bad a.lane a.va)))) ∧
      (firstPoison got.2 as = none → (({ x with s := s2 } : Ctx).askAll tag as).1 = true →
      Answers (.kvslot c f) c s g pc G0 (.out (words.2.unask g)
        { x.oword dests
            (.land ((List.range 4).flatMap (fun k => plainTag (f.d.toNat + k) 0 x.frag) ++ x.part.flatMap fun l =>
              [.v f.d.toNat l (BitVec.ofNat 32 (slot l)), .v (f.d.toNat + 1) l (BitVec.ofNat 32 (word (d.ptoff + 4 * (slot l / d.spp)))),
               .v (f.d.toNat + 2) l (BitVec.ofNat 32 (gen l)), .v (f.d.toNat + 3) l (BitVec.ofNat 32 (slot l % d.spp * d.slotb)),
               .p (f.c.toNat % 8) l (if wr then decide (d.len ≤ pos l) else seen l && word (d.genoff + 4 * slot l) == gen l)])) with
          acq := if unAll (desc ++ as) then 0 else f.b.toNat / 16, so := soAny (desc ++ as) }))))) ∧
  (∀ (c : Ctl) (f : F64) (s : State) (g : Nat) (pc : Word) (G0 : Group), Issues (.kvslot c f) c s g pc G0 → participants c pc G0 = [] →
    Answers (.kvslot c f) c s g pc G0 (.go (ctxAt (.kvslot c f) c s g pc G0).s))) ∧
  (∀ (c : Ctl) (f : M96) (s : State) (g : Nat) (pc : Word) (G0 : Group) (s1 s2 : State) (u v : Unit) (q r : CQ), Performs (.gwalk c f) c s g pc G0 →
    let x := ctxAt (.gwalk c f) c s g pc G0
    let o := (x.sreg f.a).toInt + f.imm.toInt
    let base := spaceBase x true
    let w := s1.walkDesc x.tid base (base + o.toNat)
    recBad (x.breg f.b).toNat [1] = false → 0 ≤ o → o + 32 ≤ spaceOf x true → o % 16 = 0 → x.G.clear = true →
    x.s.bringRead G0.core x.tid [(base + o.toNat, 32)] = .ok s1 u → w.ok = true → w.regions base (spaceOf x true) 0 0 = none →
    s1.bringRead G0.core x.tid [(w.cq, 16), (w.rq, 16)] = .ok s2 v → s2.cqRead x.tid w.cq = some q → s2.cqRead x.tid w.rq = some r →
    w.regions base (spaceOf x true) q.cap r.cap = none →
    Answers (.gwalk c f) c s g pc G0 (.hold (s2.modCore G0.core fun k => { k with walks := k.walks ++ [(g, G0.seq)] })
      { x.oword [.s f.d.toNat] (.gwalk (base + o.toNat) (f.c.toNat % 16) 0 0 f.d.toNat (x.breg f.b) (f.b.toNat / 16) []) with held := x.frag }))

/-! ## Spawn and join (01 R39-R42, 07 R193-R195, 19 R402) -/

/-- The checks of 07 R193 on an object of `n` bytes pass. -/
def Sys2Proof.ObjectOk (r : Nat) (o : Int) (n : Nat) : Prop :=
  recBad r [1] = false ∧ recIn r o n = true ∧ recAddr r o.toNat % n = 0 ∧ recAddr r o.toNat + n - 1 < 2 ^ 56

/-- `spawn` passes translation and permission at its own level, then waits for every earlier access of its group, those on UN pages too,
and hands the record of 64 bytes to Sward: it goes on when Sward has accepted it, and waits, its record last in its tenancy's list, while
an earlier record of its group waits there, while Sward cannot read it yet and while its band is full. A record that cannot be read is
dropped with a NOTE. `joinc` takes 1 from COUNT in one read-modify-write that does not go below 0, gives the old COUNT, and when COUNT
becomes 0 has the record at CRADDR enqueued; no other byte changes; its token is then free; a poisoned COUNT changes and enqueues nothing.
An object that is out of bounds or off its boundary faults.
(That the record is read when the word issues is the model's choice: log 4.) -/
def Obligations.SpawnAndJoin : Prop :=
  (∀ (c : Ctl) (f : F64) (s : State) (g : Nat) (pc : Word) (G0 : Group), Performs (.spawn c f) c s g pc G0 →
    let x := ctxAt (.spawn c f) c s g pc G0
    let r := (x.breg f.a).toNat
    let o := (x.sreg f.b).toInt
    let va := recAddr r o.toNat
    let found := x.s.xlateAll g x.G x.ten pc .load [(0, va)]
    let opened := ∃ o ∈ x.G.outst, (o.isLoad = true ∨ o.isStore = true) ∧ o.kind.isWait = false
    let taken := x.s.takeRecord x.ten va x.tid .spawn none
    let later := fun (s' : State) (bs : Option (List Byte)) => Answers (.spawn c f) c s g pc G0
      (.hold (s'.modTen x.ten fun t => { t with joinWait := t.joinWait ++ [⟨va, x.tid, some g, some G0.seq, bs⟩] })
        { x.oword [] .spawn with held := x.frag })
    ObjectOk r o 64 →
    (∀ s' code lane a info, found = .fault s' code lane a info →
      exec (.spawn c f) s = .next ((s'.backOut g G0).groupFault g (x.flt code lane a info))) ∧
    (∀ s' w, found = .wait s' w → exec (.spawn c f) s = .next (stallAt g G0 pc w true s')) ∧
    (∀ l, found = .ok [l] → SoFree x [l] →
      (x.G.clear = false → Answers (.spawn c f) c s g pc G0 (.stall x.s .other true)) ∧
      (x.G.clear = true → opened ∨ x.s.relCheck g 4 = .wait → Answers (.spawn c f) c s g pc G0 (.stall x.s .acks true)) ∧
      (∀ s' p, x.G.clear = true → ¬opened → x.s.relCheck g 4 = .dead s' p → Traps (.spawn c f) c s g pc G0 0x33 0 0 p) ∧
      (x.G.clear = true → ¬opened → x.s.relCheck g 4 = .ok →
        ((∃ j ∈ (s.ten x.ten).joinWait, j.g = some g) → later x.s none) ∧
        ((∀ j ∈ (s.ten x.ten).joinWait, j.g ≠ some g) →
          (∀ s', taken = .accepted s' → Answers (.spawn c f) c s g pc G0 (.go s')) ∧
          (∀ s' bs, taken = .full s' bs → later s' (some bs)) ∧ (∀ s', taken = .reading s' → later s' none))))) ∧
  (∀ (s s' : State) (ten va team : Nat) (origin : Origin) (bs : List Byte), let sub := s.submit ten bs va origin (va % 64 == 0)
    (sub = .done s' ∨ sub = .dropped s' → s.takeRecord ten va team origin (some bs) = .accepted s') ∧
    (sub = .full → s.takeRecord ten va team origin (some bs) = .full s bs)) ∧
  (∀ (s : State) (ten va team : Nat) (origin : Origin), let who := joinWho ten
    let line := fun (s : State) (a : Nat) => s.swLine ten who a true .load
    let got := fun (p : XLine × State) => if p.1.own = .here then p.2.touch p.1.pa 0 false else p.2
    let read := fun (s' : State) (bs : List Byte) =>
      s.takeRecord ten va team origin none = (s'.forget .swLoad who).takeRecord ten va team origin (some bs)
    (va % 128 ≤ 64 → ∀ p, line s va = .ok p → (∀ q, p.1.own ≠ .peer q) → read (got p) (p.2.homeRead p.1.own p.1.pa 64)) ∧
    (64 < va % 128 → ∀ p1 p2, let n := 128 - va % 128
      line s va = .ok p1 → (∀ q, p1.1.own ≠ .peer q) → line (got p1) (va + n) = .ok p2 → (∀ q, p2.1.own ≠ .peer q) →
      read (got p2) (p1.2.homeRead p1.1.own p1.1.pa n ++ p2.2.homeRead p2.1.own p2.1.pa (64 - n))) ∧
    (∀ s' code a, line s va = .error (.fault s' code a) → s.takeRecord ten va team origin none =
      .accepted (s'.note ten code 2 va (s'.team team).idx (s'.launch (s'.team team).launch).crva (s'.team team).slot)) ∧
    (∀ s', line s va = .error (.wait s') → s.takeRecord ten va team origin none = .reading s')) ∧
  (∀ (i : Instr) (n : Nat) (c : Ctl) (f : F64) (s : State) (g : Nat) (pc : Word) (G0 : Group),
    i = .spawn c f ∧ n = 64 ∨ i = .joinc c f ∧ n = 16 → Performs i c s g pc G0 →
    let x := ctxAt i c s g pc G0
    let r := (x.breg f.a).toNat
    let o := (x.sreg f.b).toInt
    let va := recAddr r o.toNat
    (recBad r [1] = true → Traps i c s g pc G0 0x02 0 0 0) ∧
    (recBad r [1] = false → recIn r o n = false → Traps i c s g pc G0 0x10 0 0 0) ∧
    (recBad r [1] = false → recIn r o n = true → va % n ≠ 0 → Traps i c s g pc G0 0x13 0 va 0)) ∧
  (∀ (c : Ctl) (f : F64) (s : State) (g : Nat) (pc : Word) (G0 : Group) (l : XLine), Performs (.joinc c f) c s g pc G0 →
    let x := ctxAt (.joinc c f) c s g pc G0
    let r := (x.breg f.a).toNat
    let o := (x.sreg f.b).toInt
    let va := recAddr r o.toNat
    let as := mkAccs [(0, va)] [l] 16 fun _ => []
    let un := decide (l.kind = .un)
    let acq := if l.kind = .un then 0 else 4
    ObjectOk r o 16 → x.s.xlateAll g x.G x.ten pc (.atomic false) [(0, va)] = .ok [l] → SoFree x [l] →
    (x.G.clear = false ∨ x.G.touches as = true ∨ x.fits as = false → Answers (.joinc c f) c s g pc G0 (.stall x.s .other true)) ∧
    (x.G.clear = true → x.G.touches as = false → x.fits as = true →
      (releaseFinds x 4 un = .wait → Answers (.joinc c f) c s g pc G0 (.stall x.s .acks true)) ∧
      (∀ s' p, releaseFinds x 4 un = .dead s' p → Traps (.joinc c f) c s g pc G0 0x33 0 0 p) ∧
      (releaseFinds x 4 un = .ok →
        (l.own = .here → s.poisoned l.pa = true →
          Answers (.joinc c f) c s g pc G0 (.out x.s (x.oword [.s f.d.toNat] (.bad 0 va)))) ∧
        (∀ p a, l.own = .peer p → as = [a] → Answers (.joinc c f) c s g pc G0 (outOnce x as
          { x.oword [.s f.d.toNat] (.fwdJoin a f.d.toNat) with
            acq := acq, isLoad := true, unOnly := un, so := decide (l.kind = .so) })) ∧
        ((∀ p, l.own ≠ .peer p) → (l.own = .here → s.poisoned l.pa = false) →
          let w := x.s.joinWord (some G0.core) l.own l.pa
          let word := { x.oword [.s f.d.toNat] (.owed [.s f.d.toNat (BitVec.ofNat 64 w.1)]) with
            acq := acq, so := decide (l.kind = .so), tok := none }
          (w.2.1 = none → Answers (.joinc c f) c s g pc G0 (.out w.2.2 word)) ∧
          (∀ cr, w.2.1 = some cr → Answers (.joinc c f) c s g pc G0 (.out
            (w.2.2.modTen x.ten fun t => { t with joinWait := t.joinWait ++ [⟨cr, G0.team, some g, none, none⟩] }) word)))))) ∧
  (∀ (s : State) (core : Option Nat) (pa : Nat), Cells.wf s.mem = true →
    let w := s.joinWord core .here pa
    let old := Cells.readLE s.mem pa 4
    w.1 = old ∧ w.2.1 = (if old = 1 then some (Cells.readLE s.mem (pa + 8) 8) else none) ∧ w.2.2.groups = s.groups ∧ w.2.2.tens = s.tens ∧
    Cells.readLE w.2.2.mem pa 4 = old - 1 ∧ (∀ b : Nat, (b < pa ∨ pa + 4 ≤ b) → Cells.read w.2.2.mem b = Cells.read s.mem b))

/-! ## Engine commands (13 R311-R323) -/

namespace Sys2Proof

/-- Queue `q` can take a command: the kernel has it, it holds fewer than 64, and it is not halted. -/
def CanAccept (x : Ctx) (q : Nat) : Prop :=
  q < x.hdr.queues ∧ (x.team.queue q).pending.length < 64 ∧ (x.team.queue q).halted = false

/-- Bytes that a routine of 13 R320 writes. -/
def routineDest (rt n p : Nat) : Nat :=
  if rt = 1 then n * fmtBytes (p / 16 % 16) else if rt = 2 then n * 2 ^ p else if rt = 3 then 4 * n * 2 ^ p else 144 * n

end Sys2Proof

/-- The commands: accepted into their queue once their record and their regions pass the checks, which go in the order bounds, addresses,
scratchpad limits, alignment, with what `.rel` must follow; a queue
that the kernel has not is ILLEGAL_INSTR, a full one makes the word wait, a halted one is QUEUE_FAULT. `qwait` goes on once the
commands accepted by its issue have completed. -/
def Obligations.EngineWords : Prop :=
  (∀ (x : Ctx) (s : State) (q : Nat) (op : Nat → CmdOp) (addr : Nat) (brec : Rec256) (off : Int) (rel : Bool) (T : Team),
    s.teams[x.tid]? = some T → q < T.queues.length →
    let t := x.accept s q op addr brec off rel
    t.mem = s.mem ∧ t.groups = s.groups ∧ t.cores = s.cores ∧ ∃ T', t.teams[x.tid]? = some T' ∧ (∀ k, k ≠ q → T'.queue k = T.queue k) ∧
      T'.queue q = { T.queue q with
        accepted := (T.queue q).accepted + 1
        pending := (T.queue q).pending ++ [{
          pc := x.pc, op := op ((T.queue q).accepted + 1), addr := addr, brec := brec, off := off, levelS := x.G.levelS, core := x.G.core,
          g := x.g, seq := x.G.seq, ord := (T.queue q).accepted + 1, pos := 0,
          after := if rel then (x.G.openWords ++ s.lostWords x.g).map fun w => (x.g, w) else [], performed := false }] }) ∧
  (∀ (x : Ctx) (chk : CmdCheck) (rem : Bool) (rs : List (Nat × Nat)),
    let lim := if rem then x.s.spaceLen x.team else x.s.slotLen x.team
    let first := fun (e : Option (Nat × Nat)) => x.regions chk rem rs = e
    (∀ e, chk.bounds = some e → first (some e)) ∧ (∀ e, chk.bounds = none → chk.range = some e → first (some e)) ∧
    (chk.bounds = none → chk.range = none →
      (∀ pre r post, rs = pre ++ r :: post → (∀ y ∈ pre, y.1 + y.2 ≤ lim) → lim < r.1 + r.2 → first (some (0x20, r.1))) ∧
      ((∀ r ∈ rs, r.1 + r.2 ≤ lim) → (∀ e, chk.align = some e → first (some e)) ∧
        (chk.align = none →
          (∀ pre r post, rs = pre ++ r :: post → (∀ y ∈ pre, y.1 % 16 = 0) → r.1 % 16 ≠ 0 → first (some (0x13, r.1))) ∧
          ((∀ r ∈ rs, r.1 % 16 = 0) → first none))))) ∧
  (∀ (i : Instr) (c : Ctl) (w : W128) (s : State) (g : Nat) (pc : Word) (G0 : Group) (op : CmdOp) (kinds : List Nat) (len : Nat),
    let x := ctxAt i c s g pc G0
    let r := (x.breg w.b).toNat
    let o := (x.sreg w.c).toInt
    let q := w.d.toNat % 8
    (i = .pcopy c w ∧ op = .pcopy w.x.toNat w.y.toNat ∧ kinds = [1, 2, 3] ∨ i = .pstore c w ∧ op = .pstore w.x.toNat w.y.toNat ∧ kinds = [1, 2, 3] ∨
      i = .pcopyRf c w ∧ op = .pcopyRf w.x.toNat w.y.toNat ∧ kinds = [3]) → Performs i c s g pc G0 → CanAccept x q →
    len = (if i = .pcopyRf c w ∨ recKind r = 3 then 144 * w.x.toNat else w.x.toNat) →
    let chk := if i = .pcopyRf c w ∨ recKind r = 3 then planeRegion r o w.x.toNat (min w.y.toNat (recMw r)) else globalRegion r o w.x.toNat true
    let fields := i = .pcopyRf c w ∨ (recKind r = 3 ∧ w.y ≠ 0#32 ∧ w.x.toNat ≤ 2 ^ 16) ∨
      (recKind r ≠ 3 ∧ w.y = 0#32 ∧ w.x.toNat % 16 = 0 ∧ w.x.toNat ≤ 2 ^ 24)
    let found := x.regions chk (w.d.getLsbD 4) [((x.sreg w.a).toNat, len)]
    (recBad r kinds = true ∨ ¬fields → Traps i c s g pc G0 0x02 0 0 0) ∧
    (recBad r kinds = false → fields → (∀ code va, found = some (code, va) → Traps i c s g pc G0 code 0 va 0) ∧
      (found = none → Answers i c s g pc G0
        (.go (x.accept x.s q (fun _ => op) (x.regionAt (w.d.getLsbD 4) (x.sreg w.a).toNat) (x.breg w.b) o (w.d.getLsbD 3)))))) ∧
  (∀ (c : Ctl) (w : W128) (s : State) (g : Nat) (pc : Word) (G0 : Group), Performs (.pfill c w) c s g pc G0 →
    let x := ctxAt (.pfill c w) c s g pc G0
    let q := w.d.toNat % 8
    let a := (x.sreg w.a).toNat
    let found := x.regions .none (w.d.getLsbD 4) [(a, w.x.toNat)]
    (CanAccept x q → found = none →
      Answers (.pfill c w) c s g pc G0 (.go (x.accept x.s q (fun _ => .pfill w.x.toNat ((x.sreg w.c).setWidth 32) w.mod.toNat)
        (x.regionAt (w.d.getLsbD 4) a) 0#256 0 (w.d.getLsbD 3)))) ∧
    (x.hdr.queues ≤ q → Traps (.pfill c w) c s g pc G0 0x01 0 0 0) ∧
    (q < x.hdr.queues → 64 ≤ (x.team.queue q).pending.length → Answers (.pfill c w) c s g pc G0 (.stall x.s .room false)) ∧
    (q < x.hdr.queues → (x.team.queue q).pending.length < 64 → found = none →
      ∀ code va p, (x.team.queue q).halted = true → (x.team.queue q).flt = some (code, p, va) →
        Traps (.pfill c w) c s g pc G0 0x35 0 0 (q + 256 * code))) ∧
  (∀ (c : Ctl) (w : W128) (s : State) (g : Nat) (pc : Word) (G0 : Group), Performs (.pxform c w) c s g pc G0 →
    let x := ctxAt (.pxform c w) c s g pc G0
    let q := w.d.toNat % 8
    let r := (x.breg w.b).toNat
    let n := w.x.toNat
    let rt := w.y.toNat % 256
    let p := w.y.toNat / 2 ^ 16 % 256
    let dir := w.mod.toNat
    let rem := w.d.getLsbD 4
    let known := 1 ≤ rt ∧ rt ≤ 4 ∧ routineOk rt p dir = true
    let src := if known then routineSrc rt n p else 0
    let dst := if known then routineDest rt n p else 0
    let second := dir = 2 ∨ dir = 0 ∧ rt = 2
    let chk := if known ∧ ¬second then globalRegion r (x.sreg w.c).toInt (if dir = 1 then dst else src) false else .none
    let rs := (if second then [((x.sreg w.c).toNat, src)] else []) ++ [((x.sreg w.a).toNat, if dir = 1 then src else dst)]
    let off : Int := if second then (x.regionAt rem (x.sreg w.c).toNat : Int) else (x.sreg w.c).toInt
    CanAccept x q →
    (dir ≠ 2 → recBad r [1, 2] = true → Traps (.pxform c w) c s g pc G0 0x02 0 0 0) ∧
    (dir = 2 ∨ recBad r [1, 2] = false →
      (∀ code va, x.regions chk rem rs = some (code, va) → Traps (.pxform c w) c s g pc G0 code 0 va 0) ∧
      (x.regions chk rem rs = none → Answers (.pxform c w) c s g pc G0 (.go (x.accept x.s q
        (fun _ => .pxform n rt (w.y.toNat / 2 ^ 8 % 256) p dir (x.s.routine x.ten rt)) (x.regionAt rem (x.sreg w.a).toNat) (x.breg w.b) off
        (w.d.getLsbD 3)))))) ∧
  (∀ (c : Ctl) (f : F64) (s : State) (g : Nat) (pc : Word) (G0 : Group) (addr : Nat), Performs (.qmark c f) c s g pc G0 →
    let x := ctxAt (.qmark c f) c s g pc G0
    CanAccept x f.d.toNat → x.region (f.c == 1) (x.sreg f.a).toNat 16 = .ok addr →
    Answers (.qmark c f) c s g pc G0 (.go (x.accept x.s f.d.toNat (fun n => .qmark (x.sreg f.b) n) addr 0#256 0 false))) ∧
  (∀ (i : Instr) (c : Ctl) (f : F64) (s : State) (g : Nat) (pc : Word) (G0 : Group), i = .qfence c f ∨ i = .qwait c f → Performs i c s g pc G0 →
    let x := ctxAt i c s g pc G0
    let qs := (List.range 8).filter fun q => if q < 7 then f.b.getLsbD q else f.c.getLsbD 6
    let upto := qs.map fun q => (q, (x.team.queue q).accepted)
    (∀ q ∈ qs, x.hdr.queues ≤ q → Traps i c s g pc G0 0x01 0 0 0) ∧
    ((∀ q ∈ qs, q < x.hdr.queues ∧ (x.team.queue q).halted = false) →
      (i = .qfence c f → (∀ q ∈ qs, (x.team.queue q).pending.length < 64) → Answers i c s g pc G0 (.go (qs.foldl (fun s q => x.accept s q (fun _ => .qfence (laneBits qs) upto) 0 0#256 0 false) x.s))) ∧
      (i = .qwait c f → (∀ q ∈ qs, (x.team.queue q).accepted ≤ (x.team.queue q).completed) → Answers i c s g pc G0 (.go (x.s.l1Acquire G0.core 4))) ∧
      (i = .qwait c f → (∃ q ∈ qs, (x.team.queue q).completed < (x.team.queue q).accepted) →
        Answers i c s g pc G0 (.hold x.s { x.oword [] (.qWait upto) with held := x.frag, acq := 4 }))))

/-! ## Channels and arrival counters (14 R333-R344) -/

namespace Sys2Proof

/-- A transfer of `n` bytes has passed its checks on the entry `e` of channel `idx` with permission bit `perm` (14 R334), and no earlier
acquire or release fence of its group is open. -/
def ChannelOk (x : Ctx) (idx perm n e : Nat) : Prop :=
  x.G.paid ≠ some x.pc ∧ idx < x.hdr.chan ∧ e = Cells.readLE x.s.mem (x.s.chanAddr x.team idx) 32 ∧
  bitAt e 255 = true ∧ bitAt e 254 = false ∧ e / 2 ^ 232 % 256 ≠ x.s.boot.cfg.device ∧ bitAt e perm = true ∧
  x.s.isDead (e / 2 ^ 232 % 256) = false ∧ (n ≤ e / 2 ^ 176 % 2 ^ 40 ∨ e / 2 ^ 176 % 2 ^ 40 = 2 ^ 40 - 1) ∧ x.G.clear = true

/-- The state with the allowance spent, and the word noted as having spent it. -/
def spentBy (x : Ctx) (idx e n : Nat) : State :=
  (if e / 2 ^ 176 % 2 ^ 40 = 2 ^ 40 - 1 then x.s
   else { x.s with mem := Cells.writeLE x.s.mem (x.s.chanAddr x.team idx + 22) 5 (e / 2 ^ 176 % 2 ^ 40 - n) } : State).modGroup x.g fun G =>
    { G with paid := some x.pc }

end Sys2Proof

/-- A transfer that passes its checks spends its bytes and is sent: `csend` from scalar registers, `cput` from scratchpad, in packets
that do not cross a 256-byte boundary and hold the bytes in order; `cget` and `catom` send a request and hold their lanes, a `catom`
that returns nothing with no token. An entry that is not VALID, or lacks the permission, faults a `csend` with the channel in INFO; a window
of a peer's read-only memory faults a `catom`, and a counter off its boundary faults `cput` and `cget`. `arrset` writes TARGET, SRC and COUNT; `arrwait` gives COUNT
once it has reached TARGET, and waits before.
(The order of checks in the corners is the model's reading: log 21.) -/
def Obligations.ChannelWords : Prop :=
  (∀ (n a : Nat) (bs : List Byte), bs.length ≤ n →
    let ps := cutPackets n a bs
    ps.flatMap (·.2) = bs ∧ (∀ p ∈ ps, 0 < p.2.length ∧ p.1 / 256 = (p.1 + p.2.length - 1) / 256) ∧
    ∀ (pre post : List (Nat × List Byte)) (p : Nat × List Byte), ps = pre ++ p :: post → p.1 = a + (pre.flatMap (·.2)).length) ∧
  (∀ (x : Ctx) (s : State) (kind : SentKind) (idx e a : Nat) (ctr : Option Nat) (bs : List Byte),
    let t := x.sendAll s kind idx e a ctr bs
    t.mem = s.mem ∧ t.groups = s.groups ∧ t.teams = s.teams ∧ t.cores = s.cores ∧
    (s.isDead (e / 2 ^ 232 % 256) = true → t.outbox = s.outbox ∧ t.peers = s.peers) ∧
    (s.isDead (e / 2 ^ 232 % 256) = false → t.outbox = s.outbox ++ (cutPackets bs.length a bs).zipIdx.map fun p =>
      .packet (e / 2 ^ 232 % 256) (s.ten x.ten).secure (e / 2 ^ 228 % 16) (e / 2 ^ 216 % 2 ^ 12) p.1.1 p.1.2 ctr (s.nextId + p.2))) ∧
  (∀ (c : Ctl) (f : M96) (s : State) (g : Nat) (pc : Word) (G0 : Group) (e : Nat), Performs (.csend c f) c s g pc G0 →
    let x := ctxAt (.csend c f) c s g pc G0
    let idx := (x.sreg f.d).toNat
    let a := (x.sreg f.b).toNat
    let n := 8 * (f.c.toNat % 32 + 1)
    let bs := (List.range (f.c.toNat % 32 + 1)).flatMap fun k => natToBytes 8 (x.G.s.getD (f.a.toNat + k) 0#64).toNat
    (idx < x.hdr.chan → e = Cells.readLE s.mem (x.s.chanAddr x.team idx) 32 → x.G.paid ≠ some pc →
      (bitAt e 255 = false → Traps (.csend c f) c s g pc G0 0x30 0 0 idx) ∧
      (bitAt e 255 = true → bitAt e 254 = false → e / 2 ^ 232 % 256 ≠ s.boot.cfg.device → bitAt e 249 = false →
        Traps (.csend c f) c s g pc G0 0x31 0 0 idx)) ∧
    (ChannelOk x idx 249 n e → a + n ≤ e / 2 ^ 128 % 2 ^ 40 → a % 16 = 0 → (f.imm.getLsbD 23 = true → x.s.relCheck g 5 = .ok) →
      Answers (.csend c f) c s g pc G0 (.go (x.sendAll (spentBy x idx e n) .send idx e a
        (if f.imm.getLsbD 22 then none else some (f.imm.toNat % 2 ^ 22 * 16)) bs)))) ∧
  (∀ (c : Ctl) (w : W128) (s s' : State) (g : Nat) (pc : Word) (G0 : Group) (e addr : Nat) (u : Unit), Performs (.cput c w) c s g pc G0 →
    let x := ctxAt (.cput c w) c s g pc G0
    let idx := (x.sreg w.d).toNat
    let a := (x.sreg w.b).toNat
    let n := w.x.toNat
    let ctr := if (x.sreg w.c).getLsbD 63 then none else some ((x.sreg w.c).toNat % 2 ^ 26)
    ChannelOk x idx 250 n e → x.region (w.y.getLsbD 0) (x.sreg w.a).toNat n = .ok addr → a + n ≤ e / 2 ^ 128 % 2 ^ 40 → a % 16 = 0 →
    (∀ k, ctr = some k → k % 16 = 0) → (w.y.getLsbD 1 = true → x.s.relCheck g 5 = .ok) →
    (spentBy x idx e n).bringRead G0.core x.tid [(addr, n)] = .ok s' u →
    Answers (.cput c w) c s g pc G0 (.go (x.sendAll s' .put idx e a ctr (s'.spRead x.tid addr n)))) ∧
  (∀ (c : Ctl) (w : W128) (s : State) (g : Nat) (pc : Word) (G0 : Group) (e addr : Nat), Performs (.cget c w) c s g pc G0 →
    let x := ctxAt (.cget c w) c s g pc G0
    let idx := (x.sreg w.d).toNat
    let a := (x.sreg w.b).toNat
    let n := w.x.toNat
    let ctr := if (x.sreg w.c).getLsbD 63 then none else some ((x.sreg w.c).toNat % 2 ^ 26)
    let r := x.track (spentBy x idx e n) .get (e / 2 ^ 232 % 256) (x.s.chanAddr x.team idx) idx n
    ChannelOk x idx 251 n e → x.region (w.y.getLsbD 0) (x.sreg w.a).toNat n = .ok addr → a + n ≤ e / 2 ^ 88 % 2 ^ 40 → a % 16 = 0 →
    (∀ k, ctr = some k → k + 16 ≤ x.s.spaceLen x.team ∧ k % 16 = 0) → (w.y.getLsbD 1 = true → x.s.relCheck g 5 = .ok) →
    Answers (.cget c w) c s g pc G0 (.hold
      (r.2.emit (.request (e / 2 ^ 232 % 256) (s.ten x.ten).secure (e / 2 ^ 228 % 16) (e / 2 ^ 216 % 2 ^ 12) a (.read n) s.nextId))
      { x.oword [] (.cget addr n n ctr) with held := x.frag })) ∧
  (∀ (c : Ctl) (f : M96) (s : State) (g : Nat) (pc : Word) (G0 : Group) (e : Nat), Performs (.catom c f) c s g pc G0 →
    let x := ctxAt (.catom c f) c s g pc G0
    let idx := (x.sreg f.b).toNat
    let ty := f.imm.toNat / 2 ^ 20 % 4
    let n := if 2 ≤ ty then 8 else 4
    let o := (x.sreg f.a).toInt + (f.imm.setWidth 16).toInt
    let arg := fun (r : BitVec 7) => BitVec.ofNat 64 ((x.sreg r).toNat % 2 ^ (8 * n))
    let sem := f.imm.getLsbD 22 || f.imm.getLsbD 23
    -- whether the owner's page is UN is a free value where SEM orders something
    let spent := if sem then (spentBy x idx e n).draw.2 else spentBy x idx e n
    let un := sem && (spentBy x idx e n).draw.1.getLsbD 0
    let finds := if f.imm.getLsbD 23 then x.s.relCheck g 5 else
      (match x.G.fence with | none => Rel.ok | some n => x.s.relUpTo g 4 fun k => decide (k < n))
    let r := x.track spent .atom (e / 2 ^ 232 % 256) (x.s.chanAddr x.team idx) idx n
    let ret := f.imm.getLsbD 24
    ChannelOk x idx 252 n e → 0 ≤ o → o + n ≤ (e / 2 ^ 88 % 2 ^ 40 : Nat) → o % 16 = 0 →
    (bitAt e 248 = true → Traps (.catom c f) c s g pc G0 0x16 0 0 0) ∧
    (bitAt e 248 = false →
      (un = false → finds = .wait → Answers (.catom c f) c s g pc G0 (.stall spent .acks true)) ∧
      (un = true ∨ finds = .ok → Answers (.catom c f) c s g pc G0 (.hold
        (r.2.emit (.request (e / 2 ^ 232 % 256) (s.ten x.ten).secure (e / 2 ^ 228 % 16) (e / 2 ^ 216 % 2 ^ 12) o.toNat
          (.atom (f.imm.toNat / 2 ^ 16 % 16) ty (arg f.c) (arg f.d)) s.nextId))
        { x.oword (if ret then [.s f.d.toNat] else []) (.catom ret f.d.toNat ty) with
          held := x.frag, acq := if f.imm.getLsbD 22 = true ∧ un = false then 5 else 0,
          rel := if f.imm.getLsbD 23 = true ∧ un = false then 5 else 0, unOnly := un,
          tok := if ret then (x.oword [] (.land [])).tok else none })))) ∧
  (∀ (i : Instr) (c : Ctl) (w : W128) (s : State) (g : Nat) (pc : Word) (G0 : Group), i = .cput c w ∨ i = .cget c w →
    Performs i c s g pc G0 → let v := ((ctxAt i c s g pc G0).sreg w.c).toNat
    v < 2 ^ 63 → v % 16 ≠ 0 → Traps i c s g pc G0 0x02 0 0 0) ∧
  (∀ (c : Ctl) (f : F64) (s s' : State) (g : Nat) (pc : Word) (G0 : Group) (addr : Nat) (u : Unit), Performs (.arrset c f) c s g pc G0 →
    let x := ctxAt (.arrset c f) c s g pc G0
    let src := (x.sreg f.c).toNat
    (512 ≤ src → Traps (.arrset c f) c s g pc G0 0x02 0 0 0) ∧
    (src < 512 → x.region (f.mod.getLsbD 0) (x.sreg f.a).toNat 16 = .ok addr → x.G.clear = true →
      (if f.mod.getLsbD 1 then x.s.bringRead G0.core x.tid [(addr, 8)] else x.s.bring G0.core x.tid (pagesOf addr 16)) = .ok s' u →
      let count := if f.mod.getLsbD 1 then s'.spReadLE x.tid addr 8 else 0
      Answers (.arrset c f) c s g pc G0 (.go (s'.spWrite x.tid addr
        (natToBytes 16 (count + 2 ^ 64 * ((x.sreg f.b).toNat % 2 ^ 48) + 2 ^ 112 * src)))))) ∧
  (∀ (c : Ctl) (f : F64) (s s' : State) (g : Nat) (pc : Word) (G0 : Group) (addr : Nat) (u : Unit), Performs (.arrwait c f) c s g pc G0 →
    let x := ctxAt (.arrwait c f) c s g pc G0
    x.region (f.mod.getLsbD 0) (x.sreg f.a).toNat 16 = .ok addr → x.G.clear = true → x.s.bringRead G0.core x.tid [(addr, 16)] = .ok s' u →
    let count := s'.spReadLE x.tid addr 8
    let target := s'.spReadLE x.tid (addr + 8) 6
    (target ≤ count → Answers (.arrwait c f) c s g pc G0 (.out s'
      { x.oword [.s f.d.toNat] (.land [.s f.d.toNat (BitVec.ofNat 64 count)]) with acq := 5, tok := none })) ∧
    (count < target → Answers (.arrwait c f) c s g pc G0 (.hold s'
      { x.oword [.s f.d.toNat] (.arrWait addr f.d.toNat (if f.c = 0 then none else some (s'.clock + 1200 * 2 ^ f.c.toNat))) with
        held := x.frag, acq := 5 })))

/-! ## Leases (14 R346-R350) -/

/-! ## Barriers (13 R324-R326) -/

namespace Sys2Proof

/-- A barrier after an arrival of `n` lanes of group `gidx` whose own N is `tgt` (13 R325): the first arrival of a phase fixes the form
and N; at N the phase flips and the count restarts. -/
def arrivedBar (b : Bar) (gidx n form tgt : Nat) : Bar :=
  let t := if b.form = 2 then tgt else b.target
  if t ≤ b.count + n then ⟨0, 0, !b.phase, 2, []⟩
  else ⟨b.count + n, t, b.phase, if b.form = 2 then form else b.form, if gidx ∈ b.arrived then b.arrived else b.arrived ++ [gidx]⟩

/-- The team and the group after an arrival at barrier `i`: the group has recorded the phase of its arrival. -/
def arrivedState (x : Ctx) (i form tgt : Nat) : State :=
  (x.s.modGroup x.g fun G => { G with rphase := setBit G.rphase i (x.team.bar i).phase, rvalid := setBit G.rvalid i true }).modTeam x.tid
    fun t => { t with bars := modAt t.bars i fun b => arrivedBar b x.G.gidx x.part.length form tgt }

end Sys2Proof

/-- `bar.arv` adds its participating lanes to the barrier and goes on, `bar.sync` adds them and waits for the phase to change, `bar.wt`
waits for the phase that its group recorded, recording the present one where there is none; an N that is 0, above the team's threads,
or not that of the phase is RESERVED_FIELD. A wait whose phase has changed ends. -/
def Obligations.BarrierWords : Prop :=
  (∀ (i : Instr) (c : Ctl) (f : F64) (s : State) (g : Nat) (pc : Word) (G0 : Group), i = .barArv c f ∨ i = .barSync c f → Performs i c s g pc G0 →
    let x := ctxAt i c s g pc G0
    let k := f.c.toNat % 16
    let b := x.team.bar k
    let live := (x.team.groups.map fun j => ((x.s.group j).lanes.filter fun y => decide (y.st ≠ .exited)).length).sum
    let n := if f.mod = 1 then (x.sreg f.b).toNat % 2 ^ 32 else live
    let bad := f.mod = 1 ∧ (n = 0 ∨ x.hdr.teamSz < n ∨ (b.form ≠ 2 ∧ b.target ≠ n))
    let t := arrivedState x k f.mod.toNat n
    (bad → Traps i c s g pc G0 0x02 0 0 0) ∧
    (¬bad → x.s.relCheck g 2 = .ok → (∀ co ∈ s.cores, ∀ o ∈ co.ops, o.g ≠ g) → k < x.team.bars.length → G0.team < s.teams.length →
      (i = .barArv c f → Answers i c s g pc G0 (.go t)) ∧
      (i = .barSync c f → (arrivedBar b x.G.gidx x.part.length f.mod.toNat n).phase ≠ b.phase →
        Answers i c s g pc G0 (.go (t.l1Acquire G0.core 2))) ∧
      (i = .barSync c f → (arrivedBar b x.G.gidx x.part.length f.mod.toNat n).phase = b.phase →
        Answers i c s g pc G0 (.hold t { x.oword [] (.barWait k b.phase) with held := x.frag, acq := 2 })))) ∧
  (∀ (c : Ctl) (f : F64) (s : State) (g : Nat) (pc : Word) (G0 : Group), Performs (.barWt c f) c s g pc G0 →
    let x := ctxAt (.barWt c f) c s g pc G0
    let k := f.c.toNat % 16
    let wait := fun (s' : State) (p : Bool) => Answers (.barWt c f) c s g pc G0 (.hold s' { x.oword [] (.barWait k p) with held := x.frag, acq := 2 })
    (G0.rvalid.getLsbD k = true → (x.team.bar k).phase ≠ G0.rphase.getLsbD k → Answers (.barWt c f) c s g pc G0 (.go (x.s.l1Acquire G0.core 2))) ∧
    (G0.rvalid.getLsbD k = true → (x.team.bar k).phase = G0.rphase.getLsbD k → wait x.s (x.team.bar k).phase) ∧
    (G0.rvalid.getLsbD k = false → wait (x.s.modGroup g fun G =>
      { G with rphase := setBit G.rphase k (x.team.bar k).phase, rvalid := setBit G.rvalid k true }) (x.team.bar k).phase)) ∧
  (∀ (s : State) (g id : Nat) (o : OWord) (G : Group) (k : Nat) (p : Bool), s.groups[g]? = some G → G.stage = .running →
    (s.team G.team).life = .running → (s.team G.team).pins = [] → G.outst.find? (fun y => y.id == id) = some o → o.kind = .barWait k p →
    ((s.team G.team).bar k).phase ≠ p → ∃ t H, exec (.barWaitRelease g id) s = .next t ∧ t.mem = s.mem ∧ t.groups[g]? = some H ∧
      H.outst = G.outst.filter (fun y => y.id != o.id) ∧ H.v = G.v ∧ H.s = G.s ∧
      ∀ l ∈ o.held, ∀ y, G.lanes[l]? = some y → y.st = .active → y.pc = o.pc → ∃ y', H.lanes[l]? = some y' ∧ y'.pc = o.next)

/-! ## Privileged words and control registers (18 R380-R395, 20 R439-R441) -/

/-- The register numbers; what a write does to SRCTO, CSRVIOL, THALLOW and DEADPEER, and that SRCTO and a secure record are denied to level S,
TNSTAT to all; the six privileged words: `csrrd` and `csrwr` once every earlier access of the group is performed, `sret` on a record of the
fault queue, RESERVED_FIELD for every other address, `stbinv`, `spmap` and `spunmap` on the team's space.
(The corners are the model's readings: log 24, 29.) -/
def Obligations.PrivilegedWords : Prop :=
  (∀ t < 16, ∀ w < 16, csrOf (0x100 + 16 * t + w) = some (.tncfg t w) ∧ csrOf (0x200 + t) = some (.tnstat t)) ∧
  (∀ k < 256, csrOf (0x400 + k) = some (.thallow k) ∧ csrOf k = none) ∧
  (∀ k < 4, csrOf (0x600 + k) = some (.deadpeer k)) ∧ csrOf 0x604 = some .srcto ∧ csrOf 0x605 = some .csrviol ∧
  (∀ n, 0x606 ≤ n → csrOf n = none) ∧
  (∀ (s : State) (lv : Level) (v : Word),
    s.csrWrite .s v .srcto = .priv ∧
    (2 ≤ v.toNat % 65536 → v.toNat % 65536 ≤ 1000 → s.csrWrite .m v .srcto = .done { s with srcto := v.setWidth 16 }) ∧
    (v.toNat % 65536 < 2 ∨ 1000 < v.toNat % 65536 → s.csrWrite .m v .srcto = .refused) ∧
    (∀ t, s.csrWrite lv v (.tnstat t) = .priv) ∧
    s.csrWrite lv v .csrviol = .done { s with csrviol := v.setWidth 32 } ∧
    (∀ k, s.csrWrite lv v (.thallow k) = .done (s.modCore k fun c => { c with floor := (v >>> 16).setWidth 8 })) ∧
    (∀ k s', s.csrWrite lv v (.deadpeer k) = .done s' → s'.deadpeer = modAt s.deadpeer k fun d => d &&& ~~~v) ∧
    (∀ t, (s.ten t).secure = true → s.csrWrite .s v (.tncfg t 0) = .priv) ∧
    (∀ t, ((s.ten t).cfg.getD 0 0#64).getLsbD 62 ≠ v.getLsbD 62 → s.csrWrite .s v (.tncfg t 0) = .priv)) ∧
  (∀ (c : Ctl) (f : F64) (s : State) (g : Nat) (pc : Word) (G0 : Group), Performs (.csrrd c f) c s g pc G0 →
    let x := ctxAt (.csrrd c f) c s g pc G0
    (csrOf (f.b.toNat * 128 + f.c.toNat) = none → Traps (.csrrd c f) c s g pc G0 0x02 0 0 0) ∧
    (∀ r, csrOf (f.b.toNat * 128 + f.c.toNat) = some r → x.G.clear = true → x.s.relCheck g 6 = .ok →
      (∀ o ∈ x.G.outst, o.isLoad = true ∨ o.isStore = true → o.kind.isWait = true) →
      Answers (.csrrd c f) c s g pc G0 (.out x.s
        { x.oword [.s f.d.toNat] (.land [.s f.d.toNat (s.csrRead (s.ten x.ten).secure r)]) with acq := 6 }))) ∧
  (∀ (c : Ctl) (f : F64) (s : State) (g : Nat) (pc : Word) (G0 : Group), Performs (.csrwr c f) c s g pc G0 →
    let x := ctxAt (.csrwr c f) c s g pc G0
    (csrOf (f.b.toNat * 128 + f.c.toNat) = none → Traps (.csrwr c f) c s g pc G0 0x02 0 0 0) ∧
    (∀ r, csrOf (f.b.toNat * 128 + f.c.toNat) = some r →
      let w := x.s.csrWrite .s (x.sreg f.a) r
      (w = .priv → Traps (.csrwr c f) c s g pc G0 0x05 0 0 0) ∧ (w = .refused → Traps (.csrwr c f) c s g pc G0 0x02 0 0 0) ∧
      (∀ s', w = .done s' → x.G.clear = true → x.s.relCheck g 6 = .ok →
        (∀ o ∈ x.G.outst, o.isLoad = true ∨ o.isStore = true → o.kind.isWait = true) → Answers (.csrwr c f) c s g pc G0 (.go (s'.l1Acquire G0.core 6))))) ∧
  (∀ (c : Ctl) (f : F64) (s : State) (g : Nat) (pc : Word) (G0 : Group) (l : XLine), Performs (.sret c f) c s g pc G0 →
    let x := ctxAt (.sret c f) c s g pc G0
    let va := (x.sreg f.a).toNat
    let action := (x.sreg f.b).toNat
    let fq := (s.ten x.ten).fqbase
    let seq := Cells.readLE s.mem l.pa 8
    let found := x.s.xlateAll g x.G x.ten pc .load [(0, va)]
    (2 < action ∨ 2 ^ 56 ≤ va → Traps (.sret c f) c s g pc G0 0x02 0 0 0) ∧
    (∀ s' code n a info, action ≤ 2 → va < 2 ^ 56 → found = .fault s' code n a info →
      exec (.sret c f) s = .next ((s'.backOut g G0).groupFault g (x.flt 0x02 0 0 0))) ∧
    (action ≤ 2 → va < 2 ^ 56 → found = .ok [l] →
      (l.own = .here ∧ fq ≤ l.pa ∧ l.pa < fq + 64 * 2 ^ (s.ten x.ten).fqlog ∧ l.pa % 64 = 0 ∧ seq ≠ 0 → s.poisoned l.pa = false → x.s.relCheck g 4 = .ok →
        Answers (.sret c f) c s g pc G0 (.go (x.s.answer x.ten seq action))) ∧
      (l.own = .here → s.poisoned l.pa = true → Traps (.sret c f) c s g pc G0 0x60 0 va 0) ∧
      (¬(l.own = .here ∧ fq ≤ l.pa ∧ l.pa < fq + 64 * 2 ^ (s.ten x.ten).fqlog ∧ l.pa % 64 = 0 ∧ seq ≠ 0) → (l.own = .here → s.poisoned l.pa = false) →
        Traps (.sret c f) c s g pc G0 0x02 0 0 0))) ∧
  (∀ (c : Ctl) (f : F64) (s : State) (g : Nat) (pc : Word) (G0 : Group), Performs (.stbinv c f) c s g pc G0 →
    let x := ctxAt (.stbinv c f) c s g pc G0
    let a := (x.sreg f.a).toNat
    let n := (x.sreg f.b).toNat
    (x.s.spaceLen x.team < a + n → Traps (.stbinv c f) c s g pc G0 0x20 0 a 0) ∧
    (a + n ≤ x.s.spaceLen x.team → x.s.relCheck g 4 = .ok →
      Answers (.stbinv c f) c s g pc G0 (.go (x.s.stbDrop x.tid (pagesOf a n))) ∧
      ∀ k, clusterOf k = x.team.cluster → ∀ e ∈ ((x.s.stbDrop x.tid (pagesOf a n)).core k).stb,
        e ∈ (s.core k).stb ∧ (e.team = x.tid → 0 < n → e.page < a / 4096 ∨ (a + n - 1) / 4096 < e.page))) ∧
  (∀ (c : Ctl) (f : F64) (s : State) (g : Nat) (pc : Word) (G0 : Group), Performs (.spmap c f) c s g pc G0 →
    let x := ctxAt (.spmap c f) c s g pc G0
    let a := (x.sreg f.a).toNat
    let b := (x.sreg f.b).toNat
    (b % 4096 ≠ 0 ∨ 2 ^ 52 ≤ b → Traps (.spmap c f) c s g pc G0 0x02 0 0 0) ∧
    (b % 4096 = 0 → b < 2 ^ 52 → x.s.spaceLen x.team ≤ a → Traps (.spmap c f) c s g pc G0 0x20 0 a 0) ∧
    (b % 4096 = 0 → b < 2 ^ 52 → a < x.s.spaceLen x.team → x.s.relCheck g 4 = .ok →
      Answers (.spmap c f) c s g pc G0 (.go (x.s.remap x.tid (a / 4096) b
        (if f.mod = 1 then some (2 ^ 256 - 1) else if f.mod = 2 then some 0 else none))))) ∧
  (∀ (c : Ctl) (f : F64) (s : State) (g : Nat) (pc : Word) (G0 : Group), Performs (.spunmap c f) c s g pc G0 →
    let x := ctxAt (.spunmap c f) c s g pc G0
    let a := (x.sreg f.a).toNat
    let unpinned := x.s.l0Mod x.tid (a / 4096) fun e => setBits e 3 1 0
    (x.s.spaceLen x.team ≤ a → Traps (.spunmap c f) c s g pc G0 0x20 0 a 0) ∧
    (a < x.s.spaceLen x.team → x.s.relCheck g 4 = .ok →
      (unpinned.frameOf x.tid (a / 4096) = none → Answers (.spunmap c f) c s g pc G0 (.go unpinned)) ∧
      (∀ fr, unpinned.frameOf x.tid (a / 4096) = some fr → Answers (.spunmap c f) c s g pc G0 (.go (unpinned.dropFrame fr true)))))

/-! ## What an issue changes -/

/-- A word whose tokens or registers are not free does not issue, whatever word it is: no register, lane, token, memory byte or
other group changes.
A group-wide word whose guard holds in no lane of the fragment has no effect beyond its issue.
The frame of every answer of a meaning, over the state `s'` that the meaning leaves: a word that is complete at issue, or outstanding,
changes nothing outside its group, no register of it, and moves its fragment's lanes to the next word; a word that waits leaves them
where they stand; a word that cannot go on yet leaves its group's registers and lanes as they were before it was looked at. -/
def Obligations.IssueFrame : Prop :=
  (∀ (i : Instr) (c : Ctl) (s : State) (g : Nat) (pc : Word) (G0 : Group), i.ctl? = some c → Issuing s g pc G0 → ¬Ready i c s G0 →
    ∃ t, exec i s = .next t ∧ t.mem = s.mem ∧ t.hostMem = s.hostMem ∧ t.teams = s.teams ∧ t.cores = s.cores ∧
      (∀ k, k ≠ g → t.groups[k]? = s.groups[k]?) ∧
      ∃ H, t.groups[g]? = some H ∧ H.lanes = G0.lanes ∧ H.v = G0.v ∧ H.s = G0.s ∧ H.b = G0.b ∧ H.d = G0.d ∧ H.w = G0.w ∧
        H.ufc = G0.ufc ∧ H.fixed = G0.fixed ∧ H.outst = G0.outst ∧ H.t = G0.t ∧ H.seq = G0.seq) ∧
  (∀ (i : Instr) (c : Ctl) (s : State) (g : Nat) (pc : Word) (G0 : Group), groupWideWord i = true → i.ctl? = some c → Issues i c s g pc G0 →
    participants c pc G0 = [] → Answers i c s g pc G0 (.go (ctxAt i c s g pc G0).s)) ∧
  (∀ (i : Instr) (c : Ctl) (s s' : State) (g : Nat) (pc : Word) (G0 H0 : Group) (o : OWord), s'.groups[g]? = some H0 →
    let stands := fun (t : State) (R : Group) (next : Word) => OnlyGroup s' t g ∧ ∃ H, t.groups[g]? = some H ∧ SameRegisters R H ∧
      H.seq = H0.seq + 1 ∧ H.t = G0.issueT c ∧ H.stall = c.stall.toNat ∧
      ∀ l y, H0.lanes[l]? = some y → ∃ y', H.lanes[l]? = some y' ∧
        MovedTo H l y y' (if l ∈ G0.fragment pc ∧ y.st = .active ∧ y.pc = pc then next else y.pc) y.st
    let with' := { H0 with outst := H0.outst ++ [o], w := match o.tok with | some k => modAt H0.w k (· + 1) | none => H0.w }
    stands (issued i c s g pc G0 (.go s')) H0 (nextPc pc i.size) ∧ stands (issued i c s g pc G0 (.out s' o)) with' (nextPc pc i.size) ∧
    stands (issued i c s g pc G0 (.hold s' o)) with' pc ∧
    ∀ (w : Wait) (b : Bool), let t := issued i c s g pc G0 (.stall s' w b)
      OnlyGroup s' t g ∧ ∃ H, t.groups[g]? = some H ∧ SameRegisters G0 H ∧ H.lanes = G0.lanes ∧ H.seq = G0.seq ∧ H.t = G0.t)

/-! ## Events of a group (01 R21-R28, R36, R37, R45) -/

namespace Sys2Proof

/-- `G` is the running group `g` of a running team whose pinned pages are resident, with a record for each of its lanes. -/
structure RunningGroup (s : State) (g : Nat) (G : Group) : Prop where
  group : s.groups[g]? = some G
  running : G.stage = .running
  life : (s.team G.team).life = .running
  pins : (s.team G.team).pins = []
  lanes : G.lanes.length = G.gw

/-- The word `o`, number `id`, of the running group `g` has not completed. -/
structure Waiting (s : State) (g id : Nat) (G : Group) (o : OWord) : Prop extends RunningGroup s g G where
  word : G.outst.find? (fun y => y.id == id) = some o

/-- The event answers a next state in which only group `g` differs, its registers stand, and lane `l` is `f` of what it was. -/
def LanesBecome (i : Instr) (s : State) (g : Nat) (G : Group) (f : Lane → Lane) : Prop :=
  ∃ t H, exec i s = .next t ∧ OnlyGroup s t g ∧ t.groups[g]? = some H ∧ SameRegisters G H ∧
    ∀ (l : Nat) (y : Lane), G.lanes[l]? = some y → H.lanes[l]? = some (f y)

end Sys2Proof

/-- A meeting at which every thread with that address has arrived, has exited or is done releases the held threads, which then have no
meeting; a `meetw` that every thread has reached releases all to the next word; a group with no active thread, where no meeting can end,
releases the held threads with the lowest address. A refill attempt gives items to done lanes, in lane order, each to the refill pair of
its lane, which goes on behind the refill point; it sends them to the exit target where the
share is empty, or exits them where there is no refill point; a group whose threads have exited and whose words have completed retires
and frees its token. The fairness timer ends the stickiness and restarts the count, promotion comes after 1,024 cycles, and a
register-cache fill brings the register's lines and changes no register of any group. -/
def Obligations.GroupEvents : Prop :=
  (∀ (s : State) (g : Nat) (G : Group) (mt : Word), RunningGroup s g G → (∃ y ∈ G.lanes, y.st = .heldMeet ∧ y.mt = mt) →
    let released := fun (y : Lane) => if y.st = .heldMeet ∧ y.mt = mt then { y with st := .active, mt := BitVec.allOnes 64 } else y
    ((∀ y ∈ G.lanes, y.mt = mt → y.st = .heldMeet ∨ y.st = .exited ∨ y.st = .done) → LanesBecome (.meetingRelease g mt) s g G released) ∧
    ((∀ y ∈ G.lanes, y.st ≠ .active) → (∀ y ∈ G.lanes, y.st = .heldMeet → mt ≤ y.mt ∧ ∃ z ∈ G.lanes, z.mt = y.mt ∧ z.st = .heldW) →
      LanesBecome (.stuckGroupRelease g) s g G released)) ∧
  (∀ (s : State) (g : Nat) (G : Group), RunningGroup s g G → (∃ y ∈ G.lanes, y.st = .heldW) →
    (∀ y ∈ G.lanes, y.st = .heldW ∨ y.st = .exited ∨ y.st = .done) →
    ∃ (t : State) (H : Group), exec (.meetwRelease g) s = .next t ∧ OnlyGroup s t g ∧ t.groups[g]? = some H ∧ SameRegisters G H ∧
      ∀ (l : Nat) (y : Lane), G.lanes[l]? = some y → ∃ y', H.lanes[l]? = some y' ∧ (y.st ≠ .heldW → y' = y) ∧
        (y.st = .heldW → MovedTo H l y y' (nextPc y.pc 8) .active)) ∧
  (∀ (s : State) (g : Nat) (G : Group), RunningGroup s g G → (∃ y ∈ G.lanes, y.st = .done) → (∀ y ∈ G.lanes, y.st = .exited ∨ y.st = .done) →
    (G.refill = none → ∃ (t : State) (H : Group), exec (.refillAttempt g) s = .next t ∧ t.mem = s.mem ∧ t.groups[g]? = some H ∧ SameRegisters G H ∧
      ∀ y ∈ H.lanes, y.st = .exited) ∧
    (∀ r, G.refill = some r → s.share g = [] → ∃ (t : State) (H : Group), exec (.refillAttempt g) s = .next t ∧ OnlyGroup s t g ∧ t.groups[g]? = some H ∧
      SameRegisters G H ∧ H.refill = none ∧ ∀ (l : Nat) (y : Lane), G.lanes[l]? = some y → ∃ y', H.lanes[l]? = some y' ∧ (y.st ≠ .done → y' = y) ∧
        (y.st = .done → MovedTo H l y y' r.exit .active)) ∧
    (∀ r, G.refill = some r → s.share g ≠ [] → exec (.refillAttempt g) s = .next (s.refillPop g r))) ∧
  (∀ (s : State) (g : Nat) (G : Group), RunningGroup s g G → (∀ y ∈ G.lanes, y.st = .exited) → G.outst = [] →
    (∀ c ∈ s.cores, (∀ o ∈ c.ops, o.g ≠ g) ∧ ∀ d ∈ c.drains, d.g ≠ g) →
    ∃ t H, exec (.groupRetire g) s = .next t ∧ t.mem = s.mem ∧ t.teams = s.teams ∧ t.groups[g]? = some H ∧ H.stage = .retired ∧
      ∀ q : Nat, (t.core G.core).token[q]? ≠ some (some g)) ∧
  (∀ (s : State) (g : Nat) (G : Group), RunningGroup s g G → 256 ≤ G.fairness →
    exec (.fairnessTimerExpiry g) s = .next (s.modGroup g fun G =>
      { G with fairness := 0, forced := (List.range G.gw).filter fun l => (G.laneAt l).lastIss == G.lastIssue,
               sticky := G.sticky.filter fun l => (G.laneAt l).lastIss != G.lastIssue })) ∧
  (∀ (s : State) (g : Nat) (G : Group) (r : Nat), RunningGroup s g G → G.promoted = false → G.readySince = some r → r + 1024 ≤ s.clock →
    exec (.issueStarvationPromotion g) s = .next (s.modGroup g fun G => { G with promoted := true })) ∧
  (∀ (s : State) (g : Nat) (G : Group) (r : Refill), s.groups[g]? = some G → G.lanes.length = G.gw → (∀ v ∈ G.v, v.lanes.length = G.gw) →
    let ls := (List.range G.gw).filter fun l => (G.laneAt l).st == .done
    let got := ls.zip (s.share g)
    let t := s.refillPop g r
    (got = [] → t = s) ∧ t.mem = s.mem ∧ t.share g = (s.share g).drop got.length ∧ (∀ k, k ≠ g → t.groups[k]? = s.groups[k]?) ∧
    ∃ H, t.groups[g]? = some H ∧ H.s = G.s ∧ H.b = G.b ∧ H.d = G.d ∧ H.outst = G.outst ∧ H.refill = G.refill ∧
      (∀ l w, (l, w) ∈ got → (∀ y, G.lanes[l]? = some y → ∃ y', H.lanes[l]? = some y' ∧ MovedTo H l y y' (nextPc r.addr 8) .active) ∧
        (r.dest + 1 < G.v.length → ((H.v[r.dest]?).bind fun (v : VReg) => v.lanes[l]?) = some (w.setWidth 32) ∧
          ((H.v[r.dest + 1]?).bind fun (v : VReg) => v.lanes[l]?) = some ((w >>> 32).setWidth 32))) ∧
      (∀ l y, (∀ w, (l, w) ∉ got) → G.lanes[l]? = some y → ∃ y', H.lanes[l]? = some y' ∧ MovedTo H l y y' y.pc y.st) ∧
      (∀ l k : Nat, (∀ w, (l, w) ∉ got) ∨ (k ≠ r.dest ∧ k ≠ r.dest + 1) →
        ((H.v[k]?).bind fun (v : VReg) => v.lanes[l]?) = ((G.v[k]?).bind fun (v : VReg) => v.lanes[l]?))) ∧
  (∀ (s : State) (g r : Nat) (G : Group), s.groups[g]? = some G → r ∈ G.missing →
    ∃ t H, exec (.registerCacheFill g r) s = .next t ∧ t.teams = s.teams ∧ t.cores = s.cores ∧ t.groups[g]? = some H ∧
      H.missing = G.missing.filter (· != r) ∧ SameRegisters G H ∧ H.lanes = G.lanes ∧
      ∀ (k : Nat) (G' : Group), s.groups[k]? = some G' → ∃ H', t.groups[k]? = some H' ∧ SameRegisters G' H' ∧ H'.lanes = G'.lanes)

/-! ## Waiting words and scratchpad pages (05 R138, 10 R262, 13 R321-R327, 14 R344, 20 R434-R436) -/

/-- A step of a walk: the nearest candidate leaves the queue; a candidate beyond the farthest of a full result queue, or an empty queue,
ends the walk with FIN; a record that is not wholly in bounds or in use gives nothing; else each of its first DEG edges, at most DMAX,
whose filter bit is clear sets it, and a node in use is measured by the bits in which its code differs from the query and queued where it
is near enough. What a step changes it changes when it ends: both queues and the filter, and nothing else of the scratchpad. The count of
steps, FIN and the distances stand in sD when the walk ends, which it does after its last step, or when it is asked to stop, or with the
step's fault.
A waiting word completes when what it waits for has come: the token, the counts of its queues, the arrival count, full granules; a
time limit that has passed raises ARR_TIMEOUT, and 100 µs without a frame SPAD_STARVED, at the word and with nothing written. A page that
is wanted, or that a resumed team had pinned, becomes resident; data that cannot be corrected is a fault of the word. An accepted walk makes its step and stands last; one whose group no longer
runs is asked to stop after it, and one whose word is gone leaves.
(The corners are the model's readings: log 17.) -/
def Obligations.WaitEvents : Prop :=
  ((∀ (s : State) (g addr n done dist d scope : Nat) (o : OWord) (brec : Rec256) (todo : List Bound) (stop : Bool),
    o.kind = .gwalk addr n done dist d brec scope todo →
    let s' := s.walkStep g o stop
    let G := s.group g
    let out := fun (s : State) => (s.forget .swLoad (askWho (2 * o.id + 1) g)).modCore G.core fun k =>
      { k with walks := k.walks.filter fun w => w != (g, o.id) }
    let ends := fun (s : State) (done dist : Nat) (fin : Bool) => s' = (out s).complete g o
      [.s d (BitVec.ofNat 64 (done + 256 * fin.toNat + 65536 * (dist % 65536)))]
    let faults := fun (s : State) (code va info : Nat) => s' = ((out s).takeBack g o).groupFault g
      ⟨code, 0, o.held.headD 0, info, o.pc, va, false, o.held, o.next, false, 0⟩
    let keeps := fun (s : State) (done dist : Nat) (seen : List Bound) => s.modGroup g fun G => { G with want := [], outst := G.outst.map fun y =>
      if y.id == o.id then { y with kind := .gwalk addr n done dist d brec scope seen } else y }
    let found := s.walkBring G.core G.team (s.slotBase (s.team G.team) G) addr
    (∀ s1 ps, found = .starve s1 ps → ps ≠ [] → (stop = true → ends s1 done dist false) ∧ (stop = false → s' = (keeps s1 done dist todo).starveWait g ps)) ∧
    (∀ s1 l va, found = .bad s1 l va → faults s1 0x60 va 0) ∧ (∀ s1 w, found = .ok s1 (w, none) → faults s1 0x02 0 0) ∧
    (∀ s1 w q r, found = .ok s1 (w, some (q, r)) →
      let e : WalkAt := ⟨w, brec.toNat, G.team, g, o.id, o.pc, scope⟩
      let first := e.step ⟨s1, q, r, [], 0, false, [], todo⟩
      (∀ x t, first = .ok x → e.commit x = .ok t → let done' := done + (if x.fin then 0 else 1)
        (x.fin = true ∨ stop = true ∨ n ≤ done' → ends t done' (dist + x.dist) x.fin) ∧
        (x.fin = false → stop = false → done' < n → s' = keeps t done' (dist + x.dist) [])) ∧
      (∀ t code va info, first = .error (.fault t code va info) → faults t code va info) ∧
      (∀ t seen, first = .error (.wait t seen) → (stop = true → ends t done dist false) ∧ (stop = false → s' = keeps t done dist seen)))) ∧
  (∀ (e : WalkAt) (x : WStep), let farthest := fun (x : WStep) => (x.rq.ents.getLast?.map (·.1)).getD 0
    (x.cq.ents = [] → e.step x = .ok { x with fin := true }) ∧
    (∀ k v rest, x.cq.ents = (k, v) :: rest → let y : WStep := { x with cq := { x.cq with ents := rest } }
      let c := k % 2 ^ 32
      let beyond := x.rq.ents.length = x.rq.cap ∧ farthest x < k
      (beyond → e.step x = .ok { y with fin := true }) ∧
      (¬beyond → ∀ st deg z, e.header c y = .ok ((st, deg), z) → (st < 2 → e.step x = .ok z) ∧
        (2 ≤ st → ∀ es u, let n := min deg e.w.dmax
          e.read false (recBase e.r + c * e.w.nodeb + 16 + e.w.cb) (4 * n) z = .ok (es, u) →
          e.step x = (List.range n).foldlM (fun (x' : WStep) i =>
            e.edge (leNat (x.s.spRead e.tid e.w.query e.w.cb)) (leNat ((es.drop (4 * i)).take 4)) x') u))) ∧
    (∀ query m : Nat, let h := vfHash e.w.vfk m
      (e.w.ncount ≤ m → e.edge query m x = .ok x) ∧
      (m < e.w.ncount → ∀ old y, e.vfBit h x = .ok (old, y) → (old = true ∨ h ∈ y.set → e.edge query m x = .ok y) ∧
        (old = false → h ∉ y.set → ∀ st deg z, e.header m { y with set := h :: y.set } = .ok ((st, deg), z) →
          (st < 2 → e.edge query m x = .ok z) ∧
          (2 ≤ st → ∀ code u, e.read false (recBase e.r + m * e.w.nodeb + 16) e.w.cb z = .ok (code, u) →
            let k := 2 ^ 32 * ((List.range (8 * e.w.cb)).countP fun i => (query ^^^ leNat code).testBit i) + m
            let near := u.rq.ents.length < u.rq.cap ∨ k < farthest u
            e.edge query m x = .ok { u with
              dist := u.dist + 1
              cq := if near then u.cq.push (k, 0) else u.cq
              rq := if near ∧ st = 2 then u.rq.push (k, 0) else u.rq })))) ∧
    (∀ node : Nat, let at_ := (node * e.w.nodeb : Nat)
      (recIn e.r at_ e.w.recLen = false → e.header node x = .ok ((0, 0), x)) ∧
      (recIn e.r at_ e.w.recLen = true → ∀ bs y, e.read true (recBase e.r + at_) 8 x = .ok (bs, y) →
        e.header node x = .ok ((leNat bs % 4, leNat bs / 2 ^ 16 % 2 ^ 16), y))) ∧
    (∀ (hdr : Bool) (va n : Nat) (l : XLine), let G := x.s.group e.g
      x.todo = [] → 0 < n → va % 128 + n ≤ 128 → va < 2 ^ 56 →
      x.s.xlate G.core (x.s.team G.team).ten G.levelS e.g va .load true = .ok l → l.own = .here → x.s.poisoned l.pa = false → x.s.hbmWaits l.pa = false →
      ∃ bs y, e.read hdr va n x = .ok (bs, y) ∧ (hdr = true → bs = Cells.readN x.s.mem l.pa n) ∧ y.s.mem = x.s.mem ∧ y.s.groups = x.s.groups ∧
        y.cq = x.cq ∧ y.rq = x.rq ∧ y.set = x.set ∧ y.dist = x.dist ∧ y.fin = x.fin) ∧
    (let span := fun (a : Nat) (q : CQ) (b : Nat) => a ≤ b ∧ b < a + 16 + 8 * q.cap
     let bits := fun (b : Nat) => ∃ h ∈ x.set, b = e.w.vf + h / 8
     (∀ b, span e.w.cq x.cq b ∨ span e.w.rq x.rq b ∨ bits b → (x.s.frameOf e.tid (b / 4096)).isSome = true) →
     (∀ co ∈ x.s.cores, ∀ fr ∈ co.frames, Cells.wf fr.data = true) → (∀ b, ¬(span e.w.cq x.cq b ∧ span e.w.rq x.rq b)) →
     (∀ b, bits b → ¬span e.w.cq x.cq b ∧ ¬span e.w.rq x.rq b) →
     x.cq.ents.length ≤ x.cq.cap → x.rq.ents.length ≤ x.rq.cap →
     ∃ t, e.commit x = .ok t ∧ t.groups = x.s.groups ∧
       (∀ b, span e.w.cq x.cq b → t.spRead1 e.tid b = (x.s.cqWrite e.tid e.w.cq x.cq).spRead1 e.tid b) ∧
       (∀ b, span e.w.rq x.rq b → t.spRead1 e.tid b = (x.s.cqWrite e.tid e.w.rq x.rq).spRead1 e.tid b) ∧
       (∀ b, bits b → ∀ k < 8, (t.spRead1 e.tid b).getLsbD k =
         ((x.s.spRead1 e.tid b).getLsbD k || decide (∃ h ∈ x.set, b = e.w.vf + h / 8 ∧ k = h % 8))) ∧
       ∀ b, ¬span e.w.cq x.cq b → ¬span e.w.rq x.rq b → ¬bits b → t.spRead1 e.tid b = x.s.spRead1 e.tid b))) ∧
  ((∀ (s : State) (g id : Nat) (G : Group) (o : OWord), Waiting s g id G o → o.kind = .tokWait →
    (s.core G.core).token.getD G.quarter none = none ∨ (s.core G.core).token.getD G.quarter none = some g →
    exec (.tokwaitTake g id) s = .next ((s.setHolder G (some g)).complete g o [])) ∧
  (∀ (s : State) (g id : Nat) (G : Group) (o : OWord) (upto : List (Nat × Nat)), Waiting s g id G o → o.kind = .qWait upto →
    ((∀ u ∈ upto, u.2 ≤ ((s.team G.team).queue u.1).completed) → exec (.qwaitSatisfy g id) s = .next (s.complete g o [])) ∧
    ((∃ u ∈ upto, ((s.team G.team).queue u.1).completed < u.2) → (∃ u ∈ upto, ((s.team G.team).queue u.1).halted = true) →
      ∃ t H f, exec (.qwaitSatisfy g id) s = .next t ∧ t.groups[g]? = some H ∧ H.faults = G.faults ++ [f] ∧ f.code = 0x35 ∧ f.pc = o.pc ∧
        f.late = false)) ∧
  (∀ (s s' : State) (g id addr d : Nat) (dl : Option Nat) (G : Group) (o : OWord) (u : Unit), Waiting s g id G o → o.kind = .arrWait addr d dl →
    s.bringRead G.core G.team [(addr, 16)] = .ok s' u →
    let count := s'.spReadLE G.team addr 8
    (s'.spReadLE G.team (addr + 8) 6 ≤ count → exec (.arrwaitSatisfy g id) s = .next (s'.complete g o [.s d (BitVec.ofNat 64 count)])) ∧
    (∀ e, dl = some e → e ≤ s.clock → ∃ t H f, exec (.arrwaitTimeout g id) s = .next t ∧ t.groups[g]? = some H ∧ H.faults = G.faults ++ [f] ∧
      f.code = 0x34 ∧ f.pc = o.pc ∧ f.late = false ∧ H.s = G.s ∧ H.v = G.v)) ∧
  (∀ (s s' : State) (g id addr d lane va : Nat) (dl : Option Nat) (G : Group) (o : OWord), Waiting s g id G o → o.kind = .arrWait addr d dl →
    s.bringRead G.core G.team [(addr, 16)] = .bad s' lane va →
    exec (.arrwaitSatisfy g id) s = .next (s'.lateFault g o (o.held.headD 0) va)) ∧
  (∀ (s : State) (g id sz d : Nat) (take : Bool) (a : SAcc) (G : Group) (o : OWord), Waiting s g id G o → o.kind = .feLoad [a] take sz d →
    (s.frameOf G.team (a.addr / 4096)).isSome = true → s.feGet G.team a.addr = true → sz ≤ 6 → a.size = sizeOf' sz →
    a.addr % 16 + a.size ≤ 16 → s.spBad G.team a.addr a.size = none →
    (∀ v ∈ G.v, a.lane < v.lanes.length) → d + dataRegs sz ≤ G.v.length →
    ∃ t H, exec (.feLaneAttempt g id) s = .next t ∧ t.groups[g]? = some H ∧ H.outst = G.outst.filter (fun y => y.id != o.id) ∧
      t.feGet G.team a.addr = !take ∧
      ∀ k, k < dataRegs sz → ((H.v[d + k]?).bind fun (v : VReg) => v.lanes[a.lane]?) = some (loadedValue sz (s.spReadLE G.team a.addr a.size) k)) ∧
  (∀ (s : State) (g id : Nat) (pend : List Nat) (G : Group) (o : OWord), Waiting s g id G o → o.kind = .feWait pend →
    (∀ a ∈ pend, (s.frameOf G.team (a / 4096)).isSome = true ∧ s.feGet G.team a = true) →
    ∃ t H, exec (.feWaitSatisfy g id) s = .next t ∧ t.mem = s.mem ∧ t.groups[g]? = some H ∧ H.outst = G.outst.filter (fun y => y.id != o.id) ∧
      ∀ l ∈ o.held, ∀ y, G.lanes[l]? = some y → y.st = .active → y.pc = o.pc → ∃ y', H.lanes[l]? = some y' ∧ y'.pc = o.next) ∧
  (∀ (s s' : State) (tid page : Nat), let T := s.team tid
    (∃ g ∈ T.groups, page ∈ (s.group g).want) ∨ (T.life = .running ∧ page ∈ T.pins) →
    s.fillPage tid page ((T.groups.flatMap fun g => (s.group g).want.map fun p => (tid, p)) ++ T.pins.map fun p => (tid, p)) = .ok s' →
    s.portCore T (page * 4096) < s.cores.length →
    let u := s'.modTeam tid fun t => { t with pins := t.pins.filter (· != page) }
    let t : State := { u with groups := u.groups.map fun G => if G.team == tid then { G with want := G.want.filter (· != page) } else G }
    exec (.pageFill tid page) s = .next t ∧ (t.frameOf tid page).isSome = true) ∧
  (∀ (s : State) (g p : Nat) (ps : List Nat) (pc : Word) (G : Group), RunningGroup s g G → G.want = p :: ps → G.since + 100 * 1200 ≤ s.clock →
    G.suspend = some (pc, .frame) → ∃ t H f, exec (.spadStarvedTimeout g) s = .next t ∧ t.groups[g]? = some H ∧ H.faults = G.faults ++ [f] ∧
      f.code = 0x21 ∧ f.pc = pc ∧ f.vaddr = p * 4096 ∧ f.late = false ∧ H.v = G.v ∧ H.s = G.s ∧ H.lanes = G.lanes) ∧
  (∀ (s : State) (core g id : Nat) (rest : List (Nat × Nat)) (stop : Bool), (s.core core).walks = (g, id) :: rest →
    ((∀ o ∈ (s.group g).outst, o.id ≠ id) → exec (.gwalkStep core stop) s = .next (s.modCore core fun c => { c with walks := rest })) ∧
    (∀ (G : Group) (o : OWord), Waiting s g id G o →
      exec (.gwalkStep core stop) s = .next ((s.modCore core fun c => { c with walks := rest ++ [(g, id)] }).walkStep g o stop)) ∧
    (∀ (G : Group) (o : OWord), s.groups[g]? = some G → s.runs g = false → G.outst.find? (fun y => y.id == id) = some o →
      exec (.gwalkStep core stop) s = .next ((s.modCore core fun c => { c with walks := rest ++ [(g, id)] }).walkStep g o true))))

/-! ## The plane copy engines perform their commands (13 R311-R323) -/

namespace Sys2Proof

/-- What each event of an engine does for a line of the command `op` at the head of the queue (13 R315-R320). -/
def engineRule (e : Eng) (op : CmdOp) : Instr → Option (Nat → State → Except EFail State)
  | .pcopyPerform _ _ => match op with | .pcopy x k => some (e.pcopy x k) | _ => none
  | .pcopyRfPerform _ _ => match op with | .pcopyRf _ k => some (e.pcopyRf k) | _ => none
  | .pstorePerform _ _ => match op with | .pstore x k => some (e.pstore x k) | _ => none
  | .pfillPerform _ _ => match op with | .pfill _ v fe => some (e.pfill v fe) | _ => none
  | .qmarkPerform _ _ => match op with
    | .qmark v n => some fun _ s => e.spPut s e.c.addr (natToBytes 8 v.toNat ++ natToBytes 8 n)
    | _ => none
  | .pxformRoutineRun _ _ => match op with
    | .pxform n rt pol p dir entry => some fun u s =>
      let e' : Eng := { e with c := { e.c with levelS := true } }
      if entry = none then .error (.halt s 0x01 0)
      else if routineOk rt p dir = false then .error (.halt s 0x02 0)
      else if rt = 1 then e'.convert n pol p dir u s
      else if rt = 2 then e'.gather p u s
      else if rt = 3 then e'.transpose n p u s
      else if rt = 4 then e'.quantise pol p dir u s
      else e'.installed s
    | _ => none
  | _ => none

/-- The lines of a command: 128 bytes or a staged line of a copy, a granule of a fill, 128 elements of a conversion, an element of a
gather, 32 of a transposition, a staged line of a quantisation. -/
def lineCount (r : Nat) : CmdOp → Nat
  | .pcopy x _ | .pstore x _ => if r / 2 ^ 252 % 16 = 3 then x else (x + 127) / 128
  | .pcopyRf x _ => x
  | .pfill x _ _ => (x + 15) / 16
  | .pxform n rt _ p _ _ => if rt = 1 then (n + 127) / 128 else if rt = 2 ∨ rt = 4 then n else if rt = 3 then (n * 2 ^ p + 31) / 32 else 1
  | .qmark .. => 1
  | .qfence .. => 0

/-- The queue that an event of an engine names. -/
def engineQueue : Instr → Nat × Nat
  | .pcopyPerform t q | .pcopyRfPerform t q | .pstorePerform t q | .pfillPerform t q | .qmarkPerform t q | .pxformRoutineRun t q => (t, q)
  | _ => (0, 0)

/-- An engine's access of one line at `va` may be made: it goes to this device's memory at `pa`. -/
def LineAt (e : Eng) (s : State) (how : How) (va pa : Nat) : Prop := ∃ l, e.line s va how = .ok l ∧ l.own = .here ∧ l.pa = pa

/-- The team's pages of `n` bytes at a team-space address are resident, every frame's data is in canonical form, and no word of the bytes
is uncorrectable. -/
def EngineSpace (e : Eng) (s : State) (addr n : Nat) : Prop :=
  (∀ k < n, (s.frameOf e.tid ((addr + k) / 4096)).isSome = true) ∧ (∀ co ∈ s.cores, ∀ fr ∈ co.frames, Cells.wf fr.data = true) ∧
  s.spBad e.tid addr n = none

/-- `t` holds the bytes `f 0 … f (n - 1)` at a team-space address, their granules full, and every other scratchpad byte as `s` does. -/
def EngineWrote (e : Eng) (s t : State) (addr n : Nat) (f : Nat → Byte) : Prop :=
  t.groups = s.groups ∧ (∀ k < n, t.spRead1 e.tid (addr + k) = f k ∧ t.feGet e.tid (addr + k) = true) ∧
  ∀ a, a < addr ∨ addr + n ≤ a → t.spRead1 e.tid a = s.spRead1 e.tid a

/-- The 144 bytes of a staged line (R314). -/
def stagedLine (mant exps : List Byte) (pln : Nat) (unf : List Nat) : List Byte :=
  mant ++ exps ++ [BitVec.ofNat 8 pln, 0#8, 0#8, 0#8] ++ unf.map (BitVec.ofNat 8) ++ List.replicate 4 0#8

end Sys2Proof

/-- The bytes that the commands move. A byte of a record that is in bounds is read from its address, any other as zero; a staged line
takes an exponent for each block with an element in bounds and, for each plane asked for, the bits of the elements in bounds; `pcopy` puts
it into scratchpad with its plane count, or 128 plain bytes; `pcopy.rf` takes the planes that the line lacks, and nothing where it lacks
none; `pstore` writes back the exponents and bits of the elements in bounds, and no other bit. A conversion reads its elements, converts
those before the first that the policy faults, writes them and halts at it; a gather puts the element that an index names at its place,
or halts where a STRICT record does not hold it or its address is out of range; a transposition puts source element `i` at row
`i mod 2^p`; a quantisation makes a staged line of four blocks of 32. Elements that are not wholly in bounds read as zero and are not
written.
The command at the head of a queue that is not halted, of a team that runs or is stopping, is performed once what it follows has been,
line by line: what a line has done stays done while the command waits for the next, from which it then goes on. It leaves the queue and
counts as completed when its peers have acknowledged what it forwarded, which it waits for; it halts its queue, which posts a record of
class QUEUE, when a line fails or when a peer that it must hear from is dead, at the address that was lost, and is then performed from its
start again; a line that finds no frame for 100 µs halts it with SPAD_STARVED. An engine's bytes land in scratchpad with their granules
full, as a marker's value and count do; a fill writes its value in every word of its granules.
(What a routine writes whose number 13 R320 does not name is a free value: log 23.) -/
def Obligations.EngineEvents : Prop :=
  ((∀ (e : Eng) (s : State) (o : Int) (n : Nat) (pa : Nat → Nat), let r := e.c.brec.toNat
    let at_ := fun (i : Nat) => recAddr r (o + (i : Int)).toNat
    0 < n → (∀ i : Nat, i < n → recIn r (o + (i : Int)) 1 = true → LineAt e s .load (at_ i) (pa i)) →
    (∀ i < n, at_ i = at_ 0 + i → at_ i / 128 = at_ 0 / 128 → pa i = pa 0 + i) →
    ∃ t, e.bytesAt s o n = .ok ((List.range n).map (fun (i : Nat) => if recIn r (o + (i : Int)) 1 = true then Cells.read s.mem (pa i) else 0#8), t) ∧
      t.mem = s.mem ∧ t.cores = s.cores ∧ t.groups = s.groups ∧ t.teams = s.teams ∧ ∀ how va l, e.line s va how = .ok l → e.line t va how = .ok l) ∧
  (∀ (e : Eng) (s : State) (f : Int) (pa : Nat → Nat), let r := e.c.brec.toNat
    (∀ b : Nat, b < 4 → recIn r (f + 32 * (b : Int)) 1 = true → LineAt e s .load (recBase r + (f + 32 * (b : Int)).toNat / 32) (pa b)) →
    ∃ t, e.exps s f = .ok ((List.range 4).map (fun (b : Nat) => if recIn r (f + 32 * (b : Int)) 1 = true then Cells.read s.mem (pa b) else 0#8), t) ∧
      t.mem = s.mem ∧ t.cores = s.cores ∧ t.groups = s.groups ∧ t.teams = s.teams ∧ ∀ how va l, e.line s va how = .ok l → e.line t va how = .ok l) ∧
  (∀ (e : Eng) (s : State) (f : Int) (p k q0 : Nat) (bytes : List Byte) (pa : Nat → Nat), let r := e.c.brec.toNat
    let inb := fun (i : Nat) => recIn r (f + (i : Int)) 1 = true
    k ≤ 8 → bytes.length = 128 →
    ((∀ i < 128, ¬inb i) → e.planes s f p k bytes = .ok (bytes, s)) ∧
    ((∃ i < 8, inb (8 * q0 + i)) → q0 < 16 → (∀ i < 8 * q0, ¬inb i) →
      (∀ j, p ≤ j → j < k → LineAt e s .load (planeAddr r j (f + 8 * (q0 : Int)).toNat) (pa j)) →
      ∃ m t, e.planes s f p k bytes = .ok (m, t) ∧ t.mem = s.mem ∧ t.cores = s.cores ∧ t.groups = s.groups ∧ t.teams = s.teams ∧ m.length = 128 ∧
        ∀ i : Nat, i < 128 → ∀ b < 8, (m.getD i 0#8).getLsbD b = (if recIn r (f + (i : Int)) 1 = true ∧ p ≤ 7 - b ∧ 7 - b < k
          then (Cells.read s.mem (pa (7 - b) + (i / 8 - q0))).getLsbD ((f + (i : Int)).toNat % 8) else (bytes.getD i 0#8).getLsbD b))) ∧
  (∀ (e : Eng) (s : State) (x k u : Nat), let r := e.c.brec.toNat
    let kk := min k (recMw r)
    let f := e.c.off + ((128 * u : Nat) : Int)
    let pln := if kk = recMw r then 8 else kk
    let at_ := e.c.addr + 144 * u
    (recKind r = 3 → ∀ ex s1 m s2, e.exps s f = .ok (ex, s1) → e.planes s1 f 0 kk (List.replicate 128 0#8) = .ok (m, s2) →
      e.pcopy x k u s = e.spPut s2 at_ (stagedLine m ex pln [0, 0, 0, 0])) ∧
    (recKind r ≠ 3 → x % 16 = 0 → let n := min 128 (x - 128 * u)
      ∀ pa : Nat → Nat, (∀ i : Nat, i < n → recIn r (f + (i : Int)) 1 = true → LineAt e s .load (recAddr r (f + (i : Int)).toNat) (pa i)) →
      (∀ i j : Nat, i < n → j < n → recAddr r (f + (i : Int)).toNat + j = recAddr r (f + (j : Int)).toNat + i →
        recAddr r (f + (i : Int)).toNat / 128 = recAddr r (f + (j : Int)).toNat / 128 → pa i + j = pa j + i) →
      EngineSpace e s (e.c.addr + 128 * u) n →
      (∀ i < n, l0Dirty (s.rdMem (s.l0Addr (s.team e.tid) ((e.c.addr + 128 * u + i) / 4096)) 8) = true) →
      ∃ t, e.pcopy x k u s = .ok t ∧ EngineWrote e s t (e.c.addr + 128 * u) n
        fun (i : Nat) => if recIn r (f + (i : Int)) 1 = true then Cells.read s.mem (pa i) else 0#8) ∧
    (∀ line s1, e.spGet s at_ 144 = .ok (line, s1) → let p := (line.getD 132 0#8).toNat
      (p = 8 ∨ kk ≤ p → e.pcopyRf k u s = .ok s1) ∧
      (∀ m s2, p ≠ 8 → p < kk → e.planes s1 f p kk (line.take 128) = .ok (m, s2) →
        e.pcopyRf k u s = e.spPut s2 at_ (m ++ (line.drop 128).take 4 ++ [BitVec.ofNat 8 pln] ++ line.drop 133)) ∧
      (recKind r = 3 → e.pstore x k u s = e.writes s1 (stagedWrites r f kk line))) ∧
    (recKind r ≠ 3 → ∀ bs s1, e.spGet s (e.c.addr + 128 * u) (min 128 (x - 128 * u)) = .ok (bs, s1) →
      e.pstore x k u s = e.writes s1 (bs.zipIdx.filterMap fun b =>
        if recIn r (f + (b.2 : Int)) 1 then some (recAddr r (f + (b.2 : Int)).toNat, 0, 0xFF#8, b.1) else none))) ∧
  (∀ (r : Nat) (f : Int) (kk : Nat) (line : List Byte) (a cls : Nat) (m v : Byte), (a, cls, m, v) ∈ stagedWrites r f kk line ↔
    (∃ b : Nat, b < 4 ∧ recIn r (f + 32 * (b : Int)) 1 = true ∧ a = recBase r + (f + 32 * (b : Int)).toNat / 32 ∧ cls = 0 ∧ m = 0xFF#8 ∧ v = line.getD (128 + b) 0#8) ∨
    (∃ j < kk, ∃ q : Nat, q < 16 ∧ m ≠ 0#8 ∧ a = planeAddr r j (f + 8 * (q : Int)).toNat ∧ cls = j + 1 ∧ ∀ i : Nat, i < 8 →
      m.getLsbD i = recIn r (f + ((8 * q + i : Nat) : Int)) 1 ∧ v.getLsbD i = (m.getLsbD i && (line.getD (8 * q + i) 0#8).getLsbD (7 - j)))) ∧
  (∀ (e : Eng) (s : State) (ws : List EngByte) (pa : Nat → Nat), Cells.wf s.mem = true → (ws.map (·.1)).Nodup →
    (∀ w ∈ ws, LineAt e s .store w.1 (pa w.1) ∧ pa w.1 % 128 = w.1 % 128) →
    (∀ w ∈ ws, ∀ w' ∈ ws, w.1 / 128 = w'.1 / 128 ↔ pa w.1 / 128 = pa w'.1 / 128) →
    ∃ t, e.writes s ws = .ok t ∧ t.cores = s.cores ∧ t.groups = s.groups ∧ t.teams = s.teams ∧
      (∀ w ∈ ws, Cells.read t.mem (pa w.1) = (Cells.read s.mem (pa w.1) &&& ~~~w.2.2.1) ||| (w.2.2.2 &&& w.2.2.1)) ∧
      ∀ b, (∀ w ∈ ws, pa w.1 ≠ b) → Cells.read t.mem b = Cells.read s.mem b) ∧
  (∀ (e : Eng) (s : State) (addr n : Nat), EngineSpace e s addr n →
    ∃ t, e.spGet s addr n = .ok ((List.range n).map fun k => s.spRead1 e.tid (addr + k), t) ∧ t.mem = s.mem ∧ t.groups = s.groups ∧
      (∀ a, t.spRead1 e.tid a = s.spRead1 e.tid a) ∧ ∀ a, (s.frameOf e.tid (a / 4096)).isSome = true → t.feGet e.tid a = s.feGet e.tid a) ∧
  (∀ (e : Eng) (s : State) (dir n i : Nat), let r := e.c.brec.toNat
    let o := e.c.off + (i : Int)
    (dir = 0 → recIn r o n = true → e.srcBytes dir s i n = e.bytesAt s o n) ∧
    (dir = 0 → recIn r o n = false → e.srcBytes dir s i n = .ok (List.replicate n 0#8, s)) ∧
    (dir = 2 → e.srcBytes dir s i n = e.spGet s (e.c.off.toNat + i) n) ∧ (dir = 1 → e.srcBytes dir s i n = e.spGet s (e.c.addr + i) n) ∧
    (∀ is bs t, e.srcBytes dir s (i * n) n = .ok (bs, t) → e.srcElems dir n (i :: is) s =
      (e.srcElems dir n is t).map fun p => (leNat bs :: p.1, p.2)) ∧
    e.srcElems dir n [] s = .ok ([], s) ∧ e.dstElems dir n i [] s = .ok s ∧
    (∀ vs, vs ≠ [] → dir ≠ 1 → e.dstElems dir n i vs s = e.spPut s (e.c.addr + i * n) (vs.flatMap (natToBytes n))) ∧
    (∀ vs, vs ≠ [] → dir = 1 → ∃ ws, e.dstElems dir n i vs s = e.writes s ws ∧ ∀ a cls m v, (a, cls, m, v) ∈ ws ↔
      ∃ k x, vs[k]? = some x ∧ ∃ b < n, let o := e.c.off + (((i + k) * n : Nat) : Int)
        recIn r o n = true ∧ recIn r (o + (b : Int)) 1 = true ∧ a = recAddr r (o + (b : Int)).toNat ∧ cls = 0 ∧ m = 0xFF#8 ∧ v = BitVec.ofNat 8 (x / 2 ^ (8 * b)))) ∧
  (∀ (e : Eng) (s s1 : State) (n pol p dir u : Nat) (xs : List Nat), let sf := p % 16
    let df := p / 16 % 16
    let convert := fun x => (if sf = 1 then (Fmt.ofCode df).resolve else (Fmt.ofCode df).convert) .rne pol ((Fmt.ofCode sf).decode x)
    e.srcElems dir (fmtBytes sf) (((List.range 128).map (128 * u + ·)).filter (· < n)) s = .ok (xs, s1) →
    ∀ vs : List Nat, vs.length ≤ xs.length → (∀ (k v : Nat), vs[k]? = some v → (xs[k]?).bind convert = some v) →
      (∀ x, xs[vs.length]? = some x → convert x = none) → ∀ s2, e.dstElems dir (fmtBytes df) (128 * u) vs s1 = .ok s2 →
      (vs.length = xs.length → e.convert n pol p dir u s = .ok s2) ∧ (vs.length < xs.length → e.convert n pol p dir u s = .error (.halt s2 0x40 0))) ∧
  (∀ (e : Eng) (s s1 : State) (p u : Nat) (ix : List Byte), e.spGet s (e.c.off.toNat + 4 * u) 4 = .ok (ix, s1) → let r := e.c.brec.toNat
    let o := leNat ix * 2 ^ p
    let lo := recAddr r o
    let hi := recAddr r (o + 2 ^ p - 1)
    (recIn r (o : Int) (2 ^ p) = false → recStrict r = true → e.gather p u s = .error (.halt s1 0x10 0)) ∧
    (recIn r (o : Int) (2 ^ p) = false → recStrict r = false → e.gather p u s = e.spPut s1 (e.c.addr + u * 2 ^ p) (List.replicate (2 ^ p) 0#8)) ∧
    (recIn r (o : Int) (2 ^ p) = true → (2 ^ 56 ≤ lo → e.gather p u s = .error (.halt s1 0x11 lo)) ∧
      (lo < 2 ^ 56 → 2 ^ 56 ≤ hi → e.gather p u s = .error (.halt s1 0x12 lo)) ∧
      (lo < 2 ^ 56 → hi < 2 ^ 56 → ∀ bs s2, e.bytesAt s1 (o : Int) (2 ^ p) = .ok (bs, s2) → e.gather p u s = e.spPut s2 (e.c.addr + u * 2 ^ p) bs))) ∧
  (∀ (e : Eng) (s : State) (n p u : Nat), let is := ((List.range 32).map (32 * u + ·)).filter (· < n * 2 ^ p)
    let one := fun (s : State) (i : Nat) => (e.srcBytes 0 s (4 * i) 4).bind fun b => e.spPut b.2 (e.c.addr + 4 * (i % 2 ^ p * n + i / 2 ^ p)) b.1
    e.transpose n p u s = is.foldlM one s) ∧
  (∀ (e : Eng) (s s1 : State) (pol p dir u : Nat) (xs : List Nat), e.srcElems dir 4 ((List.range 128).map (128 * u + ·)) s = .ok (xs, s1) →
    let block := fun (b : Nat) => bfpConvert p .rne pol (((xs.drop (32 * b)).take 32).map Fmt.f32.decode)
    ((∃ b < 4, (block b).faults ≠ []) → e.quantise pol p dir u s = .error (.halt s1 0x40 0)) ∧
    ((∀ b < 4, (block b).faults = []) → e.quantise pol p dir u s = e.spPut s1 (e.c.addr + 144 * u) (stagedLine
      ((List.range 4).flatMap fun b => (block b).ms.map fun m => BitVec.ofInt 8 (m * 2 ^ (8 - p)))
      ((List.range 4).map fun b => BitVec.ofNat 8 (block b).exp) 8 ((List.range 4).map fun b => (block b).under))))) ∧
  ((∀ (i : Instr) (s : State) (c : Cmd) (rest : List Cmd) (run : Nat → State → Except EFail State),
    let tid := (engineQueue i).1
    let q := (engineQueue i).2
    let Q := (s.team tid).queue q
    let e : Eng := ⟨tid, q, c⟩
    Q.pending = c :: rest → Q.halted = false → (s.team tid).life = .running ∨ (s.team tid).life = .stopping ∨ (s.team tid).life = .halted →
    (∀ w ∈ c.after, ∀ o ∈ (s.group w.1).outst, o.id ≠ w.2) → engineRule e c.op i = some run →
    let done := e.run run (lineCount c.brec.toNat c.op - c.pos) c.pos s
    (∀ p, s.lostBefore c = some p → exec i s = .next (s.haltQueue tid q 0x33 p.va c.pc)) ∧
    (s.lostBefore c = none → c.performed = true → exec i s = .next (s.closeCmd tid q c)) ∧
    (s.lostBefore c = none → c.performed = false → ∀ k s',
      (done = (k, s', none) → exec i s = .next (s'.closeCmd tid q c)) ∧
      (∀ t code va, done = (k, s', some (.halt t code va)) → exec i s = .next (t.haltQueue tid q code va c.pc)) ∧
      (∀ ask, done = (k, s', some (.wait ask)) → exec i s = .next ((ask s').modHead tid q none fun c => { c with pos := k })) ∧
      (∀ page, done = (k, s', some (.frame page)) → let since := ((s'.team tid).queue q).starve.getD s'.clock
        exec i s = .next (if since + 100 * 1200 ≤ s'.clock then s'.haltQueue tid q 0x21 (page * 4096) c.pc
          else s'.modHead tid q (some since) fun c => { c with pos := k })))) ∧
  (∀ (e : Eng) (run : Nat → State → Except EFail State) (n k : Nat) (s : State), e.run run 0 k s = (k, s, none) ∧
    (∀ t, run k s = .ok t → e.run run (n + 1) k s = e.run run n (k + 1) (t.forget .engLoad e.who)) ∧
    (∀ x, run k s = .error x → e.run run (n + 1) k s = (k, s, some x))) ∧
  (∀ (s : State) (c : Cmd), (s.lostBefore c = none ↔
    ∀ x ∈ s.sent, x.lost = true → x.kind = .fwdStore ∨ x.kind = .fwdLoad → (x.g, x.word) ∉ c.after)) ∧
  (∀ (s : State) (tid q : Nat) (c : Cmd), let mine := fun (x : Sent) => x.kind = .engStore ∧ x.g = queueWho tid q
    (∀ p, s.sent.find? (fun x => x.kind == .engStore && x.g == queueWho tid q && x.lost) = some p → s.closeCmd tid q c =
      ({ s with sent := s.sent.filter fun x => !(x.kind == .engStore && x.g == queueWho tid q && x.lost) } : State).haltQueue tid q 0x33 p.va c.pc) ∧
    ((∀ x ∈ s.sent, mine x → x.lost = false) → (∃ x ∈ s.sent, mine x) →
      s.closeCmd tid q c = s.modHead tid q none fun c => { c with performed := true }) ∧
    ((∀ x ∈ s.sent, ¬mine x) → s.closeCmd tid q c = s.popCmd tid q)) ∧
  (∀ (s : State) (tid q code va : Nat) (pc : Word) (T : Team) (starve : Option Nat) (f : Cmd → Cmd), s.teams[tid]? = some T → q < T.queues.length →
    (let t := s.popCmd tid q
     t.mem = s.mem ∧ t.groups = s.groups ∧ (t.team tid).queue q = { T.queue q with
       pending := (T.queue q).pending.drop 1, completed := (T.queue q).completed + 1, starve := none }) ∧
    (let t := s.modHead tid q starve f
     t.mem = s.mem ∧ t.groups = s.groups ∧ (t.team tid).queue q = { T.queue q with pending := modAt (T.queue q).pending 0 f, starve := starve }) ∧
    (let Q := ((s.haltQueue tid q code va pc).team tid).queue q
     Q.halted = true ∧ Q.flt = some (code, pc, va) ∧ Q.accepted = (T.queue q).accepted ∧ Q.completed = (T.queue q).completed ∧
     Q.pending = modAt (T.queue q).pending 0 fun c => { c with pos := 0, performed := false })) ∧
  (∀ (e : Eng) (s : State) (addr : Nat) (bs : List Byte), EngineSpace e s addr bs.length →
    ∃ t, e.spPut s addr bs = .ok t ∧ EngineWrote e s t addr bs.length fun k => bs.getD k 0#8) ∧
  (∀ (e : Eng) (s : State) (fe u : Nat) (v : Lane32), e.c.addr % 16 = 0 → EngineSpace e s (e.c.addr + 16 * u) 16 →
    ∃ t, e.pfill v fe u s = .ok t ∧ t.groups = s.groups ∧
      (∀ k < 16, t.spRead1 e.tid (e.c.addr + 16 * u + k) = BitVec.ofNat 8 (v.toNat / 2 ^ (8 * (k % 4))) ∧
        t.feGet e.tid (e.c.addr + 16 * u + k) = if fe = 0 then s.feGet e.tid (e.c.addr + 16 * u + k) else decide (fe = 1)) ∧
      ∀ a, a < e.c.addr + 16 * u ∨ e.c.addr + 16 * u + 16 ≤ a → t.spRead1 e.tid a = s.spRead1 e.tid a ∧
        ((s.frameOf e.tid (a / 4096)).isSome = true → t.feGet e.tid a = s.feGet e.tid a)))

/-! ## The fabric and the optical lanes (14 R336-R349, 20 R425, R426, 22 R464-R466) -/

namespace Sys2Proof

/-- The request of a peer is for a bound endpoint of this device, and its `n` bytes lie in the exported window `w`. -/
structure Asks (s : State) (r : FabricReq) (w : EndWin) (n : Nat) : Prop where
  tenancy : r.rten < 16
  world : (s.ten r.rten).secure = true → r.secure = true
  bound : s.boundTeam r.rten r.rep ≠ none
  window : s.boot.cfg.windows.find? (fun w => w.ten == r.rten && w.rep == r.rep) = some w
  inside : r.off + n ≤ w.size

/-- The translation of a peer's access to one line of an exported window. -/
def exported (s : State) (r : FabricReq) (how : How) (va : Nat) : XRes := s.xlate 0 r.rten false (joinWho r.rten) va how false

/-- The device once the lines of `n` bytes at `va` have been looked up: a line that misses in core 0's TLBs has been walked (log 28). -/
def lookedUp (s : State) (ten va n : Nat) : State :=
  (linePieces va n).foldl (fun (s : State) p => if p.1 < 2 ^ 56 ∧ s.tlbLook 0 ten p.1 = none then
    (match s.walk false ten p.1 with | .ok (leaf, size, es) => s.walkFill false 0 ten p.1 leaf size es | .error _ => s) else s) s

/-- It gives the line `l` of this device's memory, whose data is good. -/
def Exported (s : State) (r : FabricReq) (how : How) (va : Nat) (l : XLine) : Prop :=
  exported s r how va = .ok l ∧ l.own = .here ∧ s.poisoned l.pa = false

end Sys2Proof

/-- A lane reaches a peer on a channel of its row that no other lane of its fibre uses. A lane that leaves a peer finishes the flit it sends
and then tunes to the next, or is dark where none is given or reached; a FAILED lane stays FAILED until it relocks. A lease that ends, for
whatever reason, sends each of its lanes to its donor, or to the pool, and no other lane or lease changes; a reclaimed lane leaves its lease,
which ends with its last lane. A grant takes lanes that no lease holds, from the pool or from a donor under 25 % used, which keeps two.
(A channel, and where a FAILED or unreachable lane stands, are the model's choices: log 26, 27.)
`lqry` reads what its selector names; a `lease` that is granted no lane, or with its bit set not all of them, gives 0, and one that
is granted lanes waits for them under an id that no live lease of the team has; no more lanes are taken than asked and the quota leaves;
`lrel` ends its lease, and does nothing for an id that no lease has.
(Which lanes are granted is the model's choice: log 26, 27.) -/
def Obligations.LeaseWords : Prop :=
  ((∀ (s : State) (l p : Nat), let shared := fun (n : Nat) => ∃ i < 4, let k := l / 4 * 4 + i
      k ≠ l ∧ (s.lane k).st ≠ .dark ∧ (s.lane k).chan = n
    (∀ n, s.chanTo l p = some n → n < 64 ∧ routePeer (s.route l) n = some p ∧ ¬shared n) ∧
    (s.chanTo l p = none → ∀ n < 64, routePeer (s.route l) n = some p → shared n)) ∧
  (∀ (s : State) (l : Nat), let o := s.lane l
    (∀ q, o.flit = some q → s.clock < o.since → s.flitOf l = (o.since, some q)) ∧
    (o.flit = none ∨ o.since ≤ s.clock →
      (∀ p, o.st = .live → o.peer = some p → s.clock < (s.peerUse p).freeAt → s.flitOf l = (s.clock + 14, some p)) ∧
      (o.st ≠ .live ∨ o.peer = none ∨ (∃ p, o.peer = some p ∧ (s.peerUse p).freeAt ≤ s.clock) → s.flitOf l = (s.clock, none)))) ∧
  (∀ (s : State) (l : Nat) (peer : Option Nat), let o := s.lane l
    let t := s.retune l peer
    let reached := peer.bind fun p => (s.chanTo l p).map fun n => (n, p)
    t.mem = s.mem ∧ t.groups = s.groups ∧ t.teams = s.teams ∧ t.cores = s.cores ∧ t.flits = s.flits ∧ (∀ k, k ≠ l → t.lane k = s.lane k) ∧
    (∀ n p, reached = some (n, p) → t.lane l = if o.st = .failed then { o with chan := n, peer := some p }
      else ⟨l, .tuning, n, (s.flitOf l).1, some p, (s.flitOf l).2⟩) ∧
    (reached = none → t.lane l = if o.st = .failed then { o with peer := none } else ⟨l, .dark, 0, (s.flitOf l).1, none, (s.flitOf l).2⟩)) ∧
  (∀ (s : State) (tid id : Nat), let T := s.team tid
    let t := s.endLease tid id
    t.mem = s.mem ∧ t.groups = s.groups ∧ (∀ k, k ≠ tid → t.team k = s.team k) ∧ t.team tid = { T with leases := T.leases.filter fun l => l.id != id } ∧
    (T.leases.find? (fun l => l.id == id) = none → t = s) ∧
    (∀ l, T.leases.find? (fun l => l.id == id) = some l →
      t.optics = (l.lanes.foldl (fun (s : State) x => s.retune x.lane x.donor) s).optics ∧
      ∀ k, (∀ x ∈ l.lanes, x.lane ≠ k) → t.lane k = s.lane k)) ∧
  (∀ (s : State) (x : LeaseLane), let t := s.reclaim x
    t.mem = s.mem ∧ t.groups = s.groups ∧ t.optics = (s.retune x.lane x.donor).optics ∧ t.teams = s.teams.map fun T =>
      { T with leases := (T.leases.map fun l => { l with lanes := l.lanes.filter fun y => y.lane != x.lane }).filter fun l => !l.lanes.isEmpty }) ∧
  (∀ (s : State) (peer n : Nat), let r := s.grant peer n
    let free := fun (l : Nat) => ∀ T ∈ s.teams, ∀ y ∈ T.leases, ∀ z ∈ y.lanes, z.lane ≠ l
    (∀ x ∈ r.2, free x.lane ∧ (s.lane x.lane).st ≠ .failed ∧
      (x.donor = none → routeBase (s.route x.lane) = false) ∧
      (∀ p, x.donor = some p → p ≠ peer ∧ x.lane ∈ s.allotment p ∧ (∀ l ∈ s.allotment p, free l) ∧
        4 * (((s.peerUse p).sent.filter fun y => y.1 ≤ s.clock && s.clock ≤ y.1 + 76800).map (·.2)).sum < (s.allotment p).length * 1505882 ∧
        (r.2.filter fun y => y.donor == some p).length + 2 ≤ (s.allotment p).length)) ∧
    (∀ k, (∀ x ∈ r.2, x.lane ≠ k) → r.1.lane k = s.lane k))) ∧
  ((∀ (c : Ctl) (f : F64) (s : State) (g : Nat) (pc : Word) (G0 : Group) (e : Nat), Performs (.lqry c f) c s g pc G0 →
    let x := ctxAt (.lqry c f) c s g pc G0
    let idx := (x.sreg f.b).toNat
    let peer := e / 2 ^ 232 % 256
    idx < x.hdr.chan → e = Cells.readLE s.mem (x.s.chanAddr x.team idx) 32 → bitAt e 255 = true → bitAt e 254 = false →
    peer ≠ s.boot.cfg.device →
    (bitAt e 253 = false → Traps (.lqry c f) c s g pc G0 0x31 0 0 idx) ∧
    (bitAt e 253 = true → s.isDead peer = true → f.c ≠ 3 → Traps (.lqry c f) c s g pc G0 0x33 0 0 peer) ∧
    (bitAt e 253 = true → s.isDead peer = false ∨ f.c = 3 →
      Answers (.lqry c f) c s g pc G0 (.go (x.s.modGroup g fun G => G.putVar [.s f.d.toNat (BitVec.ofNat 64
        (if f.c = 0 then (s.optics.filter fun o => decide (o.st = .live ∧ o.peer = some peer)).length
         else if f.c = 1 then ((x.team.leases.filter fun l => decide (l.peer = peer)).map fun l => l.lanes.length).sum
         else if f.c = 2 then (s.ten x.ten).lquota - s.leased x.ten
         else if f.c = 3 then (if s.isDead peer then 1 else 0)
         else (s.allotment peer).length))])))) ∧
  (∀ (c : Ctl) (f : F64) (s : State) (g : Nat) (pc : Word) (G0 : Group) (e : Nat), Performs (.lease c f) c s g pc G0 →
    let x := ctxAt (.lease c f) c s g pc G0
    let q := (x.sreg f.c).toNat
    let n := q % 2 ^ 13
    let us := q / 2 ^ 16 % 2 ^ 16
    let idx := (x.sreg f.b).toNat
    let peer := e / 2 ^ 232 % 256
    let valid := 1 ≤ n ∧ n ≤ 4096 ∧ 1 ≤ us ∧ us ≤ 1000 ∧ q / 2 ^ 13 % 8 = 0 ∧ q / 2 ^ 32 = 0
    let cap := if 16 ≤ x.team.leases.length then 0 else min n ((s.ten x.ten).lquota - s.leased x.ten)
    let ls := (x.s.grant peer cap).2
    (¬valid → Traps (.lease c f) c s g pc G0 0x02 0 0 0) ∧
    (valid → idx < x.hdr.chan → e = Cells.readLE s.mem (x.s.chanAddr x.team idx) 32 → bitAt e 255 = true → bitAt e 254 = false →
      peer ≠ s.boot.cfg.device → bitAt e 253 = true → s.isDead peer = false →
      ls.length ≤ cap ∧
      (ls = [] ∨ (f.mod.getLsbD 0 = true ∧ ls.length < n) →
        Answers (.lease c f) c s g pc G0 (.go (x.s.modGroup g fun G => G.putVar [.s f.d.toNat 0#64]))) ∧
      (ls ≠ [] → (f.mod.getLsbD 0 = true → n ≤ ls.length) → ∃ id, 1 ≤ id ∧ id ≤ 65535 ∧ (∀ l ∈ x.team.leases, l.id ≠ id) ∧
        Answers (.lease c f) c s g pc G0 (.out ((x.s.grant peer cap).1.modTeam x.tid fun t => { t with
            leases := t.leases ++ [⟨id, peer, ls, s.clock + us * 1200⟩], nextLease := id % 65535 + 1 })
          (x.oword [.s f.d.toNat] (.lease f.d.toNat id ls.length)))))) ∧
  (∀ (s : State) (peer n : Nat), let r := s.grant peer n
    r.2.length ≤ n ∧ (∀ l ∈ r.2, (r.1.lane l.lane).st = .tuning ∧ (r.1.lane l.lane).peer = some peer ∧ l.since = s.clock)) ∧
  (∀ (c : Ctl) (f : F64) (s : State) (g : Nat) (pc : Word) (G0 : Group), Performs (.lrel c f) c s g pc G0 →
    let x := ctxAt (.lrel c f) c s g pc G0
    let id := (x.sreg f.a).toNat % 2 ^ 16
    Answers (.lrel c f) c s g pc G0 (.go (x.s.endLease x.tid id)) ∧
    ((∀ l ∈ x.team.leases, l.id ≠ id) → Answers (.lrel c f) c s g pc G0 (.go x.s))))

/-- A packet for a bound team lands in its space and is acknowledged, one for an endpoint that is not bound or outside its space is refused,
one that answers a `cget` lands at its place and the last completes the word. The answer to what this device has sent frees it, gives an
engine or Sward the bytes it asked for, enqueues the record of a completed launch, completes a `cget` or `catom`, lets its lanes go on, or
faults it; a refused `csend` or `cput` sets NACK in its channel entry. A peer's read or atomic of an exported window, and its forwarded
accesses, are performed at home and answered. Something sent whose time has passed, and 20 µs without a LIVE lane, set the dead-peer bit and
end the leases towards the peer. A lease ends at its expiry; its word completes with its lanes LIVE; the lane lent longest returns to a peer
whose traffic has been queued for 50 µs; a retuned lane is LIVE after 1.6 µs, FAILED after 50 µs without lock, and is tried again after
100 µs; a flit that was lost is sent again.
(The corners are the model's readings: log 11, 21, 26, 27, 28, 35.) -/
def Obligations.FabricEvents : Prop :=
  (∀ (s : State) (p : PacketIn), p.answers = none →
    let no := exec (.packetArrival p) s = .next (s.emit (.ack p.peer .unbound))
    (16 ≤ p.rten ∨ ((s.ten p.rten).secure = true ∧ p.secure = false) → no) ∧
    (p.rten < 16 → ((s.ten p.rten).secure = true → p.secure = true) →
      (s.boundTeam p.rten p.rep = none → no) ∧
      (∀ tid, s.boundTeam p.rten p.rep = some tid → let len := s.spaceLen (s.team tid)
        (len < p.addr + p.bytes.length ∨ (∃ k, p.ctr = some k ∧ len < k + 16) → no) ∧
        (∀ s' u, p.addr + p.bytes.length ≤ len → (∀ k, p.ctr = some k → k + 16 ≤ len) →
          s.bring (s.portCore (s.team tid) p.addr) tid (pagesOf p.addr p.bytes.length ++ (match p.ctr with | some k => pagesOf k 16 | none => [])) = .ok s' u →
          exec (.packetArrival p) s = .next (((s'.spWriteFull tid p.addr p.bytes).addCount tid p.ctr p.bytes.length).emit
            (.ack p.peer (.done 0#64))))))) ∧
  (∀ (s s' : State) (p : PacketIn) (id addr len left : Nat) (ctr : Option Nat) (q : Sent) (o : OWord) (u : Unit), p.answers = some id →
    s.sent.find? (fun y => y.id == id && y.kind == .get && !y.lost) = some q → s.word? q.g q.word = some o →
    o.kind = .cget addr len left ctr → o.held = [] → p.bytes ≠ [] → p.addr + p.bytes.length ≤ len →
    s.bring (s.portCore (s.team q.team) (addr + p.addr)) q.team (pagesOf (addr + p.addr) p.bytes.length ++ (match ctr with | some k => pagesOf k 16 | none => [])) = .ok s' u →
    let landed := (s'.spWriteFull q.team (addr + p.addr) p.bytes).addCount q.team ctr p.bytes.length
    (p.bytes.length = left → exec (.packetArrival p) s = .next (landed.complete q.g o [])) ∧
    (p.bytes.length < left → exec (.packetArrival p) s = .next (landed.modGroup q.g fun G => { G with
      outst := G.outst.map fun y => if y.id == o.id then { y with kind := .cget addr len (left - p.bytes.length) ctr } else y }))) ∧
  (∀ (s : State) (id : Nat) (q : Sent) (v : Word),
    s.sent.find? (fun y => y.id == id && !y.lost && !y.refused && y.got.isNone) = some q →
    let gone : State := { s with sent := s.sent.filter fun y => y.id != id }
    (q.kind = .send ∨ q.kind = .put ∨ q.kind = .fwdStore ∨ q.kind = .purge ∨ q.kind = .engStore ∨ q.kind = .swStore →
      exec (.packetAck id (.done v)) s = .next gone) ∧
    (∀ bs, q.kind = .engLoad ∨ q.kind = .swLoad → bs.length = q.bytes → exec (.packetAck id (.data bs)) s =
      .next { s with sent := s.sent.map fun y => if y.id == id then { y with got := some bs } else y }) ∧
    (q.kind = .join → exec (.packetAck id (.done v)) s =
      .next (if v = 0#64 then gone else gone.joinEnqueue (s.launch q.word).ten v.toNat q.team none)) ∧
    (q.kind = .send ∨ q.kind = .put → Cells.wf s.mem = true → ∃ t, exec (.packetAck id .unbound) s = .next t ∧ t.groups = s.groups ∧
      t.sent = (s.sent.map fun y => if y.id == id then { y with refused := true } else y) ∧
      (Cells.read t.mem (q.entry + 31)).getLsbD 6 = true ∧ ∀ b, b ≠ q.entry + 31 → Cells.read t.mem b = Cells.read s.mem b) ∧
    (∀ o, s.word? q.g q.word = some o →
      let fault := fun (s : State) (code info : Nat) => (Host.Outcome.next ((s.takeBack q.g o).groupFault q.g
        ⟨code, 0, o.held.headD 0, info, o.pc, 0, false, o.held, o.next, false, 0⟩) : Host.Outcome State Machine.Fault Refusal)
      (∀ ret d ty, q.kind = .atom → o.kind = .catom ret d ty →
        (exec (.packetAck id (.done v)) s = .next (gone.complete q.g o
          (if ret then [.s d (if ty = 0 then (v.setWidth 32).signExtend 64 else if ty = 1 then (v.setWidth 32).setWidth 64 else v)] else []))) ∧
        (o.held ≠ [] →
          (∀ a : AckIn, (a = .translated ∧ o.unOnly = false) ∨ (a = .unordered ∧ (o.unOnly = true ∨ (o.acq = 0 ∧ o.rel = 0))) →
            (ret = true ∨ o.acq ≠ 0 → exec (.packetAck id a) s = .next (s.modGroup q.g fun G => G.passOn o)) ∧
            (ret = false → o.acq = 0 → exec (.packetAck id a) s = .next (s.complete q.g o []))) ∧
          (o.unOnly = true → exec (.packetAck id .translated) s = .next s) ∧
          (o.unOnly = false → o.acq ≠ 0 ∨ o.rel ≠ 0 → exec (.packetAck id .unordered) s = .next s) ∧
          exec (.packetAck id .readOnly) s = fault gone 0x16 0)) ∧
      (∀ a len left ctr, q.kind = .get → o.kind = .cget a len left ctr →
        (o.held = [] → exec (.packetAck id (.done v)) s = .next gone) ∧
        (o.held ≠ [] → exec (.packetAck id .translated) s = .next (s.modGroup q.g fun G => G.passOn o))) ∧
      (q.kind = .get ∨ q.kind = .atom →
        (o.held ≠ [] → exec (.packetAck id .refused) s = fault gone 0x31 q.chan) ∧
        exec (.packetAck id .unbound) s = fault (gone.setNack q.entry) 0x30 q.chan))) ∧
  (∀ (s : State) (r : FabricReq),
    let no := fun (a : AckIn) => ∃ t, exec (.fabricRequestArrival r) s = .next t ∧ t.mem = s.mem ∧ t.groups = s.groups ∧ t.teams = s.teams ∧
      t.outbox = s.outbox ++ [.ack r.peer a]
    (16 ≤ r.rten ∨ ((s.ten r.rten).secure = true ∧ r.secure = false) ∨ s.boundTeam r.rten r.rep = none → no .unbound) ∧
    (∀ (w : EndWin) (n : Nat), r.op = .read n → Asks s r w n → let ps := linePieces (w.base + r.off) n
      let s1 := lookedUp s r.rten (w.base + r.off) n
      (∀ pre p post code, ps = pre ++ p :: post → (∀ y ∈ pre, ∃ l, Exported s1 r .load y.1 l) → exported s1 r .load p.1 = .fault code →
        no (if code = 0x16 then .readOnly else .refused)) ∧
      (∀ ls : List XLine, ls.length = ps.length → (∀ y ∈ ps.zip ls, Exported s1 r .load y.1.1 y.2) →
        ∃ t, exec (.fabricRequestArrival r) s = .next t ∧ t.mem = s.mem ∧ t.groups = s.groups ∧ t.teams = s.teams ∧
          t.outbox = s.outbox ++ [.ack r.peer .translated,
            .ack r.peer (.data ((ps.zip ls).flatMap fun y => Cells.readN s.mem y.2.pa y.1.2)), .ack r.peer (.done 0#64)])) ∧
    (∀ (w : EndWin) (op ty code : Nat) (y b : Word), r.op = .atom op ty y b → let n := if 2 ≤ ty then 8 else 4
      Asks s r w n → exported (lookedUp s r.rten (w.base + r.off) n) r (.atomic true) (w.base + r.off) = .fault code → no (if code = 0x16 then .readOnly else .refused)) ∧
    (∀ (w : EndWin) (l : XLine) (op ty : Nat) (y b : Word), r.op = .atom op ty y b → let n := if 2 ≤ ty then 8 else 4
      Asks s r w n → Exported (lookedUp s r.rten (w.base + r.off) n) r (.atomic true) (w.base + r.off) l → let old := Cells.readLE s.mem l.pa n
      ∃ t, exec (.fabricRequestArrival r) s = .next t ∧ t.groups = s.groups ∧ t.teams = s.teams ∧
        t.mem = Cells.writeN s.mem l.pa (natToBytes n (atomNew op ty old y.toNat b.toNat)) ∧
        t.outbox = s.outbox ++ [.ack r.peer (if l.kind = .un then .unordered else .translated), .ack r.peer (.done (BitVec.ofNat 64 old))])) ∧
  (∀ (s : State) (a : FwdAccess),
    let answers := fun (mem : List Host.Cell) (r : AckIn) => ∃ t, exec (.forwardedAccessArrival a) s = .next t ∧ t.mem = mem ∧
      t.outbox = s.outbox ++ [.ack a.peer r] ∧ t.groups = s.groups ∧ t.teams = s.teams
    let barred := (a.secure = false ∧ s.inSecure a.pa (remoteSize a.op) = true) ∨ (a.op = .join ∧ s.poisoned a.pa = true)
    (barred → answers s.mem .refused) ∧
    (¬barred →
      (∀ n, a.op = .read n → answers s.mem (.data (Cells.readN s.mem a.pa n))) ∧
      (∀ bs, a.op = .write bs → answers (Cells.writeN s.mem a.pa bs) (.done 0#64)) ∧
      (∀ m bs, a.op = .writeMasked m bs → m.length = bs.length → answers (Cells.writeN s.mem a.pa
        (((Cells.readN s.mem a.pa bs.length).zip (m.zip bs)).map fun x => (x.1 &&& ~~~x.2.1) ||| (x.2.2 &&& x.2.1))) (.done 0#64)) ∧
      (∀ op ty (y b : Word), a.op = .atom op ty y b → let n := if 2 ≤ ty then 8 else 4
        answers (Cells.writeN s.mem a.pa (natToBytes n (atomNew op ty (Cells.readLE s.mem a.pa n) y.toNat b.toNat)))
          (.data (natToBytes n (Cells.readLE s.mem a.pa n)))) ∧
      (a.op = .join → let mem := Cells.writeN s.mem a.pa (natToBytes 4 (Cells.readLE s.mem a.pa 4 - 1))
        answers mem (.data (natToBytes 8 (Cells.readLE s.mem a.pa 4) ++ Cells.readN mem (a.pa + 8) 8))))) ∧
  (∀ (s : State) (id : Nat) (q : Sent),
    s.sent.find? (fun y => y.id == id && !y.lost && !y.refused && y.got.isNone && y.timeout ≤ s.clock) = some q →
    exec (.sourceTimeout id) s = .next (s.killPeer q.peer)) ∧
  (∀ (s : State) (peer since : Nat), (s.peerUse peer).darkSince = some since → since + 20 * 1200 ≤ s.clock → s.liveTo peer = [] →
    exec (.fecLockLossTimeout peer) s = .next ((s.modPeer peer fun p => { p with darkSince := none }).killPeer peer)) ∧
  (∀ (s : State) (peer : Nat), peer < 256 → s.deadpeer.length = 4 → let t := s.killPeer peer
    (t.deadpeer.getD (peer / 64) 0#64).getLsbD (peer % 64) = true ∧ ∀ T ∈ t.teams, ∀ l ∈ T.leases, l.peer ≠ peer) ∧
  (∀ (s : State) (tid id d n g : Nat) (o : OWord), s.leaseLive tid id = true → s.leaseWord tid id = some (g, o, d, n) →
    exec (.leaseLanesLive tid id) s = .next (s.complete g o [.s d (BitVec.ofNat 64 (n + id * 2 ^ 32))])) ∧
  (∀ (s : State) (tid id : Nat) (l : Lease), (s.team tid).leases.find? (fun l => l.id == id) = some l → l.expiry ≤ s.clock →
    exec (.leaseExpiry tid id) s = .next (s.endLease tid id)) ∧
  (∀ (s : State) (peer : Nat) (x : LeaseLane), let p := s.peerUse peer
    let due := (p.lastReclaim = none ∨ ∃ t, p.lastReclaim = some t ∧ t < p.queuedSince) ∧ p.queuedSince + 50 * 1200 ≤ s.clock ∧
      (∀ y ∈ s.leaseLanes, y.donor = some peer → y.since + 50 * 1200 ≤ s.clock) ∧ ((s.allotment peer).filter fun l => !(s.leasedLane l)).length ≤ 2
    let again := ∃ t, p.lastReclaim = some t ∧ p.queuedSince ≤ t ∧ t + 50 * 1200 ≤ s.clock
    s.clock < p.freeAt → due ∨ again → s.longestLent peer = some x →
    exec (.laneReclaim peer) s = .next ((s.reclaim x).modPeer peer fun p => { p with lastReclaim := some s.clock })) ∧
  (∀ (s : State) (lane : Nat), let o := s.lane lane
    let becomes := fun (i : Instr) (o' : OLane) (lost : List (Nat × Nat)) => ∃ t, exec i s = .next t ∧ t.lane lane = o' ∧
      (∀ k, k ≠ lane → t.lane k = s.lane k) ∧ t.flits = s.flits ++ lost ∧ t.mem = s.mem ∧ t.groups = s.groups ∧ t.teams = s.teams
    let live : OLane := { o with st := if o.peer = none then .dark else .live, since := s.clock, flit := none }
    let failed : OLane := { o with st := .failed, since := s.clock, flit := none }
    (o.st = .tuning → o.since + 1920 ≤ s.clock → becomes (.laneRetuneDone lane) live []) ∧
    (o.st = .tuning → o.since + 50 * 1200 ≤ s.clock → becomes (.tuningTimeout lane) failed []) ∧
    (o.st = .failed → o.since + 100 * 1200 ≤ s.clock →
      becomes (.laneRelockAttempt lane true) live [] ∧ becomes (.laneRelockAttempt lane false) { o with since := s.clock } []) ∧
    (o.st = .live → becomes (.laneLossOfLock lane) failed ((s.flitOf lane).2.toList.map fun p => (lane, p))) ∧
    (∀ p, o.st ≠ .live → (s.flitOf lane).2 = some p → becomes (.laneLossOfLock lane)
      (if o.st = .tuning then failed else { o with since := s.clock, flit := none }) [(lane, p)])) ∧
  (∀ (s : State) (tid a n : Nat), (∀ k < 8, (s.frameOf tid ((a + k) / 4096)).isSome = true) →
    (∀ co ∈ s.cores, ∀ fr ∈ co.frames, Cells.wf fr.data = true) → let t := s.addCount tid (some a) n
    t.groups = s.groups ∧ t.spReadLE tid a 8 = (s.spReadLE tid a 8 + n) % 2 ^ 64 ∧
    ∀ b, b < a ∨ a + 8 ≤ b → t.spRead1 tid b = s.spRead1 tid b) ∧
  (∀ (s : State) (k : Nat),
    (∀ lane p, s.flits[k]? = some (lane, p) → s.liveTo p ≠ [] →
      exec (.flitRetransmit k) s = .next (({ s with flits := s.flits.eraseIdx k } : State).queueTo p 256)) ∧
    (∀ q, s.flits.length ≤ k → s.sent[k - s.flits.length]? = some q → q.lost = false → q.refused = false → s.liveTo q.peer ≠ [] →
      exec (.flitRetransmit k) s = .next (s.queueTo q.peer 256)))

/-! ## Sward, the fault window and the host's registers (18 R380, 19 R397-R410, 21 R446) -/

/-- A cluster takes a team on its CORES coolest cores that have room, and of the clusters the one whose cores have the largest sum of ALLOW.
A team that starts takes the lowest free context slot and stands on the cores given: its groups have no word under way, every lane is active
at CODE with no meeting address, s0 holds FRAME and every other scalar and record register 0; the groups there were keep their registers and
lanes. A team that resumes stands on the cores given, at once running, with empty L1s; one of whose context a line is refused is lost to an
uncontained fault instead. The `joinc` that ends a launch decrements the word on JOIN, and hands its record to Sward when it was 1; on a
peer's page it is forwarded, and one that fails leaves a NOTE.
(A refused context is the model's choice: log 25.)
A record submitted to a tenancy that is not enabled is rejected with status 0x10, one from outside to a secure tenancy is dropped, one that
passes every check is queued in its band, in memory too. A window write, a datagram and the MC's port submit 64 bytes; a decision starts or
resumes what it placed; a band's record that does not fit, a waiting team of a parallel launch after 100 µs, and a core that has run hot take
running teams out, which stop, and once its groups have drained a team is saved, one that went for heat to resume at once. A launch that is
over has its completion record written, STAT after the other bytes are acknowledged, then its join, then its reply, and is complete. The host
answers a fault record, and reads and writes control registers; an access that names no register, or is refused, is counted.
(The corners are the model's readings: log 8, 20, 29, 30.) -/
def Obligations.SwardEvents : Prop :=
  ((∀ (s : State) (cl : Nat) (h : Header) (iqs : Nat) (ign extra cs : List Nat), s.coresFor cl h iqs ign extra = some cs →
    let fits := fun (k : Nat) => let n := extra.count k + 1
      (s.core k).floor ≤ (s.core k).allow ∧ (s.coreUse ign k).1 + n * h.acc ≤ 64 ∧ (s.coreUse ign k).2 + n * iqs ≤ 16 ∧
      ∀ q < 4, s.quarterUse ign k q + n * h.onQuarter q ≤ 1024
    cs.length = h.cores ∧ cs.Nodup ∧ ∀ k ∈ cs, clusterOf k = cl ∧ fits k ∧
      ∀ k', clusterOf k' = cl → fits k' → k' ∉ cs → (s.core k').allow ≤ (s.core k).allow) ∧
  (∀ (s : State) (cls : List Nat) (h : Header) (iqs : Nat) (ign extra : List Nat),
    let sum := fun (cs : List Nat) => (cs.map fun k => (s.core k).allow.toNat).sum
    (∀ c cs, s.bestCluster cls h iqs ign extra = some (c, cs) → c ∈ cls ∧ s.coresFor c h iqs ign extra = some cs ∧
      ∀ c' ∈ cls, ∀ cs', s.coresFor c' h iqs ign extra = some cs' → sum cs' ≤ sum cs) ∧
    (s.bestCluster cls h iqs ign extra = none → ∀ c ∈ cls, s.coresFor c h iqs ign extra = none)) ∧
  (∀ (s : State) (l cl : Nat) (cores : List Nat), l < s.launches.length → let L := s.launch l
    let h := L.hdr
    let tid := s.teams.length
    let k := h.teamSz / max h.gw 1
    let n := max (h.teamSz / max h.gw 1 / max h.cores 1) 1
    let t := s.startTeam l cl cores
    (t.launch l).started = L.started ++ [tid] ∧ (t.launch l).tstart = (if L.started = [] then s.clock else L.tstart) ∧
    (∃ T, t.teams[tid]? = some T ∧ T.launch = l ∧ T.idx = L.started.length ∧ T.ten = L.ten ∧ T.life = .running ∧ T.cluster = cl ∧
      T.cores = cores ∧ T.groups = (List.range k).map (s.groups.length + ·) ∧ T.leases = [] ∧ T.startAt = s.clock ∧
      (∀ q ∈ T.queues, q.pending = [] ∧ q.accepted = 0 ∧ q.halted = false) ∧ (∀ b ∈ T.bars, b.count = 0 ∧ b.target = 0) ∧
      ((∃ i < (s.ten L.ten).nslot, i ∉ s.slotsUsed L.ten) → T.slot < (s.ten L.ten).nslot ∧ T.slot ∉ s.slotsUsed L.ten ∧
        ∀ i < T.slot, i ∈ s.slotsUsed L.ten)) ∧
    (∀ i < k, ∃ G, t.groups[s.groups.length + i]? = some G ∧ G.team = tid ∧ G.gidx = i ∧ G.gw = h.gw ∧ G.core = cores.getD (i / n) 0 ∧
      G.quarter = i % n % 4 ∧ G.levelS = L.crec.slvl ∧ G.stage = .running ∧ G.outst = [] ∧ G.faults = [] ∧
      G.lanes = List.replicate h.gw ⟨BitVec.ofNat 64 L.crec.code, BitVec.allOnes 64, 0#7, .active, 0⟩ ∧
      G.s = BitVec.ofNat 64 L.crec.frame :: List.replicate 63 0#64 ∧ G.b = List.replicate 16 0#256) ∧
    (∀ (i : Nat) (G : Group), s.groups[i]? = some G → ∃ H, t.groups[i]? = some H ∧ SameRegisters G H ∧ H.lanes = G.lanes ∧ H.outst = G.outst ∧
      H.stage = G.stage)) ∧
  (∀ (s : State) (tid cl : Nat) (cores : List Nat), let T := s.team tid
    let n := max (s.hdrOf T).perCore 1
    let t := s.resumeTeam tid cl cores
    ((∃ r ∈ s.contextBytes tid, s.listed r.1 r.2 = true) → t = s.uncontain T.ten 0x60 (decide (8 ≤ cl))) ∧
    (tid < s.teams.length → (∀ d ∈ s.dies, d.poison = [] ∧ d.faulty = []) → (∀ c ∈ s.cores, ∀ f ∈ c.frames, f.bad = []) →
      (t.team tid).life = .running ∧ (t.team tid).cluster = cl ∧ (t.team tid).cores = cores ∧ (t.team tid).masked = false ∧
      (t.team tid).hot = false ∧ (t.team tid).startAt = s.clock ∧ (t.team tid).launch = T.launch ∧ (t.team tid).idx = T.idx ∧
      (t.team tid).slot = T.slot ∧ (t.team tid).groups = T.groups ∧ (t.team tid).leases = T.leases ∧
      (∀ c ∈ cores, (t.core c).l1 = [] ∧ (t.core c).asm = []) ∧
      ∀ g ∈ T.groups, g < s.groups.length → (t.group g).core = cores.getD ((s.group g).gidx / n) 0 ∧ (t.group g).quarter = (s.group g).gidx % n % 4)) ∧
  (∀ (s : State) (n : Nat), let L := s.launch n
    let found := s.swLine L.ten (launchWho n) L.crec.join true (.atomic false)
    let t := s.finalJoin n
    let ended := fun (s : State) => s.modLaunch n fun x => { x with phase := 4 }
    (∀ s1, found = .error (.wait s1) → t = s1) ∧
    (∀ s1 code va, found = .error (.fault s1 code va) → t = ended (s1.note L.ten code 1 va 0 L.crva 0)) ∧
    (∀ x s1, found = .ok (x, s1) → n < s.launches.length → (t.launch n).phase = 4 ∧ t.groups = s.groups ∧
      (∀ p, x.own = .peer p → t.mem = s.mem ∧ ∃ q, t.sent = s.sent ++ [q] ∧ q.kind = .join ∧ q.g = launchWho n ∧ q.word = n ∧ q.peer = p) ∧
      (x.own = .here → Cells.wf s.mem = true → L.ten < s.tens.length → let old := Cells.readLE s.mem x.pa 4
        t.sent = s.sent ∧ Cells.readLE t.mem x.pa 4 = old - 1 ∧ (∀ b, b < x.pa ∨ x.pa + 4 ≤ b → Cells.read t.mem b = Cells.read s.mem b) ∧
        (t.ten L.ten).joinWait = (s.ten L.ten).joinWait ++
          (if old = 1 then [⟨Cells.readLE s.mem (x.pa + 8) 8, L.started.headD 0, none, none, none⟩] else []))))) ∧
  ((∀ (s : State) (ten : Nat) (bs : List Byte) (va : Nat) (origin : Origin) (al : Bool),
    let barred := (s.ten ten).secure = true ∧ (origin = .window ∨ ∃ src port head reply, origin = .datagram src port head reply)
    (barred → s.submit ten bs va origin al = .dropped s) ∧
    (¬barred → (s.ten ten).en = false ∨ (s.ten ten).froz = true → ∃ t, s.submit ten bs va origin al = .done t ∧ t = { s with launches := t.launches } ∧
      ∃ l, t.launches = s.launches ++ [l] ∧ l.ten = ten ∧ l.abort = some (0x10, 0) ∧ l.completed = false) ∧
    (∀ h s1, ¬barred → (s.ten ten).en = true → (s.ten ten).froz = false → (parseRec bs).ok = true → (s.ten ten).bandMask ≠ 0 → al = true →
      ((parseRec bs).slvl = true → (s.ten ten).slnch = true) → s.readHeader ten (parseRec bs) = (some h, s1) → h.ok (parseRec bs).prog = true →
      (h.chan = 0 ∨ (parseRec bs).chtix + (parseRec bs).teams ≤ (s.ten ten).chtn) → s.shapeOk ten (parseRec bs) h = true →
      let band := clampBand (s.ten ten).bandMask (parseRec bs).band
      let queue := (s.ten ten).bands.getD band []
      queue.length < 1024 → ten < s.tens.length → band < (s.ten ten).bands.length → Cells.wf s.mem = true →
      ∃ t l, s.submit ten bs va origin al = .done t ∧ t.launches = s.launches ++ [l] ∧ l.ten = ten ∧ l.crec = parseRec bs ∧ l.hdr = h ∧
        l.band = band ∧ l.started = [] ∧ l.abort = none ∧ l.completed = false ∧ t.groups = s.groups ∧ t.teams = s.teams ∧
        (t.ten ten).bands.getD band [] = queue ++ [s.launches.length] ∧
        Cells.readN t.mem ((s.ten ten).ctxbase + 0x1000 + 0x10000 * band + 64 * queue.length) 64 = (parseRec bs).bytes)) ∧
  (∀ (s s' : State) (page off ten : Nat) (bytes : List Byte), s.boot.hold = false → s.windowOwner page = some ten → bytes.length = 64 → off % 64 = 0 →
    (s.submit ten bytes 0 .window true = .done s' → exec (.launchWindowWrite page off bytes) s = .next s') ∧
    (s.submit ten bytes 0 .window true = .dropped s' → exec (.launchWindowWrite page off bytes) s =
      .next (s'.modTen ten fun t => { t with winDropped := t.winDropped + 1#64 }))) ∧
  (∀ (s s' : State) (ten : Nat) (bytes : List Byte), ten < 16 → bytes.length = 64 → s.submit ten bytes 0 .mc true = .done s' →
    exec (.mcSubmit ten bytes) s = .next s') ∧
  (∀ (s s' : State) (d : Datagram) (b : PortBind), s.ports.getD d.port false = true → d.payload.length = 72 → d.checksumOk = true →
    d.payload.take 2 = [0x57#8, 0x53#8] → ((d.payload.getD 2 0#8).toNat % 128 = 1) →
    s.boot.cfg.ports.find? (fun b => b.dstPort == d.dstPort && b.srcAddr == d.srcAddr) = some b → (d.payload.getD 3 0#8).toNat = b.ten →
    let sub := s.submit b.ten (d.payload.drop 8) 0 (.datagram d.srcAddr d.srcPort (d.payload.take 8) ((d.payload.getD 2 0#8).getLsbD 7)) true
    sub = .done s' ∨ sub = .dropped s' → exec (.launchDatagram d) s = .next s') ∧
  (∀ (s : State) (l cl : Nat) (cs : List Nat) (it : Option Nat) (its : List (Option Nat × Nat × List Nat)), s.boot.step = 7 →
    s.decision = some (l, (it, cl, cs) :: its) → exec (.admissionDecision cl) s = .next (((it, cl, cs) :: its).foldl (fun (s : State) y =>
      match y.1 with | some t => s.resumeTeam t y.2.1 y.2.2 | none => s.startTeam l y.2.1 y.2.2) s)) ∧
  (∀ (s : State) (ten band l : Nat) (picks : List (Nat × Nat)) (vs : List Nat), ((s.bandLaunches ten band).find? fun l => !(s.waiting l).isEmpty) = some l →
    let leaving := (List.range s.teams.length).filter fun i => (s.team i).life == .stopping
    let items := if (s.launch l).crec.prog == 0 then s.waiting l else (s.waiting l).take 1
    s.slotsFor ten items = true → s.plan l leaving items = none →
    (s.modLaunch l fun x => { x with picks := [] }).pickVictims l leaving items (s.launch l).started.length [] [] [] = some (picks, vs) → vs ≠ [] →
    exec (.preemptBand ten band) s = .next ((s.modLaunch l fun x => { x with picks := picks }).preempt vs false)) ∧
  (∀ (s : State) (tid : Nat) (its : List (Option Nat × Nat × List Nat)), let t := s.team tid
    let L := s.launch t.launch
    let leaving := (List.range s.teams.length).filter fun i => (s.team i).life == .stopping
    let places := fun (gone : List Nat) => s.placeable t.launch gone (s.waiting t.launch) L.started.length []
    let new := ((places (tid :: leaving)).filter fun i => i.1.isNone).map (·.2.1)
    t.life = .running → L.crec.prog = 1 → t.startAt + 100 * 1200 ≤ s.clock → (places leaving).length < (places (tid :: leaving)).length →
    s.firstTry (tid :: leaving) (s.bandLaunches t.ten (s.effBand L)) = some (t.launch, its) →
    exec (.preemptProgress tid) s = .next (((s.modLaunch t.launch fun x => { x with
        picks := new.zipIdx.map fun c => (L.started.length + c.2, c.1) }).modTeam tid fun t => { t with
        barred := (s.savedTeams t.launch).map fun i => (s.team i).idx, barAll := decide (L.started.length < L.crec.teams) }).preempt [tid] false)) ∧
  (∀ (s : State) (core : Nat), let vs := (List.range s.teams.length).filter fun i => (s.team i).life == .running && (s.team i).cores.contains core
    2 ≤ (s.core core).lowSamples → vs ≠ [] → (∀ m, (s.core core).lastMove = some m → m + 100 * 1200 ≤ s.clock) →
    exec (.preemptThermal core) s = .next ((s.modCore core fun c => { c with lastMove := some s.clock }).preempt vs true)) ∧
  (∀ (s : State) (vs : List Nat) (hot : Bool), ∀ i ∈ vs, (s.team i).life = .running → (s.launch (s.team i).launch).crec.prog ≠ 0 →
    ((s.preempt vs hot).team i).life = .stopping ∧ ((s.preempt vs hot).team i).hot = hot) ∧
  (∀ (s : State) (tid : Nat), (s.team tid).life = .stopping → let l := (s.team tid).launch
    let ts := (List.range s.teams.length).filter fun i => (s.team i).life == .stopping && (i == tid || ((s.team i).launch == l && (s.launch l).crec.prog == 0))
    (∀ i ∈ ts, ∀ g ∈ (s.team i).groups, (s.group g).stage = .retired ∨ (s.group g).stage = .awaiting ∨ (s.group g).stage = .saved ∨
      ((s.group g).stage = .running ∧ (s.group g).paid = none ∧ s.drained g = true)) →
    let t := ts.foldl (fun (s : State) i => s.saveTeam i) s
    exec (.teamSaved tid) s = .next (ts.foldl (fun (s : State) i => s.resumeHot i) t) ∧
    (∀ i ∈ ts, (t.team i).life = .saved ∧ ∀ c ∈ t.cores, ∀ o ∈ c.tileOwner, o.2 ≠ i) ∧
    ∀ i ∈ ts, (s.team i).hot = false → t.resumeHot i = t) ∧
  (∀ (s : State) (n : Nat), exec (.launchCompletion n) s =
    .next ((((((s.completeStep n).completeStep n).completeStep n).completeStep n).completeStep n))) ∧
  (∀ (s : State) (n status fcode : Nat) (l : XLine), let L := s.launch n
    let who := launchWho n
    let t := s.completeStep n
    let own := fun (s : State) => (∃ s1, s.swLine L.ten who L.crec.cmpl true .store = .ok (l, s1)) ∧ l.own = .here ∧ Cells.wf s.mem = true
    let found : State := s.modLaunch n fun x => { x with final := (status, fcode), tend := s.clock, written := x.crec.cmpl != 0 }
    let goes := fun (s : State) (k : Nat) => t = s.modLaunch n fun x => { x with phase := k }
    let asked := fun (q : Sent) => q.kind = .swStore ∧ q.g = who
    n < s.launches.length → L.completed = false →
    (L.phase = 0 → s.launchOver n = some (status, fcode) → (L.crec.cmpl = 0 → goes found 3) ∧
      (L.crec.cmpl ≠ 0 → own found → (t.launch n).phase = 1 ∧ (t.launch n).final = (status, fcode) ∧
        Cells.readLE t.mem (l.pa + 8) 4 = L.tfin % 2 ^ 32 ∧ Cells.readLE t.mem (l.pa + 12) 4 = 0 ∧
        Cells.readLE t.mem (l.pa + 16) 8 = L.tstart % 2 ^ 64 ∧ Cells.readLE t.mem (l.pa + 24) 8 = s.clock % 2 ^ 64 ∧
        (∀ b, (b < l.pa + 8 ∨ l.pa + 32 ≤ b) → Cells.read t.mem b = Cells.read s.mem b))) ∧
    (L.phase = 1 ∨ L.phase = 2 → (∃ q ∈ s.sent, asked q) → (∀ q ∈ s.sent, asked q → q.lost = false) → t = s) ∧
    ((∀ q ∈ s.sent, ¬asked q) →
      (L.phase = 1 → own s → (t.launch n).phase = 2 ∧ Cells.readLE t.mem l.pa 8 = (2 ^ 63 + L.final.1 * 2 ^ 32 + L.final.2) % 2 ^ 64 ∧
        (∀ b, (b < l.pa ∨ l.pa + 8 ≤ b) → Cells.read t.mem b = Cells.read s.mem b)) ∧
      (L.phase = 2 → goes s 3)) ∧
    (L.phase = 3 → (L.final.1 = 1 → L.crec.join ≠ 0 → t = s.finalJoin n) ∧ (L.final.1 ≠ 1 ∨ L.crec.join = 0 → goes s 4)) ∧
    (L.phase = 4 → (∃ q ∈ s.sent, q.kind = .join ∧ q.g = who) → t = s) ∧
    (L.phase = 4 → (∀ q ∈ s.sent, ¬(q.kind = .join ∧ q.g = who)) → (t.launch n).completed = true ∧ t.mem = s.mem ∧
      (L.origin = .window → 0x10 ≤ L.final.1 → L.final.1 ≤ 0x15 → t = (s.modTen L.ten fun T => if L.written then
        { T with winAccepted := T.winAccepted + 1#64 } else { T with winDropped := T.winDropped + 1#64 }).modLaunch n fun x =>
          { x with completed := true, picks := [] }) ∧
      (∀ src port head, L.origin = .datagram src port head true → t.outbox = s.outbox ++ [.reply src port (head ++ L.cmplRecord)]) ∧
      (L.origin = .mc ∨ L.origin = .spawn ∨ L.origin = .join → t = s.modLaunch n fun x => { x with completed := true, picks := [] }))) ∧
  (∀ (s : State) (ten seq action : Nat), ten < 16 → seq < 2 ^ 64 → action < 2 ^ 64 →
    let found := 0 < seq ∧ action ≤ 2 ∧ s.poisoned (s.fqSlot ten seq) = false ∧ Cells.readLE s.mem (s.fqSlot ten seq) 8 = seq
    let write := exec (.faultAnswerWrite ten 0 (natToBytes 8 seq ++ natToBytes 8 action)) s
    (found → write = .next (s.answer ten seq action)) ∧
    (¬found → write = .next (s.modTen ten fun t => { t with fqDropped := t.fqDropped + 1#64 }))) ∧
  (∀ (s : State) (who : Agent) (r : Csr) (v : Word), let w := s.csrWrite (match who with | .mc => .m | .host => .s) v r
    (∀ t, w = .done t → s.outerWrite who r v = t) ∧ (w = .priv → s.outerWrite who r v = s.violation) ∧
    (w = .refused → s.outerWrite who r v = if r = .srcto then s else s.violation) ∧
    s.violation = { s with csrviol := if s.csrviol = BitVec.allOnes 32 then s.csrviol else s.csrviol + 1#32 }) ∧
  (∀ (s : State) (lv : Level) (t w : Nat) (v : Word), t < s.tens.length → let T := s.ten t
    let old := T.cfg.getD w 0#64
    lv = .m ∨ (T.secure = false ∧ (w = 0 → old.getLsbD 62 = v.getLsbD 62)) → T.en = false → (w = 0 → v.getLsbD 63 = false) →
    ∃ s', s.csrWrite lv v (.tncfg t w) = .done s' ∧ s'.mem = s.mem ∧ s'.groups = s.groups ∧ (∀ k, k ≠ w → (s'.ten t).cfg[k]? = T.cfg[k]?) ∧
      (w < T.cfg.length → ∀ i < 64, ((s'.ten t).cfg.getD w 0#64).getLsbD i =
        if w = 0 ∧ i = 60 then old.getLsbD i && !v.getLsbD i else (tncfgMask w).testBit i && v.getLsbD i)) ∧
  (∀ (s : State) (who : Agent) (off : Nat) (v : Word),
    (∀ r, off % 8 = 0 → csrOf (off / 8) = some r → exec (.csrWrite who off 8 v) s = .next (s.outerWrite who r v) ∧
      exec (.csrHostRead off 8) s = .next (s.emit (.hostReturn (s.csrRead false r)))) ∧
    (∀ size, size ≠ 8 ∨ off % 8 ≠ 0 ∨ csrOf (off / 8) = none → exec (.csrWrite who off size v) s = .next s.violation ∧
      exec (.csrHostRead off size) s = .next (s.violation.emit (.hostReturn (BitVec.allOnes 64)))) ∧
    (∀ k, s.outerWrite who (.tnstat k) v = s.violation) ∧
    (∀ t < 16, ∀ w < 16, exec (.tncfgWrite who t w v) s = .next (s.outerWrite who (.tncfg t w) v)) ∧
    (∀ k < 4, ∃ t, exec (.deadpeerClear who k v) s = .next t ∧ t.deadpeer = modAt s.deadpeer k fun d => d &&& ~~~v)))

/-! ## Errors, translation, and memory (20 R418-R429, 21 R452-R455, 22 R457-R463) -/

namespace Sys2Proof

/-- `a` is served before `b`: the controller's own first, then a tenancy with a weight, then the lower tag, then the lower tenancy (22
R463). -/
def servedFirst (a b : Burst) : Prop :=
  (a.mc = true ∧ b.mc = false) ∨ (a.mc = false ∧ b.mc = false ∧ ((a.zero = false ∧ b.zero = true) ∨ (a.zero = b.zero ∧
    (a.num * b.den < b.num * a.den ∨ (a.num * b.den = b.num * a.den ∧ a.ten < b.ten)))))

/-- No access of a group is open, and none that has been forwarded to a peer. -/
def NothingOpen (s : State) : Prop :=
  (∀ G ∈ s.groups, ∀ o ∈ G.outst, o.isLoad = false ∧ o.isStore = false) ∧
  ∀ q ∈ s.sent, q.kind = .fwdLoad ∨ q.kind = .fwdStore ∨ q.kind = .join ∨ q.kind = .engLoad ∨ q.kind = .engStore ∨ q.kind = .swLoad ∨
    q.kind = .swStore → q.lost = true ∨ q.got ≠ none

end Sys2Proof

/-- An uncontained fault freezes its tenancy: none of its teams is live or has commands to carry out, the groups of those that were have
retired and hold nothing, its band queues are empty, no record of it waits for an answer, each of its launches that is not complete is
aborted with status 0x20 and the code unless something had aborted it, and the error is counted; no other tenancy's team changes. An error
in a translation structure drops the entries of the address, on its die, and no other. A walk that ends fills the TLBs of its core and
cluster and the walk cache, none beyond its size. A line or scratchpad word whose data is lost is refused from then on, and no other.
(What is refused, and until when, is the model's choice: log 25.)
An uncontained fault, and every storage error by its structure: what is counted, fetched again, poisoned, or
uncontained; the host's writes of the error blocks and access counters. A walk that is taken, the longest waiting first beyond 4,096 cycles,
else of an instruction that has begun, else of the one with the fewest; it fills the TLBs of the cores that wait for it. A shoot-down drops
every entry of its range, a purge also sends to every live peer; each completes when the accesses before it have been performed, and a peer's
purge is acknowledged then. A granted translation is cached, one without its permission becomes a page request, whose answer ends it, refuses
it, or turns page requests off. An invalidation drops its entries and is answered when earlier accesses have been performed. A burst that
fails its CRC is replayed eight times, then its channel goes offline; a re-centring ends; refreshes are counted, and a missed heartbeat
hands refresh over at the second in a row; a stack that has been in self-refresh is trained again; of the bursts that may be served, the
controller's own is, else that of the weighted tenancy with the lowest tag.
(The corners are the model's readings: log 25, 28, 32, 33.) -/
def Obligations.MemorySystemEvents : Prop :=
  ((∀ (s : State) (ten code : Nat) (die : Bool), let t := s.uncontain ten code die
    (ten < s.tens.length → (s.ten ten).cfg ≠ [] → (t.ten ten).froz = true ∧ (t.ten ten).bands = List.replicate 8 [] ∧ (t.ten ten).fqDone = [] ∧
      ∀ r ∈ (t.ten ten).fqWait, r.flt.cls < 3 → r.void = true) ∧
    (∀ i, (s.team i).ten = ten → (t.team i).life ≠ .running ∧ (t.team i).life ≠ .stopping ∧ (t.team i).life ≠ .saved ∧ (t.team i).life ≠ .halted ∧
      ∀ q ∈ (t.team i).queues, (t.team i).life = .finished → q.halted = true ∨ q.pending = []) ∧
    (∀ i, (s.team i).ten = ten → (s.team i).life = .running ∨ (s.team i).life = .stopping ∨ (s.team i).life = .saved ∨ (s.team i).life = .halted →
      (t.team i).life = .discarded ∧ (t.team i).leases = [] ∧ (∀ q ∈ (t.team i).queues, q.pending = []) ∧
      (∀ g ∈ (s.team i).groups, g < s.groups.length → (t.group g).stage = .retired ∧ (t.group g).outst = [] ∧ (t.group g).faults = []) ∧
      ∀ c ∈ t.cores, (∀ f ∈ c.frames, f.team ≠ i) ∧ ∀ o ∈ c.tileOwner, o.2 ≠ i) ∧
    (∀ i, (s.team i).ten ≠ ten → t.team i = s.team i) ∧
    t.launches = s.launches.map (fun l => if l.ten = ten ∧ l.completed = false then
      { l with abort := some (match l.abort with | some a => a | none => (0x20, code)), halted := false } else l) ∧
    (∀ v, die.toNat < s.dies.length → (s.die die).errs[8]? = some v → (t.die die).errs[8]? = some (if v = BitVec.allOnes 64 then v else v + 1#64))) ∧
  (∀ (s : State) (code : Nat) (d : Bool),
    s.uncontainAll code d = (List.range s.tens.length).foldl (fun (s : State) k => s.uncontain k code d) s) ∧
  (∀ (s : State) (e : StorageError), let va := e.line * 128
    let t := s.dropEntries e
    let covers := fun (x : TlbEnt) => x.ten = e.ten ∧ x.va ≤ va ∧ va < x.va + x.size
    t.mem = s.mem ∧ t.groups = s.groups ∧ t.teams = s.teams ∧
    (e.what = .tlb →
      (∀ (k : Nat) (x : TlbEnt), x ∈ (t.core k).tlb ↔ x ∈ (s.core k).tlb ∧ ¬(dieOf k = e.die ∧ covers x)) ∧
      (∀ (k : Nat) (x : TlbEnt), x ∈ t.ctlb.getD k [] ↔ x ∈ s.ctlb.getD k [] ∧ ¬(dieOfCluster k = e.die ∧ covers x))) ∧
    (e.what = .stb → ∀ (k : Nat) (x : StbEnt), x ∈ (t.core k).stb ↔
      x ∈ (s.core k).stb ∧ ¬(dieOf k = e.die ∧ (s.team x.team).ten = e.ten ∧ x.page = va / 4096)) ∧
    (e.what = .ats → ∀ (d : Bool) (x : AtsEnt), x ∈ (t.die d).ats ↔
      x ∈ (s.die d).ats ∧ ¬(d = e.die ∧ x.pasid = (s.ten e.ten).pasid ∧ x.hva ≤ va ∧ va < x.hva + x.size)) ∧
    (e.what = .walkCache → ∀ (d : Bool) (x : WalkEnt), x ∈ (t.die d).walkCache ↔
      x ∈ (s.die d).walkCache ∧ ¬(d = e.die ∧ x.ten = e.ten ∧ x.va = va / 2 ^ lvlLo x.level))) ∧
  (∀ (s : State) (d : Bool) (core ten va leaf size : Nat) (es : List (Nat × Nat)), let t := s.walkFill d core ten va leaf size es
    t.mem = s.mem ∧ t.groups = s.groups ∧ t.teams = s.teams ∧ (∀ k, k ≠ core → (t.core k).tlb = (s.core k).tlb) ∧
    (core < s.cores.length → 0 < size → t.tlbLook core ten va = some ⟨ten, va / size * size, size, BitVec.ofNat 64 leaf⟩) ∧
    (core < s.cores.length → (t.core core).tlb.length ≤ 128) ∧
    (clusterOf core < s.ctlb.length → (t.ctlb.getD (clusterOf core) []).length ≤ 4096 ∧
      ⟨ten, va / size * size, size, BitVec.ofNat 64 leaf⟩ ∈ t.ctlb.getD (clusterOf core) []) ∧
    (d.toNat < s.dies.length → (t.die d).walkCache.length ≤ 256 ∧ (es.length ≤ 256 → ∀ e ∈ es, 2 ≤ e.1 →
      ⟨ten, e.1, va / 2 ^ lvlLo e.1, BitVec.ofNat 64 e.2⟩ ∈ (t.die d).walkCache))) ∧
  (∀ (s : State) (line : Nat), let t := s.spoilLine line
    t.mem = s.mem ∧ t.groups = s.groups ∧ t.teams = s.teams ∧
    ((homeDieOf (line * 128)).toNat < s.dies.length → t.poisoned (line * 128) = true) ∧
    ∀ k, k ≠ line → t.poisoned (k * 128) = s.poisoned (k * 128)) ∧
  (∀ (s : State) (tid addr : Nat), let t := s.spoilWord tid addr
    t.mem = s.mem ∧ t.groups = s.groups ∧ t.teams = s.teams ∧
    ((s.frameOf tid (addr / 4096)).isSome = true → t.spBad tid addr 1 = some addr) ∧
    ∀ a, a / 4 ≠ addr / 4 → t.spBad tid a 1 = s.spBad tid a 1) ∧
  (∀ (s : State) (line : Nat), let d := homeDieOf (line * 128)
    (∀ i < 64, ∃ e ∈ (s.die d).poison, e.1 = i) → (∀ e ∈ (s.die d).poison, e.2 ≠ line) → s.poisonLine line = s.uncontainAll 0x64 d)) ∧
  ((∀ (s : State) (ten : Nat) (code : BitVec 8) (die : Bool), ten < 16 → 0x60 ≤ code.toNat → code.toNat ≤ 0x65 →
    exec (.uncontainedFault ten code die) s = .next (s.uncontain ten code.toNat die)) ∧
  (∀ (s : State) (e : StorageError),
    let becomes := fun (t : State) => exec (.storageErrorDetect e) s = .next t
    (e.what = .hbm → let d := homeDieOf (e.line * 128)
      let replays := ∃ p ∈ s.pseudo, p.key = pseudoKey e.line ∧ p.replays ≠ 0
      (replays → becomes s) ∧ (¬replays → becomes (if e.correctable then s.countErr d 0 else (s.countErr d 1).spoilLine e.line))) ∧
    (e.what = .l2 ∨ e.what = .msc → becomes (if e.correctable then s.countErr e.die 4
      else if e.dirty then (s.countErr e.die 5).poisonLine e.line else s.countErr e.die 5)) ∧
    (e.what = .l1 → becomes ((s.dropL1 e.die e.line).countErr e.die 4)) ∧
    (e.what = .scratchpad → becomes (if e.correctable then s else s.spoilWord e.spad.1 e.spad.2)) ∧
    (e.what = .registerCache ∨ e.what = .accStore ∨ e.what = .itemQueue →
      becomes (if e.correctable then s else s.uncontain e.ten 0x60 e.die)) ∧
    (e.what = .tlb ∨ e.what = .stb ∨ e.what = .ats ∨ e.what = .walkCache → becomes ((s.dropEntries e).countErr e.die 6)) ∧
    (e.what = .groupControl ∨ e.what = .queueControl ∨ e.what = .barrierControl → becomes ((s.countErr e.die 6).uncontain e.ten 0x63 e.die)) ∧
    (e.what = .swardControl ∨ e.what = .fabricControl → becomes (s.uncontainAll 0x63 e.die)) ∧
    (e.what = .faultQueue → becomes (s.uncontain e.ten 0x65 e.die))) ∧
  (∀ (s : State) (d : Bool) (i line : Nat), d.toNat < s.dies.length →
    (∀ v, (s.die d).errs[i]? = some v → ((s.countErr d i).die d).errs[i]? = some (if v = BitVec.allOnes 64 then v else v + 1#64)) ∧
    (∀ k : Nat, dieOf k = d → ∀ x ∈ ((s.dropL1 d line).core k).l1, x.line ≠ line) ∧
    (homeDieOf (128 * line) = d → i < 64 → (∀ e ∈ (s.die d).poison, e.1 ≠ i) → (s.poisonLine line).poisoned (128 * line) = true)) ∧
  (∀ (s : State) (die : Bool) (i : Nat) (v : Word),
    (i < 64 → exec (.poisonEntryClear die i v) s = .next (s.modDie die fun x => { x with
      poison := (x.poison.filter fun e => e.1 != i) ++ if v.getLsbD 63 then [(i, v.toNat / 2 ^ 7 % 2 ^ 45)] else [] })) ∧
    (i < 9 → exec (.errorCounterClear die i v) s = .next (s.modDie die fun x => { x with errs := modAt x.errs i fun _ => v })) ∧
    exec (.missedClear die 0#64) s = .next (s.modDie die fun d => { d with missed := 0#64 }) ∧
    (∀ c : BitVec 16, ∃ t, exec (.accessCounterWrite die i c) s = .next t ∧
      (die.toNat < s.dies.length → c = 0xFFFF#16 → ∀ k ∈ (t.die die).counters, k.idx ≠ i) ∧
      (die.toNat < s.dies.length → c ≠ 0xFFFF#16 → ∀ k ∈ (s.die die).counters, k.idx = i →
        { k with count := (BitVec.ofNat 16 k.count &&& ~~~c).toNat } ∈ (t.die die).counters))) ∧
  (∀ (s : State) (ten : Nat) (c : ShootCmd) (addr npg seq : Nat), ten < 16 → ten < s.tens.length →
    (c.off ≠ 0 ∨ c.bytes.length ≠ 32 → let t := s.modTen ten fun t => { t with xDropped := t.xDropped + 1#64 }
      exec (.shootdownLocal ten c) s = .next t ∧ exec (.shootdownRosPurge ten c) s = .next t) ∧
    (c.off = 0 → addr % 65536 = 0 → 0 < npg → npg ≤ 2 ^ 40 → seq < 2 ^ 32 →
      (c.bytes = natToBytes 8 addr ++ natToBytes 8 npg ++ natToBytes 4 seq ++ natToBytes 12 0 → addr < 2 ^ 56 →
        ∃ t, exec (.shootdownLocal ten c) s = .next t ∧ t.mem = s.mem ∧ t.groups = s.groups ∧
          (∀ k : Nat, ∀ e ∈ (t.core k).tlb, e.ten = ten → overlaps e.va e.size addr (npg * 65536) = false) ∧
          (∀ l ∈ t.ctlb, ∀ e ∈ l, e.ten = ten → overlaps e.va e.size addr (npg * 65536) = false) ∧
          (∀ d ∈ t.dies, ∀ e ∈ d.ats, e.pasid = (s.ten ten).pasid → overlaps e.hva e.size addr (npg * 65536) = false) ∧
          ∃ w a, (t.ten ten).shoots = (s.ten ten).shoots ++ [⟨seq, 0, addr, npg, w, a, []⟩]) ∧
      (c.bytes = natToBytes 8 addr ++ natToBytes 8 npg ++ natToBytes 4 seq ++ natToBytes 12 1 → addr < 2 ^ 52 →
        let peers := s.routePeers.filter fun p => !(s.isDead p)
        ∃ t, exec (.shootdownRosPurge ten c) s = .next t ∧ t.mem = s.mem ∧ t.groups = s.groups ∧
          t.outbox = s.outbox ++ peers.map (fun p => .purge p addr npg) ∧
          ∃ w a ps, (t.ten ten).shoots = (s.ten ten).shoots ++ [⟨seq, 1, addr, npg, w, a, ps⟩] ∧ ps.length = peers.length))) ∧
  (∀ (s : State) (ten : Nat) (c : Shoot) (rest : List Shoot), (s.ten ten).shoots = c :: rest → (∀ w ∈ c.waits, s.word? w.1 w.2 = none) →
    (∀ q ∈ s.sent, q.id ∈ c.acks → q.lost = true ∨ q.got ≠ none) → (∀ q ∈ s.sent, q.id ∉ c.peers) →
    exec (.shootdownComplete ten) s = .next (s.modTen ten fun t => { t with shoots := rest, xDone := BitVec.ofNat 64 c.seq })) ∧
  (∀ (s : State) (peer addr npg : Nat), ∃ t, exec (.rosPurgeReceive peer addr npg) s = .next t ∧ t.mem = s.mem ∧ t.groups = s.groups ∧
    (∀ k : Nat, ∀ e ∈ (t.core k).tlb, leafOwner e.leaf.toNat = .peer peer → overlaps (leafPa e.leaf.toNat) e.size addr (npg * 65536) = false) ∧
    (s.purges = [] → (NothingOpen s → t.outbox = s.outbox ++ [.ack peer (.done 0#64)] ∧ t.purges = []) ∧
      (¬NothingOpen s → t.outbox = s.outbox ∧ ∃ w a, t.purges = [⟨peer, addr, npg * 65536, w, a⟩]))) ∧
  (∀ (s : State) (die : Bool), let d := s.die die
    let late := fun (q : PendWalk) => q.since + 4096 ≤ s.clock
    let begun := fun (q : PendWalk) => ∃ w ∈ q.raisers, w ∈ d.walking
    let walks := fun (w : Nat × Word) => (d.pend.filter fun q => q.raisers.contains w).length
    (d.pend ≠ [] → ∃ p, d.nextWalk s.clock = some p) ∧
    ∀ p, d.nextWalk s.clock = some p → p ∈ d.pend ∧
      ((∃ q ∈ d.pend, late q) → late p ∧ ∀ q ∈ d.pend, late q → p.since ≤ q.since) ∧
      ((∀ q ∈ d.pend, ¬late q) →
        ((∃ q ∈ d.pend, begun q) → begun p ∧ ∀ q ∈ d.pend, begun q → p.since ≤ q.since) ∧
        ((∀ q ∈ d.pend, ¬begun q) → (∀ q ∈ d.pend, q.raisers ≠ []) →
          ∃ w ∈ p.raisers, ∀ q ∈ d.pend, ∀ w' ∈ q.raisers, walks w ≤ walks w')) ∧
      let s' := s.modDie die fun d =>
        let rest := d.pend.filter (· != p)
        { d with pend := rest, walking := (p.raisers ++ d.walking.filter fun w => !(p.raisers.contains w)).filter fun w =>
          rest.any fun q => q.raisers.contains w }
      let found := s'.walk die p.ten (p.page * 65536)
      (∀ leaf size es, found = .ok (leaf, size, es) → exec (.pageWalk die) s =
        .next (p.cores.foldl (fun s c => s.walkFill die c p.ten (p.page * 65536) leaf size es) s')) ∧
      (∀ code, found = .error code → exec (.pageWalk die) s = .next s')) ∧
  (∀ (s : State) (req : Nat) (a : AtsAnswer) (r : AtsReq), s.atsReqs.find? (fun y => y.id == req && y.phase == 0) = some r →
    let granted := (r.needR = true → a.r = true) ∧ (r.needW = true → a.w = true)
    (granted → 4096 ≤ a.size →
      exec (.atsCompletion req a) s = .next (({ s with atsReqs := s.atsReqs.filter fun y => y.id != req } : State).modDie r.die fun d => { d with
        ats := (⟨r.pasid, r.page * 4096 / a.size * a.size, a.size, a.r, a.w, a.hpa⟩ :: d.ats).take 2048 })) ∧
    (¬granted → ∃ t, exec (.atsCompletion req a) s = .next t ∧ ∀ y ∈ t.atsReqs, y.id = req → y.phase = 1 ∨ y.phase = 2)) ∧
  (∀ (s : State) (prg : Nat) (r : AtsReq), s.atsReqs.find? (fun y => y.id == prg && y.phase == 1) = some r →
    (∃ t, exec (.priResponse prg .success) s = .next t ∧ ∀ y ∈ t.atsReqs, y.id ≠ prg) ∧
    (∃ t, exec (.priResponse prg .invalidRequest) s = .next t ∧ ∀ y ∈ t.atsReqs, y.id = prg → y.phase = 4) ∧
    (∃ t, exec (.priResponse prg .responseFailure) s = .next t ∧ t.priOn = false ∧ ∀ y ∈ t.atsReqs, y.phase ≠ 1 ∧ y.phase ≠ 2)) ∧
  (∀ s : State, ∃ t, exec .priEnable s = .next t ∧ t.priOn = true) ∧
  (∀ (s : State) (pasid addr size : Nat), ∃ t w a, exec (.invalidateRequest pasid addr size) s = .next t ∧
    t.invals = s.invals ++ [⟨pasid, addr, size, w, a⟩] ∧
    ∀ d : Bool, ∀ e ∈ (t.die d).ats, e.pasid = pasid → overlaps e.hva e.size addr size = false) ∧
  (∀ (s : State) (k : Nat) (v : Inval), s.invals[k]? = some v → (∀ w ∈ v.waits, s.word? w.1 w.2 = none) →
    (∀ q ∈ s.sent, q.id ∈ v.acks → q.lost = true ∨ q.got ≠ none) →
    exec (.invalidateCompletion k) s = .next (({ s with invals := s.invals.eraseIdx k } : State).emit (.invalidateDone v.pasid v.addr v.size))) ∧
  (∀ (s : State) (b : BurstCrc), b.stack < 12 → b.channel < 64 → (s.stack b.stack).offl.getLsbD (b.channel / 2) = false →
    let p := s.pc (64 * b.stack + b.channel)
    (p.replays < 8 → ∃ t, exec (.burstCrcFail b) s = .next t ∧
      (t.pc (64 * b.stack + b.channel)).replays = (if b.passes then 0 else p.replays + 1) ∧ t.mem = s.mem) ∧
    (8 ≤ p.replays → b.stack < s.hbm.length → ∃ t, exec (.burstCrcFail b) s = .next t ∧ (t.stack b.stack).offl.getLsbD (b.channel / 2) = true)) ∧
  (∀ (s : State) (k ch : Nat), ch ∈ (s.stack k).recentring →
    exec (.eyeRecentreDone k ch) s = .next (s.modStack k fun x => { x with recentring := x.recentring.filter (· != ch) })) ∧
  (∀ (s : State) (k b : Nat), (s.stack k).trnd = true → (s.stack k).selfRef = false →
    exec (.refreshTick ⟨k, none⟩) s = .next (s.modStack k fun x => { x with refreshes := x.refreshes + 1 }) ∧
    exec (.refreshTick ⟨k, some b⟩) s = .next (s.modStack k fun x => { x with perBank := x.perBank + 1 })) ∧
  (∀ (s : State) (k : Nat), k < 12 → s.hbm.length = 12 →
    ((s.stack k).owner = true → exec (.heartbeatMiss k) s = .next s) ∧
    ((s.stack k).owner = false → (s.stack k).missed = 0 → exec (.heartbeatMiss k) s = .next (s.modStack k fun x => { x with missed := 1 })) ∧
    ((s.stack k).owner = false → (s.stack k).missed ≠ 0 →
      exec (.heartbeatMiss k) s = .next (s.modStack k fun x => { x with missed := 0, owner := true, refreshes := x.refreshes + 1 })) ∧
    ((s.heartbeat k).stack k = { s.stack k with missed := 0 }) ∧
    (s.boot.step = 0 ∨ s.tripped = true → (s.selfRefresh k true).stack k = { s.stack k with selfRef := true } ∧
      ((s.stack k).selfRef = true → (s.selfRefresh k false).stack k = { s.stack k with selfRef := false, trnd := false }))) ∧
  (∀ (s : State) (k ch : Nat) (eligible : List Nat), let p := s.pc (64 * k + ch)
    k < 12 → ch < 64 → p.replays = 0 → ch / 2 ∉ (s.stack k).recentring → (s.stack k).offl.getLsbD (ch / 2) = false → (∀ b ∈ p.bursts, 0 < b.den) → (∃ i ∈ eligible, i < p.bursts.length) →
    ∃ t i b, exec (.hbmBurstServe k ch eligible) s = .next t ∧ i ∈ eligible ∧ p.bursts[i]? = some b ∧
      (∀ j ∈ eligible, ∀ y, p.bursts[j]? = some y → ¬servedFirst y b) ∧
      let q := t.pc (64 * k + ch)
      q.bursts = p.bursts.eraseIdx i ∧ q.v = (if b.zero || b.mc then p.v else (b.num, b.den)) ∧ q.v0 = (if b.zero then (b.num, b.den) else p.v0) ∧
      t.mem = s.mem ∧ t.groups = s.groups))

/-! ## Bring-up, thermal behaviour, measurement (22 R458, R467, R468, 23 R471-R477) -/

/-- The steps of bring-up in their order, each from the one before; power-on; a core issues in at most ALLOW + 1 of any 256 cycles; ALLOW as a thermal sample sets it, the trip at the second hot
sample of a core, and the power-down after it; peers without a LIVE base lane after 50 ms, which are dead from step 7 on; front ports; a routine that is valid for the first
time extends MEAS4 alone; a report is asked for, and built from the nonce.
(The corners are the model's readings: log 10, 32.) -/
def Obligations.BringUpEvents : Prop :=
  (∀ s : State, ∃ t, exec .powerOnReset s = .next t ∧ t.power = true ∧ t.boot.step = 0 ∧ t.boot.hold = false ∧
    t.boot.bootcnt = s.boot.bootcnt + 1#64 ∧ t.boot.svn = s.boot.svn ∧ t.hostMem = s.hostMem ∧ t.mem = [] ∧ t.groups = [] ∧ t.launches = []) ∧
  (∀ (s : State) (rails coolant : Bool) (x0 x1 : Bundle), s.power = true → s.boot.step = 0 → s.boot.hold = false →
    rails = false ∨ (Config.isModule = true ∧ coolant = false) → ∃ t, exec (.railsInRange rails coolant x0 x1) s = .next t ∧ t.boot.hold = true ∧ t.boot.failc = 1 ∧ t.boot.step = 0) ∧
  (∀ (s : State) (x0 x1 : Bundle) (coolant : Bool), s.power = true → s.boot.step = 0 → s.boot.hold = false → Config.isModule = false ∨ coolant = true →
    let okay := fun (x : Bundle) => Config.vendorVerify (Config.shake256 x.headBody) x.sig && decide (s.boot.svn ≤ x.svn) && cfgOk x.cfg
    ∃ t, exec (.railsInRange true coolant x0 x1) s = .next t ∧
      if okay x0 then t.boot.step = 2 ∧ t.boot.hold = false ∧ t.boot.rcv = false ∧ t.boot.cfg = x0.cfg
      else if okay x1 then t.boot.step = 2 ∧ t.boot.hold = false ∧ t.boot.rcv = true ∧ t.boot.cfg = x1.cfg
      else t.boot.step = 1 ∧ t.boot.hold = true ∧ t.boot.failc = 2) ∧
  (∀ (s : State) (k : Nat), k < 12 → s.hbm.length = 12 → 2 ≤ s.boot.step → s.boot.hold = false → (s.stack k).trnd = false → (s.stack k).selfRef = false →
    (∃ t, exec (.stackTraining k (some 48)) s = .next t ∧ (t.stack k).trnd = true ∧ t.boot = s.boot) ∧
    (∀ gib : Option Nat, gib ≠ some 48 → (s.stack k).trainFails < 2 → ∃ t, exec (.stackTraining k gib) s = .next t ∧ t.boot = s.boot ∧ (t.stack k).trainFails = (s.stack k).trainFails + 1) ∧
    (∀ gib : Option Nat, gib ≠ some 48 → 2 ≤ (s.stack k).trainFails → ∃ t, exec (.stackTraining k gib) s = .next t ∧ t.boot.hold = true ∧ t.boot.failc = 3 ∧ t.boot.hbmf.getLsbD k = true)) ∧
  (∀ s : State, s.power = true → s.boot.hold = false →
    (s.boot.step = 2 → (∀ x ∈ s.hbm, x.trnd = true) → ∃ t, exec .hbmTrainingDone s = .next t ∧ t.boot.step = 3 ∧ t.boot.calAt = some s.clock ∧
      ∀ l ∈ s.baseLanes, (t.lane l).st = .tuning ∧ (t.lane l).chan = routeHome (s.route l) ∧ (t.lane l).peer = s.basePeer l) ∧
    (s.boot.step = 3 → (∀ l ∈ s.baseLanes, (s.lane l).st = .live ∨ (s.lane l).st = .failed) →
      exec .opticalCalibrationDone s = .next { s with boot := { s.boot with step := 4 } }) ∧
    (s.boot.step = 4 → (∀ w sp, exec (.pcieLinkUp (some (w, sp))) s = .next { s with boot := { s.boot with step := 5, link := (w, sp) }, pcie := true }) ∧
      exec (.pcieLinkUp none) s = .next { s with boot := { s.boot with hold := true, failc := 4 } }) ∧
    (∀ a b, s.boot.step = 5 → s.sent = [] → s.deadpeer.length = 4 → (∀ p ∈ s.boot.deadBase, p < 256) →
      ∃ t, exec (.ethernetLinkDone a b) s = .next t ∧ t.boot.step = 7 ∧ t.boot.svn = max s.boot.svn s.boot.bundleSvn ∧ t.ports = [a, b] ∧
        t.boot.deadBase = [] ∧ (∀ T ∈ t.tens, T.cfg = Tenancy.reset.cfg) ∧ t.mem = s.mem ∧ ∀ p ∈ s.boot.deadBase, t.isDead p = true)) ∧
  (∀ s : State, let t := s.noteBase
    t = { s with boot := { s.boot with deadBase := t.boot.deadBase } } ∧
    (s.boot.calAt ≠ some (s.clock - 60000000) ∨ s.clock < 60000000 → t = s) ∧
    (s.boot.calAt = some (s.clock - 60000000) → 60000000 ≤ s.clock →
      ∀ p, p ∈ t.boot.deadBase ↔ p < 256 ∧ s.allotment p ≠ [] ∧ ∀ l ∈ s.allotment p, (s.lane l).st ≠ .live)) ∧
  (∀ (s : State) (peer : Nat), s.boot.step = 7 → peer ∈ s.boot.deadBase →
    let told : State := { s with boot := { s.boot with deadBase := s.boot.deadBase.filter (· != peer) } }
    exec (.baseLaneDeadTimeout peer) s = .next (if s.isDead peer then told else told.killPeer peer)) ∧
  (∀ (s : State) (g : Nat) (pc : Word), let k := (s.group g).core
    let recent := (s.core k).gate.filter fun t => decide (s.clock < t + 256)
    ((s.core k).allow.toNat < recent.length → s.mayIssue g pc = false) ∧ (k < s.cores.length → ((s.gateCount k).core k).gate = s.clock :: recent)) ∧
  (∀ (s : State) (port : Nat) (up : Bool), 6 ≤ s.boot.step → port < 2 →
    exec (.frontPortLinkChange port up) s = .next { s with ports := modAt s.ports port fun _ => up }) ∧
  (∀ (s : State) (cores hbm : List (BitVec 12)), cores.length = 256 → s.cores.length = 256 → s.hbm.length = 12 →
    (∀ k < 12, (s.stack k).cap = 255 ∧ (hbm.getD k (s.stack k).temp).toNat < 680) → (∀ t ∈ cores, t.toNat < 880) →
    ∃ t, exec (.thermalSample cores hbm) s = .next t ∧ t.mem = s.mem ∧ t.groups = s.groups ∧ t.tripped = s.tripped ∧
      ∀ i < 256, (t.core i).temp = cores.getD i 0#12 ∧ (t.core i).allow = BitVec.ofNat 8 (255 - min 255 (2 * ((cores.getD i 0#12).toNat - 720))) ∧
        (t.core i).floor = (s.core i).floor) ∧
  (∀ (s : State) (cores hbm : List (BitVec 12)) (i : Nat), i < s.cores.length → i < cores.length → 880 ≤ (cores.getD i 0#12).toNat →
    1 ≤ (s.core i).tripSamples → ∃ t, exec (.thermalSample cores hbm) s = .next t ∧ t.tripped = true) ∧
  (∀ s : State, s.tripped = true → (∀ l ∈ s.launches, l.completed = true) → (∀ t ∈ s.tens, t.fqWait = []) →
    ∃ t, exec .thermalPowerDown s = .next t ∧ t.power = false ∧ t.mem = [] ∧ t.hostMem = s.hostMem ∧ t.boot.svn = s.boot.svn) ∧
  (∀ (s : State) (ten rt a n : Nat), s.boot.step = 7 → ten < 16 → rt < 256 → (ten, rt) ∉ s.boot.measured → s.routine ten rt = some (a, n) →
    s.boot.meas.length = 8 → ∃ t, exec (.measurementExtend ten rt) s = .next t ∧
      t.boot.meas[4]? = some (Config.shake256 (natToBytes 64 (s.boot.meas.getD 4 0#512).toNat ++
        natToBytes 64 (Config.shake256 (Cells.readN s.mem a n)).toNat)) ∧ (∀ k, k ≠ 4 → t.boot.meas[k]? = s.boot.meas[k]?)) ∧
  (∀ (s : State) (nonce : BitVec 256), (s.boot.building = false ∨ s.boot.rpt = true →
      exec (.attestationRequest nonce) s = .next { s with boot := { s.boot with nonce := nonce, rpt := false, building := true } }) ∧
    (s.boot.building = true → s.boot.rpt = false → exec (.attestationRequest nonce) s = .next s)) ∧
  (∀ (s : State) (dbg : Bool), s.boot.building = true → ∃ t, exec (.reportReady dbg) s = .next t ∧ t.boot.rpt = true ∧ t.boot.building = false ∧
    t.boot.report.length = 768 ∧ t.boot.report.take 4 = [0x53#8, 0x56#8, 0x41#8, 0x54#8] ∧
    (t.boot.report.drop 16).take 32 = natToBytes 32 s.boot.nonce.toNat ∧ t.boot.meas = s.boot.meas)
end

