-- ==== Sys2Proof/Laws/State.lean ====
section
/-! SUPPORT. Laws/State.lean: each named update of the state, field by field: the field it changes and the fields it leaves. -/

namespace Sys2Proof.Machine

/-! ## `State.modGroup` -/

@[simp] theorem State.modGroup_clock (s : State) (g : Nat) (f : Group → Group) : (s.modGroup g f).clock = s.clock := rfl
@[simp] theorem State.modGroup_mem (s : State) (g : Nat) (f : Group → Group) : (s.modGroup g f).mem = s.mem := rfl
@[simp] theorem State.modGroup_hostMem (s : State) (g : Nat) (f : Group → Group) : (s.modGroup g f).hostMem = s.hostMem := rfl
@[simp] theorem State.modGroup_groups (s : State) (g : Nat) (f : Group → Group) : (s.modGroup g f).groups = modAt s.groups g f := rfl
@[simp] theorem State.modGroup_teams (s : State) (g : Nat) (f : Group → Group) : (s.modGroup g f).teams = s.teams := rfl
@[simp] theorem State.modGroup_launches (s : State) (g : Nat) (f : Group → Group) : (s.modGroup g f).launches = s.launches := rfl
@[simp] theorem State.modGroup_tens (s : State) (g : Nat) (f : Group → Group) : (s.modGroup g f).tens = s.tens := rfl
@[simp] theorem State.modGroup_rotation (s : State) (g : Nat) (f : Group → Group) : (s.modGroup g f).rotation = s.rotation := rfl
@[simp] theorem State.modGroup_orders (s : State) (g : Nat) (f : Group → Group) : (s.modGroup g f).orders = s.orders := rfl
@[simp] theorem State.modGroup_admits (s : State) (g : Nat) (f : Group → Group) : (s.modGroup g f).admits = s.admits := rfl
@[simp] theorem State.modGroup_cores (s : State) (g : Nat) (f : Group → Group) : (s.modGroup g f).cores = s.cores := rfl
@[simp] theorem State.modGroup_ctlb (s : State) (g : Nat) (f : Group → Group) : (s.modGroup g f).ctlb = s.ctlb := rfl
@[simp] theorem State.modGroup_dies (s : State) (g : Nat) (f : Group → Group) : (s.modGroup g f).dies = s.dies := rfl
@[simp] theorem State.modGroup_hbm (s : State) (g : Nat) (f : Group → Group) : (s.modGroup g f).hbm = s.hbm := rfl
@[simp] theorem State.modGroup_pseudo (s : State) (g : Nat) (f : Group → Group) : (s.modGroup g f).pseudo = s.pseudo := rfl
@[simp] theorem State.modGroup_optics (s : State) (g : Nat) (f : Group → Group) : (s.modGroup g f).optics = s.optics := rfl
@[simp] theorem State.modGroup_deadpeer (s : State) (g : Nat) (f : Group → Group) : (s.modGroup g f).deadpeer = s.deadpeer := rfl
@[simp] theorem State.modGroup_srcto (s : State) (g : Nat) (f : Group → Group) : (s.modGroup g f).srcto = s.srcto := rfl
@[simp] theorem State.modGroup_csrviol (s : State) (g : Nat) (f : Group → Group) : (s.modGroup g f).csrviol = s.csrviol := rfl
@[simp] theorem State.modGroup_sent (s : State) (g : Nat) (f : Group → Group) : (s.modGroup g f).sent = s.sent := rfl
@[simp] theorem State.modGroup_nextId (s : State) (g : Nat) (f : Group → Group) : (s.modGroup g f).nextId = s.nextId := rfl
@[simp] theorem State.modGroup_flits (s : State) (g : Nat) (f : Group → Group) : (s.modGroup g f).flits = s.flits := rfl
@[simp] theorem State.modGroup_peers (s : State) (g : Nat) (f : Group → Group) : (s.modGroup g f).peers = s.peers := rfl
@[simp] theorem State.modGroup_atsReqs (s : State) (g : Nat) (f : Group → Group) : (s.modGroup g f).atsReqs = s.atsReqs := rfl
@[simp] theorem State.modGroup_priOn (s : State) (g : Nat) (f : Group → Group) : (s.modGroup g f).priOn = s.priOn := rfl
@[simp] theorem State.modGroup_invals (s : State) (g : Nat) (f : Group → Group) : (s.modGroup g f).invals = s.invals := rfl
@[simp] theorem State.modGroup_purges (s : State) (g : Nat) (f : Group → Group) : (s.modGroup g f).purges = s.purges := rfl
@[simp] theorem State.modGroup_boot (s : State) (g : Nat) (f : Group → Group) : (s.modGroup g f).boot = s.boot := rfl
@[simp] theorem State.modGroup_ports (s : State) (g : Nat) (f : Group → Group) : (s.modGroup g f).ports = s.ports := rfl
@[simp] theorem State.modGroup_pcie (s : State) (g : Nat) (f : Group → Group) : (s.modGroup g f).pcie = s.pcie := rfl
@[simp] theorem State.modGroup_power (s : State) (g : Nat) (f : Group → Group) : (s.modGroup g f).power = s.power := rfl
@[simp] theorem State.modGroup_tripped (s : State) (g : Nat) (f : Group → Group) : (s.modGroup g f).tripped = s.tripped := rfl
@[simp] theorem State.modGroup_inputs (s : State) (g : Nat) (f : Group → Group) : (s.modGroup g f).inputs = s.inputs := rfl
@[simp] theorem State.modGroup_cur (s : State) (g : Nat) (f : Group → Group) : (s.modGroup g f).cur = s.cur := rfl
@[simp] theorem State.modGroup_free (s : State) (g : Nat) (f : Group → Group) : (s.modGroup g f).free = s.free := rfl
@[simp] theorem State.modGroup_outbox (s : State) (g : Nat) (f : Group → Group) : (s.modGroup g f).outbox = s.outbox := rfl

/-! ## `State.modTeam` -/

@[simp] theorem State.modTeam_clock (s : State) (t : Nat) (f : Team → Team) : (s.modTeam t f).clock = s.clock := rfl
@[simp] theorem State.modTeam_mem (s : State) (t : Nat) (f : Team → Team) : (s.modTeam t f).mem = s.mem := rfl
@[simp] theorem State.modTeam_hostMem (s : State) (t : Nat) (f : Team → Team) : (s.modTeam t f).hostMem = s.hostMem := rfl
@[simp] theorem State.modTeam_groups (s : State) (t : Nat) (f : Team → Team) : (s.modTeam t f).groups = s.groups := rfl
@[simp] theorem State.modTeam_teams (s : State) (t : Nat) (f : Team → Team) : (s.modTeam t f).teams = modAt s.teams t f := rfl
@[simp] theorem State.modTeam_launches (s : State) (t : Nat) (f : Team → Team) : (s.modTeam t f).launches = s.launches := rfl
@[simp] theorem State.modTeam_tens (s : State) (t : Nat) (f : Team → Team) : (s.modTeam t f).tens = s.tens := rfl
@[simp] theorem State.modTeam_rotation (s : State) (t : Nat) (f : Team → Team) : (s.modTeam t f).rotation = s.rotation := rfl
@[simp] theorem State.modTeam_orders (s : State) (t : Nat) (f : Team → Team) : (s.modTeam t f).orders = s.orders := rfl
@[simp] theorem State.modTeam_admits (s : State) (t : Nat) (f : Team → Team) : (s.modTeam t f).admits = s.admits := rfl
@[simp] theorem State.modTeam_cores (s : State) (t : Nat) (f : Team → Team) : (s.modTeam t f).cores = s.cores := rfl
@[simp] theorem State.modTeam_ctlb (s : State) (t : Nat) (f : Team → Team) : (s.modTeam t f).ctlb = s.ctlb := rfl
@[simp] theorem State.modTeam_dies (s : State) (t : Nat) (f : Team → Team) : (s.modTeam t f).dies = s.dies := rfl
@[simp] theorem State.modTeam_hbm (s : State) (t : Nat) (f : Team → Team) : (s.modTeam t f).hbm = s.hbm := rfl
@[simp] theorem State.modTeam_pseudo (s : State) (t : Nat) (f : Team → Team) : (s.modTeam t f).pseudo = s.pseudo := rfl
@[simp] theorem State.modTeam_optics (s : State) (t : Nat) (f : Team → Team) : (s.modTeam t f).optics = s.optics := rfl
@[simp] theorem State.modTeam_deadpeer (s : State) (t : Nat) (f : Team → Team) : (s.modTeam t f).deadpeer = s.deadpeer := rfl
@[simp] theorem State.modTeam_srcto (s : State) (t : Nat) (f : Team → Team) : (s.modTeam t f).srcto = s.srcto := rfl
@[simp] theorem State.modTeam_csrviol (s : State) (t : Nat) (f : Team → Team) : (s.modTeam t f).csrviol = s.csrviol := rfl
@[simp] theorem State.modTeam_sent (s : State) (t : Nat) (f : Team → Team) : (s.modTeam t f).sent = s.sent := rfl
@[simp] theorem State.modTeam_nextId (s : State) (t : Nat) (f : Team → Team) : (s.modTeam t f).nextId = s.nextId := rfl
@[simp] theorem State.modTeam_flits (s : State) (t : Nat) (f : Team → Team) : (s.modTeam t f).flits = s.flits := rfl
@[simp] theorem State.modTeam_peers (s : State) (t : Nat) (f : Team → Team) : (s.modTeam t f).peers = s.peers := rfl
@[simp] theorem State.modTeam_atsReqs (s : State) (t : Nat) (f : Team → Team) : (s.modTeam t f).atsReqs = s.atsReqs := rfl
@[simp] theorem State.modTeam_priOn (s : State) (t : Nat) (f : Team → Team) : (s.modTeam t f).priOn = s.priOn := rfl
@[simp] theorem State.modTeam_invals (s : State) (t : Nat) (f : Team → Team) : (s.modTeam t f).invals = s.invals := rfl
@[simp] theorem State.modTeam_purges (s : State) (t : Nat) (f : Team → Team) : (s.modTeam t f).purges = s.purges := rfl
@[simp] theorem State.modTeam_boot (s : State) (t : Nat) (f : Team → Team) : (s.modTeam t f).boot = s.boot := rfl
@[simp] theorem State.modTeam_ports (s : State) (t : Nat) (f : Team → Team) : (s.modTeam t f).ports = s.ports := rfl
@[simp] theorem State.modTeam_pcie (s : State) (t : Nat) (f : Team → Team) : (s.modTeam t f).pcie = s.pcie := rfl
@[simp] theorem State.modTeam_power (s : State) (t : Nat) (f : Team → Team) : (s.modTeam t f).power = s.power := rfl
@[simp] theorem State.modTeam_tripped (s : State) (t : Nat) (f : Team → Team) : (s.modTeam t f).tripped = s.tripped := rfl
@[simp] theorem State.modTeam_inputs (s : State) (t : Nat) (f : Team → Team) : (s.modTeam t f).inputs = s.inputs := rfl
@[simp] theorem State.modTeam_cur (s : State) (t : Nat) (f : Team → Team) : (s.modTeam t f).cur = s.cur := rfl
@[simp] theorem State.modTeam_free (s : State) (t : Nat) (f : Team → Team) : (s.modTeam t f).free = s.free := rfl
@[simp] theorem State.modTeam_outbox (s : State) (t : Nat) (f : Team → Team) : (s.modTeam t f).outbox = s.outbox := rfl

/-! ## `State.modLaunch` -/

@[simp] theorem State.modLaunch_clock (s : State) (l : Nat) (f : Launch → Launch) : (s.modLaunch l f).clock = s.clock := rfl
@[simp] theorem State.modLaunch_mem (s : State) (l : Nat) (f : Launch → Launch) : (s.modLaunch l f).mem = s.mem := rfl
@[simp] theorem State.modLaunch_hostMem (s : State) (l : Nat) (f : Launch → Launch) : (s.modLaunch l f).hostMem = s.hostMem := rfl
@[simp] theorem State.modLaunch_groups (s : State) (l : Nat) (f : Launch → Launch) : (s.modLaunch l f).groups = s.groups := rfl
@[simp] theorem State.modLaunch_teams (s : State) (l : Nat) (f : Launch → Launch) : (s.modLaunch l f).teams = s.teams := rfl
@[simp] theorem State.modLaunch_launches (s : State) (l : Nat) (f : Launch → Launch) : (s.modLaunch l f).launches = modAt s.launches l f := rfl
@[simp] theorem State.modLaunch_tens (s : State) (l : Nat) (f : Launch → Launch) : (s.modLaunch l f).tens = s.tens := rfl
@[simp] theorem State.modLaunch_rotation (s : State) (l : Nat) (f : Launch → Launch) : (s.modLaunch l f).rotation = s.rotation := rfl
@[simp] theorem State.modLaunch_orders (s : State) (l : Nat) (f : Launch → Launch) : (s.modLaunch l f).orders = s.orders := rfl
@[simp] theorem State.modLaunch_admits (s : State) (l : Nat) (f : Launch → Launch) : (s.modLaunch l f).admits = s.admits := rfl
@[simp] theorem State.modLaunch_cores (s : State) (l : Nat) (f : Launch → Launch) : (s.modLaunch l f).cores = s.cores := rfl
@[simp] theorem State.modLaunch_ctlb (s : State) (l : Nat) (f : Launch → Launch) : (s.modLaunch l f).ctlb = s.ctlb := rfl
@[simp] theorem State.modLaunch_dies (s : State) (l : Nat) (f : Launch → Launch) : (s.modLaunch l f).dies = s.dies := rfl
@[simp] theorem State.modLaunch_hbm (s : State) (l : Nat) (f : Launch → Launch) : (s.modLaunch l f).hbm = s.hbm := rfl
@[simp] theorem State.modLaunch_pseudo (s : State) (l : Nat) (f : Launch → Launch) : (s.modLaunch l f).pseudo = s.pseudo := rfl
@[simp] theorem State.modLaunch_optics (s : State) (l : Nat) (f : Launch → Launch) : (s.modLaunch l f).optics = s.optics := rfl
@[simp] theorem State.modLaunch_deadpeer (s : State) (l : Nat) (f : Launch → Launch) : (s.modLaunch l f).deadpeer = s.deadpeer := rfl
@[simp] theorem State.modLaunch_srcto (s : State) (l : Nat) (f : Launch → Launch) : (s.modLaunch l f).srcto = s.srcto := rfl
@[simp] theorem State.modLaunch_csrviol (s : State) (l : Nat) (f : Launch → Launch) : (s.modLaunch l f).csrviol = s.csrviol := rfl
@[simp] theorem State.modLaunch_sent (s : State) (l : Nat) (f : Launch → Launch) : (s.modLaunch l f).sent = s.sent := rfl
@[simp] theorem State.modLaunch_nextId (s : State) (l : Nat) (f : Launch → Launch) : (s.modLaunch l f).nextId = s.nextId := rfl
@[simp] theorem State.modLaunch_flits (s : State) (l : Nat) (f : Launch → Launch) : (s.modLaunch l f).flits = s.flits := rfl
@[simp] theorem State.modLaunch_peers (s : State) (l : Nat) (f : Launch → Launch) : (s.modLaunch l f).peers = s.peers := rfl
@[simp] theorem State.modLaunch_atsReqs (s : State) (l : Nat) (f : Launch → Launch) : (s.modLaunch l f).atsReqs = s.atsReqs := rfl
@[simp] theorem State.modLaunch_priOn (s : State) (l : Nat) (f : Launch → Launch) : (s.modLaunch l f).priOn = s.priOn := rfl
@[simp] theorem State.modLaunch_invals (s : State) (l : Nat) (f : Launch → Launch) : (s.modLaunch l f).invals = s.invals := rfl
@[simp] theorem State.modLaunch_purges (s : State) (l : Nat) (f : Launch → Launch) : (s.modLaunch l f).purges = s.purges := rfl
@[simp] theorem State.modLaunch_boot (s : State) (l : Nat) (f : Launch → Launch) : (s.modLaunch l f).boot = s.boot := rfl
@[simp] theorem State.modLaunch_ports (s : State) (l : Nat) (f : Launch → Launch) : (s.modLaunch l f).ports = s.ports := rfl
@[simp] theorem State.modLaunch_pcie (s : State) (l : Nat) (f : Launch → Launch) : (s.modLaunch l f).pcie = s.pcie := rfl
@[simp] theorem State.modLaunch_power (s : State) (l : Nat) (f : Launch → Launch) : (s.modLaunch l f).power = s.power := rfl
@[simp] theorem State.modLaunch_tripped (s : State) (l : Nat) (f : Launch → Launch) : (s.modLaunch l f).tripped = s.tripped := rfl
@[simp] theorem State.modLaunch_inputs (s : State) (l : Nat) (f : Launch → Launch) : (s.modLaunch l f).inputs = s.inputs := rfl
@[simp] theorem State.modLaunch_cur (s : State) (l : Nat) (f : Launch → Launch) : (s.modLaunch l f).cur = s.cur := rfl
@[simp] theorem State.modLaunch_free (s : State) (l : Nat) (f : Launch → Launch) : (s.modLaunch l f).free = s.free := rfl
@[simp] theorem State.modLaunch_outbox (s : State) (l : Nat) (f : Launch → Launch) : (s.modLaunch l f).outbox = s.outbox := rfl

/-! ## `State.modTen` -/

@[simp] theorem State.modTen_clock (s : State) (t : Nat) (f : Tenancy → Tenancy) : (s.modTen t f).clock = s.clock := rfl
@[simp] theorem State.modTen_mem (s : State) (t : Nat) (f : Tenancy → Tenancy) : (s.modTen t f).mem = s.mem := rfl
@[simp] theorem State.modTen_hostMem (s : State) (t : Nat) (f : Tenancy → Tenancy) : (s.modTen t f).hostMem = s.hostMem := rfl
@[simp] theorem State.modTen_groups (s : State) (t : Nat) (f : Tenancy → Tenancy) : (s.modTen t f).groups = s.groups := rfl
@[simp] theorem State.modTen_teams (s : State) (t : Nat) (f : Tenancy → Tenancy) : (s.modTen t f).teams = s.teams := rfl
@[simp] theorem State.modTen_launches (s : State) (t : Nat) (f : Tenancy → Tenancy) : (s.modTen t f).launches = s.launches := rfl
@[simp] theorem State.modTen_tens (s : State) (t : Nat) (f : Tenancy → Tenancy) : (s.modTen t f).tens = modAt s.tens t f := rfl
@[simp] theorem State.modTen_rotation (s : State) (t : Nat) (f : Tenancy → Tenancy) : (s.modTen t f).rotation = s.rotation := rfl
@[simp] theorem State.modTen_orders (s : State) (t : Nat) (f : Tenancy → Tenancy) : (s.modTen t f).orders = s.orders := rfl
@[simp] theorem State.modTen_admits (s : State) (t : Nat) (f : Tenancy → Tenancy) : (s.modTen t f).admits = s.admits := rfl
@[simp] theorem State.modTen_cores (s : State) (t : Nat) (f : Tenancy → Tenancy) : (s.modTen t f).cores = s.cores := rfl
@[simp] theorem State.modTen_ctlb (s : State) (t : Nat) (f : Tenancy → Tenancy) : (s.modTen t f).ctlb = s.ctlb := rfl
@[simp] theorem State.modTen_dies (s : State) (t : Nat) (f : Tenancy → Tenancy) : (s.modTen t f).dies = s.dies := rfl
@[simp] theorem State.modTen_hbm (s : State) (t : Nat) (f : Tenancy → Tenancy) : (s.modTen t f).hbm = s.hbm := rfl
@[simp] theorem State.modTen_pseudo (s : State) (t : Nat) (f : Tenancy → Tenancy) : (s.modTen t f).pseudo = s.pseudo := rfl
@[simp] theorem State.modTen_optics (s : State) (t : Nat) (f : Tenancy → Tenancy) : (s.modTen t f).optics = s.optics := rfl
@[simp] theorem State.modTen_deadpeer (s : State) (t : Nat) (f : Tenancy → Tenancy) : (s.modTen t f).deadpeer = s.deadpeer := rfl
@[simp] theorem State.modTen_srcto (s : State) (t : Nat) (f : Tenancy → Tenancy) : (s.modTen t f).srcto = s.srcto := rfl
@[simp] theorem State.modTen_csrviol (s : State) (t : Nat) (f : Tenancy → Tenancy) : (s.modTen t f).csrviol = s.csrviol := rfl
@[simp] theorem State.modTen_sent (s : State) (t : Nat) (f : Tenancy → Tenancy) : (s.modTen t f).sent = s.sent := rfl
@[simp] theorem State.modTen_nextId (s : State) (t : Nat) (f : Tenancy → Tenancy) : (s.modTen t f).nextId = s.nextId := rfl
@[simp] theorem State.modTen_flits (s : State) (t : Nat) (f : Tenancy → Tenancy) : (s.modTen t f).flits = s.flits := rfl
@[simp] theorem State.modTen_peers (s : State) (t : Nat) (f : Tenancy → Tenancy) : (s.modTen t f).peers = s.peers := rfl
@[simp] theorem State.modTen_atsReqs (s : State) (t : Nat) (f : Tenancy → Tenancy) : (s.modTen t f).atsReqs = s.atsReqs := rfl
@[simp] theorem State.modTen_priOn (s : State) (t : Nat) (f : Tenancy → Tenancy) : (s.modTen t f).priOn = s.priOn := rfl
@[simp] theorem State.modTen_invals (s : State) (t : Nat) (f : Tenancy → Tenancy) : (s.modTen t f).invals = s.invals := rfl
@[simp] theorem State.modTen_purges (s : State) (t : Nat) (f : Tenancy → Tenancy) : (s.modTen t f).purges = s.purges := rfl
@[simp] theorem State.modTen_boot (s : State) (t : Nat) (f : Tenancy → Tenancy) : (s.modTen t f).boot = s.boot := rfl
@[simp] theorem State.modTen_ports (s : State) (t : Nat) (f : Tenancy → Tenancy) : (s.modTen t f).ports = s.ports := rfl
@[simp] theorem State.modTen_pcie (s : State) (t : Nat) (f : Tenancy → Tenancy) : (s.modTen t f).pcie = s.pcie := rfl
@[simp] theorem State.modTen_power (s : State) (t : Nat) (f : Tenancy → Tenancy) : (s.modTen t f).power = s.power := rfl
@[simp] theorem State.modTen_tripped (s : State) (t : Nat) (f : Tenancy → Tenancy) : (s.modTen t f).tripped = s.tripped := rfl
@[simp] theorem State.modTen_inputs (s : State) (t : Nat) (f : Tenancy → Tenancy) : (s.modTen t f).inputs = s.inputs := rfl
@[simp] theorem State.modTen_cur (s : State) (t : Nat) (f : Tenancy → Tenancy) : (s.modTen t f).cur = s.cur := rfl
@[simp] theorem State.modTen_free (s : State) (t : Nat) (f : Tenancy → Tenancy) : (s.modTen t f).free = s.free := rfl
@[simp] theorem State.modTen_outbox (s : State) (t : Nat) (f : Tenancy → Tenancy) : (s.modTen t f).outbox = s.outbox := rfl

/-! ## `State.modCore` -/

@[simp] theorem State.modCore_clock (s : State) (c : Nat) (f : Core → Core) : (s.modCore c f).clock = s.clock := rfl
@[simp] theorem State.modCore_mem (s : State) (c : Nat) (f : Core → Core) : (s.modCore c f).mem = s.mem := rfl
@[simp] theorem State.modCore_hostMem (s : State) (c : Nat) (f : Core → Core) : (s.modCore c f).hostMem = s.hostMem := rfl
@[simp] theorem State.modCore_groups (s : State) (c : Nat) (f : Core → Core) : (s.modCore c f).groups = s.groups := rfl
@[simp] theorem State.modCore_teams (s : State) (c : Nat) (f : Core → Core) : (s.modCore c f).teams = s.teams := rfl
@[simp] theorem State.modCore_launches (s : State) (c : Nat) (f : Core → Core) : (s.modCore c f).launches = s.launches := rfl
@[simp] theorem State.modCore_tens (s : State) (c : Nat) (f : Core → Core) : (s.modCore c f).tens = s.tens := rfl
@[simp] theorem State.modCore_rotation (s : State) (c : Nat) (f : Core → Core) : (s.modCore c f).rotation = s.rotation := rfl
@[simp] theorem State.modCore_orders (s : State) (c : Nat) (f : Core → Core) : (s.modCore c f).orders = s.orders := rfl
@[simp] theorem State.modCore_admits (s : State) (c : Nat) (f : Core → Core) : (s.modCore c f).admits = s.admits := rfl
@[simp] theorem State.modCore_cores (s : State) (c : Nat) (f : Core → Core) : (s.modCore c f).cores = modAt s.cores c f := rfl
@[simp] theorem State.modCore_ctlb (s : State) (c : Nat) (f : Core → Core) : (s.modCore c f).ctlb = s.ctlb := rfl
@[simp] theorem State.modCore_dies (s : State) (c : Nat) (f : Core → Core) : (s.modCore c f).dies = s.dies := rfl
@[simp] theorem State.modCore_hbm (s : State) (c : Nat) (f : Core → Core) : (s.modCore c f).hbm = s.hbm := rfl
@[simp] theorem State.modCore_pseudo (s : State) (c : Nat) (f : Core → Core) : (s.modCore c f).pseudo = s.pseudo := rfl
@[simp] theorem State.modCore_optics (s : State) (c : Nat) (f : Core → Core) : (s.modCore c f).optics = s.optics := rfl
@[simp] theorem State.modCore_deadpeer (s : State) (c : Nat) (f : Core → Core) : (s.modCore c f).deadpeer = s.deadpeer := rfl
@[simp] theorem State.modCore_srcto (s : State) (c : Nat) (f : Core → Core) : (s.modCore c f).srcto = s.srcto := rfl
@[simp] theorem State.modCore_csrviol (s : State) (c : Nat) (f : Core → Core) : (s.modCore c f).csrviol = s.csrviol := rfl
@[simp] theorem State.modCore_sent (s : State) (c : Nat) (f : Core → Core) : (s.modCore c f).sent = s.sent := rfl
@[simp] theorem State.modCore_nextId (s : State) (c : Nat) (f : Core → Core) : (s.modCore c f).nextId = s.nextId := rfl
@[simp] theorem State.modCore_flits (s : State) (c : Nat) (f : Core → Core) : (s.modCore c f).flits = s.flits := rfl
@[simp] theorem State.modCore_peers (s : State) (c : Nat) (f : Core → Core) : (s.modCore c f).peers = s.peers := rfl
@[simp] theorem State.modCore_atsReqs (s : State) (c : Nat) (f : Core → Core) : (s.modCore c f).atsReqs = s.atsReqs := rfl
@[simp] theorem State.modCore_priOn (s : State) (c : Nat) (f : Core → Core) : (s.modCore c f).priOn = s.priOn := rfl
@[simp] theorem State.modCore_invals (s : State) (c : Nat) (f : Core → Core) : (s.modCore c f).invals = s.invals := rfl
@[simp] theorem State.modCore_purges (s : State) (c : Nat) (f : Core → Core) : (s.modCore c f).purges = s.purges := rfl
@[simp] theorem State.modCore_boot (s : State) (c : Nat) (f : Core → Core) : (s.modCore c f).boot = s.boot := rfl
@[simp] theorem State.modCore_ports (s : State) (c : Nat) (f : Core → Core) : (s.modCore c f).ports = s.ports := rfl
@[simp] theorem State.modCore_pcie (s : State) (c : Nat) (f : Core → Core) : (s.modCore c f).pcie = s.pcie := rfl
@[simp] theorem State.modCore_power (s : State) (c : Nat) (f : Core → Core) : (s.modCore c f).power = s.power := rfl
@[simp] theorem State.modCore_tripped (s : State) (c : Nat) (f : Core → Core) : (s.modCore c f).tripped = s.tripped := rfl
@[simp] theorem State.modCore_inputs (s : State) (c : Nat) (f : Core → Core) : (s.modCore c f).inputs = s.inputs := rfl
@[simp] theorem State.modCore_cur (s : State) (c : Nat) (f : Core → Core) : (s.modCore c f).cur = s.cur := rfl
@[simp] theorem State.modCore_free (s : State) (c : Nat) (f : Core → Core) : (s.modCore c f).free = s.free := rfl
@[simp] theorem State.modCore_outbox (s : State) (c : Nat) (f : Core → Core) : (s.modCore c f).outbox = s.outbox := rfl

/-! ## `State.modDie` -/

@[simp] theorem State.modDie_clock (s : State) (d : Bool) (f : Die → Die) : (s.modDie d f).clock = s.clock := rfl
@[simp] theorem State.modDie_mem (s : State) (d : Bool) (f : Die → Die) : (s.modDie d f).mem = s.mem := rfl
@[simp] theorem State.modDie_hostMem (s : State) (d : Bool) (f : Die → Die) : (s.modDie d f).hostMem = s.hostMem := rfl
@[simp] theorem State.modDie_groups (s : State) (d : Bool) (f : Die → Die) : (s.modDie d f).groups = s.groups := rfl
@[simp] theorem State.modDie_teams (s : State) (d : Bool) (f : Die → Die) : (s.modDie d f).teams = s.teams := rfl
@[simp] theorem State.modDie_launches (s : State) (d : Bool) (f : Die → Die) : (s.modDie d f).launches = s.launches := rfl
@[simp] theorem State.modDie_tens (s : State) (d : Bool) (f : Die → Die) : (s.modDie d f).tens = s.tens := rfl
@[simp] theorem State.modDie_rotation (s : State) (d : Bool) (f : Die → Die) : (s.modDie d f).rotation = s.rotation := rfl
@[simp] theorem State.modDie_orders (s : State) (d : Bool) (f : Die → Die) : (s.modDie d f).orders = s.orders := rfl
@[simp] theorem State.modDie_admits (s : State) (d : Bool) (f : Die → Die) : (s.modDie d f).admits = s.admits := rfl
@[simp] theorem State.modDie_cores (s : State) (d : Bool) (f : Die → Die) : (s.modDie d f).cores = s.cores := rfl
@[simp] theorem State.modDie_ctlb (s : State) (d : Bool) (f : Die → Die) : (s.modDie d f).ctlb = s.ctlb := rfl
@[simp] theorem State.modDie_dies (s : State) (d : Bool) (f : Die → Die) : (s.modDie d f).dies = modAt s.dies d.toNat f := rfl
@[simp] theorem State.modDie_hbm (s : State) (d : Bool) (f : Die → Die) : (s.modDie d f).hbm = s.hbm := rfl
@[simp] theorem State.modDie_pseudo (s : State) (d : Bool) (f : Die → Die) : (s.modDie d f).pseudo = s.pseudo := rfl
@[simp] theorem State.modDie_optics (s : State) (d : Bool) (f : Die → Die) : (s.modDie d f).optics = s.optics := rfl
@[simp] theorem State.modDie_deadpeer (s : State) (d : Bool) (f : Die → Die) : (s.modDie d f).deadpeer = s.deadpeer := rfl
@[simp] theorem State.modDie_srcto (s : State) (d : Bool) (f : Die → Die) : (s.modDie d f).srcto = s.srcto := rfl
@[simp] theorem State.modDie_csrviol (s : State) (d : Bool) (f : Die → Die) : (s.modDie d f).csrviol = s.csrviol := rfl
@[simp] theorem State.modDie_sent (s : State) (d : Bool) (f : Die → Die) : (s.modDie d f).sent = s.sent := rfl
@[simp] theorem State.modDie_nextId (s : State) (d : Bool) (f : Die → Die) : (s.modDie d f).nextId = s.nextId := rfl
@[simp] theorem State.modDie_flits (s : State) (d : Bool) (f : Die → Die) : (s.modDie d f).flits = s.flits := rfl
@[simp] theorem State.modDie_peers (s : State) (d : Bool) (f : Die → Die) : (s.modDie d f).peers = s.peers := rfl
@[simp] theorem State.modDie_atsReqs (s : State) (d : Bool) (f : Die → Die) : (s.modDie d f).atsReqs = s.atsReqs := rfl
@[simp] theorem State.modDie_priOn (s : State) (d : Bool) (f : Die → Die) : (s.modDie d f).priOn = s.priOn := rfl
@[simp] theorem State.modDie_invals (s : State) (d : Bool) (f : Die → Die) : (s.modDie d f).invals = s.invals := rfl
@[simp] theorem State.modDie_purges (s : State) (d : Bool) (f : Die → Die) : (s.modDie d f).purges = s.purges := rfl
@[simp] theorem State.modDie_boot (s : State) (d : Bool) (f : Die → Die) : (s.modDie d f).boot = s.boot := rfl
@[simp] theorem State.modDie_ports (s : State) (d : Bool) (f : Die → Die) : (s.modDie d f).ports = s.ports := rfl
@[simp] theorem State.modDie_pcie (s : State) (d : Bool) (f : Die → Die) : (s.modDie d f).pcie = s.pcie := rfl
@[simp] theorem State.modDie_power (s : State) (d : Bool) (f : Die → Die) : (s.modDie d f).power = s.power := rfl
@[simp] theorem State.modDie_tripped (s : State) (d : Bool) (f : Die → Die) : (s.modDie d f).tripped = s.tripped := rfl
@[simp] theorem State.modDie_inputs (s : State) (d : Bool) (f : Die → Die) : (s.modDie d f).inputs = s.inputs := rfl
@[simp] theorem State.modDie_cur (s : State) (d : Bool) (f : Die → Die) : (s.modDie d f).cur = s.cur := rfl
@[simp] theorem State.modDie_free (s : State) (d : Bool) (f : Die → Die) : (s.modDie d f).free = s.free := rfl
@[simp] theorem State.modDie_outbox (s : State) (d : Bool) (f : Die → Die) : (s.modDie d f).outbox = s.outbox := rfl

/-! ## `State.modStack` -/

@[simp] theorem State.modStack_clock (s : State) (k : Nat) (f : Stack → Stack) : (s.modStack k f).clock = s.clock := rfl
@[simp] theorem State.modStack_mem (s : State) (k : Nat) (f : Stack → Stack) : (s.modStack k f).mem = s.mem := rfl
@[simp] theorem State.modStack_hostMem (s : State) (k : Nat) (f : Stack → Stack) : (s.modStack k f).hostMem = s.hostMem := rfl
@[simp] theorem State.modStack_groups (s : State) (k : Nat) (f : Stack → Stack) : (s.modStack k f).groups = s.groups := rfl
@[simp] theorem State.modStack_teams (s : State) (k : Nat) (f : Stack → Stack) : (s.modStack k f).teams = s.teams := rfl
@[simp] theorem State.modStack_launches (s : State) (k : Nat) (f : Stack → Stack) : (s.modStack k f).launches = s.launches := rfl
@[simp] theorem State.modStack_tens (s : State) (k : Nat) (f : Stack → Stack) : (s.modStack k f).tens = s.tens := rfl
@[simp] theorem State.modStack_rotation (s : State) (k : Nat) (f : Stack → Stack) : (s.modStack k f).rotation = s.rotation := rfl
@[simp] theorem State.modStack_orders (s : State) (k : Nat) (f : Stack → Stack) : (s.modStack k f).orders = s.orders := rfl
@[simp] theorem State.modStack_admits (s : State) (k : Nat) (f : Stack → Stack) : (s.modStack k f).admits = s.admits := rfl
@[simp] theorem State.modStack_cores (s : State) (k : Nat) (f : Stack → Stack) : (s.modStack k f).cores = s.cores := rfl
@[simp] theorem State.modStack_ctlb (s : State) (k : Nat) (f : Stack → Stack) : (s.modStack k f).ctlb = s.ctlb := rfl
@[simp] theorem State.modStack_dies (s : State) (k : Nat) (f : Stack → Stack) : (s.modStack k f).dies = s.dies := rfl
@[simp] theorem State.modStack_hbm (s : State) (k : Nat) (f : Stack → Stack) : (s.modStack k f).hbm = modAt s.hbm k f := rfl
@[simp] theorem State.modStack_pseudo (s : State) (k : Nat) (f : Stack → Stack) : (s.modStack k f).pseudo = s.pseudo := rfl
@[simp] theorem State.modStack_optics (s : State) (k : Nat) (f : Stack → Stack) : (s.modStack k f).optics = s.optics := rfl
@[simp] theorem State.modStack_deadpeer (s : State) (k : Nat) (f : Stack → Stack) : (s.modStack k f).deadpeer = s.deadpeer := rfl
@[simp] theorem State.modStack_srcto (s : State) (k : Nat) (f : Stack → Stack) : (s.modStack k f).srcto = s.srcto := rfl
@[simp] theorem State.modStack_csrviol (s : State) (k : Nat) (f : Stack → Stack) : (s.modStack k f).csrviol = s.csrviol := rfl
@[simp] theorem State.modStack_sent (s : State) (k : Nat) (f : Stack → Stack) : (s.modStack k f).sent = s.sent := rfl
@[simp] theorem State.modStack_nextId (s : State) (k : Nat) (f : Stack → Stack) : (s.modStack k f).nextId = s.nextId := rfl
@[simp] theorem State.modStack_flits (s : State) (k : Nat) (f : Stack → Stack) : (s.modStack k f).flits = s.flits := rfl
@[simp] theorem State.modStack_peers (s : State) (k : Nat) (f : Stack → Stack) : (s.modStack k f).peers = s.peers := rfl
@[simp] theorem State.modStack_atsReqs (s : State) (k : Nat) (f : Stack → Stack) : (s.modStack k f).atsReqs = s.atsReqs := rfl
@[simp] theorem State.modStack_priOn (s : State) (k : Nat) (f : Stack → Stack) : (s.modStack k f).priOn = s.priOn := rfl
@[simp] theorem State.modStack_invals (s : State) (k : Nat) (f : Stack → Stack) : (s.modStack k f).invals = s.invals := rfl
@[simp] theorem State.modStack_purges (s : State) (k : Nat) (f : Stack → Stack) : (s.modStack k f).purges = s.purges := rfl
@[simp] theorem State.modStack_boot (s : State) (k : Nat) (f : Stack → Stack) : (s.modStack k f).boot = s.boot := rfl
@[simp] theorem State.modStack_ports (s : State) (k : Nat) (f : Stack → Stack) : (s.modStack k f).ports = s.ports := rfl
@[simp] theorem State.modStack_pcie (s : State) (k : Nat) (f : Stack → Stack) : (s.modStack k f).pcie = s.pcie := rfl
@[simp] theorem State.modStack_power (s : State) (k : Nat) (f : Stack → Stack) : (s.modStack k f).power = s.power := rfl
@[simp] theorem State.modStack_tripped (s : State) (k : Nat) (f : Stack → Stack) : (s.modStack k f).tripped = s.tripped := rfl
@[simp] theorem State.modStack_inputs (s : State) (k : Nat) (f : Stack → Stack) : (s.modStack k f).inputs = s.inputs := rfl
@[simp] theorem State.modStack_cur (s : State) (k : Nat) (f : Stack → Stack) : (s.modStack k f).cur = s.cur := rfl
@[simp] theorem State.modStack_free (s : State) (k : Nat) (f : Stack → Stack) : (s.modStack k f).free = s.free := rfl
@[simp] theorem State.modStack_outbox (s : State) (k : Nat) (f : Stack → Stack) : (s.modStack k f).outbox = s.outbox := rfl

/-! ## `State.emit` -/

@[simp] theorem State.emit_clock (s : State) (o : Out) : (s.emit o).clock = s.clock := rfl
@[simp] theorem State.emit_mem (s : State) (o : Out) : (s.emit o).mem = s.mem := rfl
@[simp] theorem State.emit_hostMem (s : State) (o : Out) : (s.emit o).hostMem = s.hostMem := rfl
@[simp] theorem State.emit_groups (s : State) (o : Out) : (s.emit o).groups = s.groups := rfl
@[simp] theorem State.emit_teams (s : State) (o : Out) : (s.emit o).teams = s.teams := rfl
@[simp] theorem State.emit_launches (s : State) (o : Out) : (s.emit o).launches = s.launches := rfl
@[simp] theorem State.emit_tens (s : State) (o : Out) : (s.emit o).tens = s.tens := rfl
@[simp] theorem State.emit_rotation (s : State) (o : Out) : (s.emit o).rotation = s.rotation := rfl
@[simp] theorem State.emit_orders (s : State) (o : Out) : (s.emit o).orders = s.orders := rfl
@[simp] theorem State.emit_admits (s : State) (o : Out) : (s.emit o).admits = s.admits := rfl
@[simp] theorem State.emit_cores (s : State) (o : Out) : (s.emit o).cores = s.cores := rfl
@[simp] theorem State.emit_ctlb (s : State) (o : Out) : (s.emit o).ctlb = s.ctlb := rfl
@[simp] theorem State.emit_dies (s : State) (o : Out) : (s.emit o).dies = s.dies := rfl
@[simp] theorem State.emit_hbm (s : State) (o : Out) : (s.emit o).hbm = s.hbm := rfl
@[simp] theorem State.emit_pseudo (s : State) (o : Out) : (s.emit o).pseudo = s.pseudo := rfl
@[simp] theorem State.emit_optics (s : State) (o : Out) : (s.emit o).optics = s.optics := rfl
@[simp] theorem State.emit_deadpeer (s : State) (o : Out) : (s.emit o).deadpeer = s.deadpeer := rfl
@[simp] theorem State.emit_srcto (s : State) (o : Out) : (s.emit o).srcto = s.srcto := rfl
@[simp] theorem State.emit_csrviol (s : State) (o : Out) : (s.emit o).csrviol = s.csrviol := rfl
@[simp] theorem State.emit_sent (s : State) (o : Out) : (s.emit o).sent = s.sent := rfl
@[simp] theorem State.emit_nextId (s : State) (o : Out) : (s.emit o).nextId = s.nextId := rfl
@[simp] theorem State.emit_flits (s : State) (o : Out) : (s.emit o).flits = s.flits := rfl
@[simp] theorem State.emit_peers (s : State) (o : Out) : (s.emit o).peers = s.peers := rfl
@[simp] theorem State.emit_atsReqs (s : State) (o : Out) : (s.emit o).atsReqs = s.atsReqs := rfl
@[simp] theorem State.emit_priOn (s : State) (o : Out) : (s.emit o).priOn = s.priOn := rfl
@[simp] theorem State.emit_invals (s : State) (o : Out) : (s.emit o).invals = s.invals := rfl
@[simp] theorem State.emit_purges (s : State) (o : Out) : (s.emit o).purges = s.purges := rfl
@[simp] theorem State.emit_boot (s : State) (o : Out) : (s.emit o).boot = s.boot := rfl
@[simp] theorem State.emit_ports (s : State) (o : Out) : (s.emit o).ports = s.ports := rfl
@[simp] theorem State.emit_pcie (s : State) (o : Out) : (s.emit o).pcie = s.pcie := rfl
@[simp] theorem State.emit_power (s : State) (o : Out) : (s.emit o).power = s.power := rfl
@[simp] theorem State.emit_tripped (s : State) (o : Out) : (s.emit o).tripped = s.tripped := rfl
@[simp] theorem State.emit_inputs (s : State) (o : Out) : (s.emit o).inputs = s.inputs := rfl
@[simp] theorem State.emit_cur (s : State) (o : Out) : (s.emit o).cur = s.cur := rfl
@[simp] theorem State.emit_free (s : State) (o : Out) : (s.emit o).free = s.free := rfl
@[simp] theorem State.emit_outbox (s : State) (o : Out) : (s.emit o).outbox = s.outbox ++ [o] := rfl

/-! ## `State.wrMem` -/

@[simp] theorem State.wrMem_clock (s : State) (pa n v : Nat) : (s.wrMem pa n v).clock = s.clock := rfl
@[simp] theorem State.wrMem_mem (s : State) (pa n v : Nat) : (s.wrMem pa n v).mem = Cells.writeLE s.mem pa n v := rfl
@[simp] theorem State.wrMem_hostMem (s : State) (pa n v : Nat) : (s.wrMem pa n v).hostMem = s.hostMem := rfl
@[simp] theorem State.wrMem_groups (s : State) (pa n v : Nat) : (s.wrMem pa n v).groups = s.groups := rfl
@[simp] theorem State.wrMem_teams (s : State) (pa n v : Nat) : (s.wrMem pa n v).teams = s.teams := rfl
@[simp] theorem State.wrMem_launches (s : State) (pa n v : Nat) : (s.wrMem pa n v).launches = s.launches := rfl
@[simp] theorem State.wrMem_tens (s : State) (pa n v : Nat) : (s.wrMem pa n v).tens = s.tens := rfl
@[simp] theorem State.wrMem_rotation (s : State) (pa n v : Nat) : (s.wrMem pa n v).rotation = s.rotation := rfl
@[simp] theorem State.wrMem_orders (s : State) (pa n v : Nat) : (s.wrMem pa n v).orders = s.orders := rfl
@[simp] theorem State.wrMem_admits (s : State) (pa n v : Nat) : (s.wrMem pa n v).admits = s.admits := rfl
@[simp] theorem State.wrMem_cores (s : State) (pa n v : Nat) : (s.wrMem pa n v).cores = s.cores := rfl
@[simp] theorem State.wrMem_ctlb (s : State) (pa n v : Nat) : (s.wrMem pa n v).ctlb = s.ctlb := rfl
@[simp] theorem State.wrMem_dies (s : State) (pa n v : Nat) : (s.wrMem pa n v).dies = s.dies := rfl
@[simp] theorem State.wrMem_hbm (s : State) (pa n v : Nat) : (s.wrMem pa n v).hbm = s.hbm := rfl
@[simp] theorem State.wrMem_pseudo (s : State) (pa n v : Nat) : (s.wrMem pa n v).pseudo = s.pseudo := rfl
@[simp] theorem State.wrMem_optics (s : State) (pa n v : Nat) : (s.wrMem pa n v).optics = s.optics := rfl
@[simp] theorem State.wrMem_deadpeer (s : State) (pa n v : Nat) : (s.wrMem pa n v).deadpeer = s.deadpeer := rfl
@[simp] theorem State.wrMem_srcto (s : State) (pa n v : Nat) : (s.wrMem pa n v).srcto = s.srcto := rfl
@[simp] theorem State.wrMem_csrviol (s : State) (pa n v : Nat) : (s.wrMem pa n v).csrviol = s.csrviol := rfl
@[simp] theorem State.wrMem_sent (s : State) (pa n v : Nat) : (s.wrMem pa n v).sent = s.sent := rfl
@[simp] theorem State.wrMem_nextId (s : State) (pa n v : Nat) : (s.wrMem pa n v).nextId = s.nextId := rfl
@[simp] theorem State.wrMem_flits (s : State) (pa n v : Nat) : (s.wrMem pa n v).flits = s.flits := rfl
@[simp] theorem State.wrMem_peers (s : State) (pa n v : Nat) : (s.wrMem pa n v).peers = s.peers := rfl
@[simp] theorem State.wrMem_atsReqs (s : State) (pa n v : Nat) : (s.wrMem pa n v).atsReqs = s.atsReqs := rfl
@[simp] theorem State.wrMem_priOn (s : State) (pa n v : Nat) : (s.wrMem pa n v).priOn = s.priOn := rfl
@[simp] theorem State.wrMem_invals (s : State) (pa n v : Nat) : (s.wrMem pa n v).invals = s.invals := rfl
@[simp] theorem State.wrMem_purges (s : State) (pa n v : Nat) : (s.wrMem pa n v).purges = s.purges := rfl
@[simp] theorem State.wrMem_boot (s : State) (pa n v : Nat) : (s.wrMem pa n v).boot = s.boot := rfl
@[simp] theorem State.wrMem_ports (s : State) (pa n v : Nat) : (s.wrMem pa n v).ports = s.ports := rfl
@[simp] theorem State.wrMem_pcie (s : State) (pa n v : Nat) : (s.wrMem pa n v).pcie = s.pcie := rfl
@[simp] theorem State.wrMem_power (s : State) (pa n v : Nat) : (s.wrMem pa n v).power = s.power := rfl
@[simp] theorem State.wrMem_tripped (s : State) (pa n v : Nat) : (s.wrMem pa n v).tripped = s.tripped := rfl
@[simp] theorem State.wrMem_inputs (s : State) (pa n v : Nat) : (s.wrMem pa n v).inputs = s.inputs := rfl
@[simp] theorem State.wrMem_cur (s : State) (pa n v : Nat) : (s.wrMem pa n v).cur = s.cur := rfl
@[simp] theorem State.wrMem_free (s : State) (pa n v : Nat) : (s.wrMem pa n v).free = s.free := rfl
@[simp] theorem State.wrMem_outbox (s : State) (pa n v : Nat) : (s.wrMem pa n v).outbox = s.outbox := rfl

/-! ## `State.wrBytes` -/

@[simp] theorem State.wrBytes_clock (s : State) (pa : Nat) (bs : List Byte) : (s.wrBytes pa bs).clock = s.clock := rfl
@[simp] theorem State.wrBytes_mem (s : State) (pa : Nat) (bs : List Byte) : (s.wrBytes pa bs).mem = Cells.writeN s.mem pa bs := rfl
@[simp] theorem State.wrBytes_hostMem (s : State) (pa : Nat) (bs : List Byte) : (s.wrBytes pa bs).hostMem = s.hostMem := rfl
@[simp] theorem State.wrBytes_groups (s : State) (pa : Nat) (bs : List Byte) : (s.wrBytes pa bs).groups = s.groups := rfl
@[simp] theorem State.wrBytes_teams (s : State) (pa : Nat) (bs : List Byte) : (s.wrBytes pa bs).teams = s.teams := rfl
@[simp] theorem State.wrBytes_launches (s : State) (pa : Nat) (bs : List Byte) : (s.wrBytes pa bs).launches = s.launches := rfl
@[simp] theorem State.wrBytes_tens (s : State) (pa : Nat) (bs : List Byte) : (s.wrBytes pa bs).tens = s.tens := rfl
@[simp] theorem State.wrBytes_rotation (s : State) (pa : Nat) (bs : List Byte) : (s.wrBytes pa bs).rotation = s.rotation := rfl
@[simp] theorem State.wrBytes_orders (s : State) (pa : Nat) (bs : List Byte) : (s.wrBytes pa bs).orders = s.orders := rfl
@[simp] theorem State.wrBytes_admits (s : State) (pa : Nat) (bs : List Byte) : (s.wrBytes pa bs).admits = s.admits := rfl
@[simp] theorem State.wrBytes_cores (s : State) (pa : Nat) (bs : List Byte) : (s.wrBytes pa bs).cores = s.cores := rfl
@[simp] theorem State.wrBytes_ctlb (s : State) (pa : Nat) (bs : List Byte) : (s.wrBytes pa bs).ctlb = s.ctlb := rfl
@[simp] theorem State.wrBytes_dies (s : State) (pa : Nat) (bs : List Byte) : (s.wrBytes pa bs).dies = s.dies := rfl
@[simp] theorem State.wrBytes_hbm (s : State) (pa : Nat) (bs : List Byte) : (s.wrBytes pa bs).hbm = s.hbm := rfl
@[simp] theorem State.wrBytes_pseudo (s : State) (pa : Nat) (bs : List Byte) : (s.wrBytes pa bs).pseudo = s.pseudo := rfl
@[simp] theorem State.wrBytes_optics (s : State) (pa : Nat) (bs : List Byte) : (s.wrBytes pa bs).optics = s.optics := rfl
@[simp] theorem State.wrBytes_deadpeer (s : State) (pa : Nat) (bs : List Byte) : (s.wrBytes pa bs).deadpeer = s.deadpeer := rfl
@[simp] theorem State.wrBytes_srcto (s : State) (pa : Nat) (bs : List Byte) : (s.wrBytes pa bs).srcto = s.srcto := rfl
@[simp] theorem State.wrBytes_csrviol (s : State) (pa : Nat) (bs : List Byte) : (s.wrBytes pa bs).csrviol = s.csrviol := rfl
@[simp] theorem State.wrBytes_sent (s : State) (pa : Nat) (bs : List Byte) : (s.wrBytes pa bs).sent = s.sent := rfl
@[simp] theorem State.wrBytes_nextId (s : State) (pa : Nat) (bs : List Byte) : (s.wrBytes pa bs).nextId = s.nextId := rfl
@[simp] theorem State.wrBytes_flits (s : State) (pa : Nat) (bs : List Byte) : (s.wrBytes pa bs).flits = s.flits := rfl
@[simp] theorem State.wrBytes_peers (s : State) (pa : Nat) (bs : List Byte) : (s.wrBytes pa bs).peers = s.peers := rfl
@[simp] theorem State.wrBytes_atsReqs (s : State) (pa : Nat) (bs : List Byte) : (s.wrBytes pa bs).atsReqs = s.atsReqs := rfl
@[simp] theorem State.wrBytes_priOn (s : State) (pa : Nat) (bs : List Byte) : (s.wrBytes pa bs).priOn = s.priOn := rfl
@[simp] theorem State.wrBytes_invals (s : State) (pa : Nat) (bs : List Byte) : (s.wrBytes pa bs).invals = s.invals := rfl
@[simp] theorem State.wrBytes_purges (s : State) (pa : Nat) (bs : List Byte) : (s.wrBytes pa bs).purges = s.purges := rfl
@[simp] theorem State.wrBytes_boot (s : State) (pa : Nat) (bs : List Byte) : (s.wrBytes pa bs).boot = s.boot := rfl
@[simp] theorem State.wrBytes_ports (s : State) (pa : Nat) (bs : List Byte) : (s.wrBytes pa bs).ports = s.ports := rfl
@[simp] theorem State.wrBytes_pcie (s : State) (pa : Nat) (bs : List Byte) : (s.wrBytes pa bs).pcie = s.pcie := rfl
@[simp] theorem State.wrBytes_power (s : State) (pa : Nat) (bs : List Byte) : (s.wrBytes pa bs).power = s.power := rfl
@[simp] theorem State.wrBytes_tripped (s : State) (pa : Nat) (bs : List Byte) : (s.wrBytes pa bs).tripped = s.tripped := rfl
@[simp] theorem State.wrBytes_inputs (s : State) (pa : Nat) (bs : List Byte) : (s.wrBytes pa bs).inputs = s.inputs := rfl
@[simp] theorem State.wrBytes_cur (s : State) (pa : Nat) (bs : List Byte) : (s.wrBytes pa bs).cur = s.cur := rfl
@[simp] theorem State.wrBytes_free (s : State) (pa : Nat) (bs : List Byte) : (s.wrBytes pa bs).free = s.free := rfl
@[simp] theorem State.wrBytes_outbox (s : State) (pa : Nat) (bs : List Byte) : (s.wrBytes pa bs).outbox = s.outbox := rfl

/-! ## `State.setFroz` -/

@[simp] theorem State.setFroz_clock (s : State) (t : Nat) (b : Bool) : (s.setFroz t b).clock = s.clock := rfl
@[simp] theorem State.setFroz_mem (s : State) (t : Nat) (b : Bool) : (s.setFroz t b).mem = s.mem := rfl
@[simp] theorem State.setFroz_hostMem (s : State) (t : Nat) (b : Bool) : (s.setFroz t b).hostMem = s.hostMem := rfl
@[simp] theorem State.setFroz_groups (s : State) (t : Nat) (b : Bool) : (s.setFroz t b).groups = s.groups := rfl
@[simp] theorem State.setFroz_teams (s : State) (t : Nat) (b : Bool) : (s.setFroz t b).teams = s.teams := rfl
@[simp] theorem State.setFroz_launches (s : State) (t : Nat) (b : Bool) : (s.setFroz t b).launches = s.launches := rfl
@[simp] theorem State.setFroz_rotation (s : State) (t : Nat) (b : Bool) : (s.setFroz t b).rotation = s.rotation := rfl
@[simp] theorem State.setFroz_orders (s : State) (t : Nat) (b : Bool) : (s.setFroz t b).orders = s.orders := rfl
@[simp] theorem State.setFroz_admits (s : State) (t : Nat) (b : Bool) : (s.setFroz t b).admits = s.admits := rfl
@[simp] theorem State.setFroz_cores (s : State) (t : Nat) (b : Bool) : (s.setFroz t b).cores = s.cores := rfl
@[simp] theorem State.setFroz_ctlb (s : State) (t : Nat) (b : Bool) : (s.setFroz t b).ctlb = s.ctlb := rfl
@[simp] theorem State.setFroz_dies (s : State) (t : Nat) (b : Bool) : (s.setFroz t b).dies = s.dies := rfl
@[simp] theorem State.setFroz_hbm (s : State) (t : Nat) (b : Bool) : (s.setFroz t b).hbm = s.hbm := rfl
@[simp] theorem State.setFroz_pseudo (s : State) (t : Nat) (b : Bool) : (s.setFroz t b).pseudo = s.pseudo := rfl
@[simp] theorem State.setFroz_optics (s : State) (t : Nat) (b : Bool) : (s.setFroz t b).optics = s.optics := rfl
@[simp] theorem State.setFroz_deadpeer (s : State) (t : Nat) (b : Bool) : (s.setFroz t b).deadpeer = s.deadpeer := rfl
@[simp] theorem State.setFroz_srcto (s : State) (t : Nat) (b : Bool) : (s.setFroz t b).srcto = s.srcto := rfl
@[simp] theorem State.setFroz_csrviol (s : State) (t : Nat) (b : Bool) : (s.setFroz t b).csrviol = s.csrviol := rfl
@[simp] theorem State.setFroz_sent (s : State) (t : Nat) (b : Bool) : (s.setFroz t b).sent = s.sent := rfl
@[simp] theorem State.setFroz_nextId (s : State) (t : Nat) (b : Bool) : (s.setFroz t b).nextId = s.nextId := rfl
@[simp] theorem State.setFroz_flits (s : State) (t : Nat) (b : Bool) : (s.setFroz t b).flits = s.flits := rfl
@[simp] theorem State.setFroz_peers (s : State) (t : Nat) (b : Bool) : (s.setFroz t b).peers = s.peers := rfl
@[simp] theorem State.setFroz_atsReqs (s : State) (t : Nat) (b : Bool) : (s.setFroz t b).atsReqs = s.atsReqs := rfl
@[simp] theorem State.setFroz_priOn (s : State) (t : Nat) (b : Bool) : (s.setFroz t b).priOn = s.priOn := rfl
@[simp] theorem State.setFroz_invals (s : State) (t : Nat) (b : Bool) : (s.setFroz t b).invals = s.invals := rfl
@[simp] theorem State.setFroz_purges (s : State) (t : Nat) (b : Bool) : (s.setFroz t b).purges = s.purges := rfl
@[simp] theorem State.setFroz_boot (s : State) (t : Nat) (b : Bool) : (s.setFroz t b).boot = s.boot := rfl
@[simp] theorem State.setFroz_ports (s : State) (t : Nat) (b : Bool) : (s.setFroz t b).ports = s.ports := rfl
@[simp] theorem State.setFroz_pcie (s : State) (t : Nat) (b : Bool) : (s.setFroz t b).pcie = s.pcie := rfl
@[simp] theorem State.setFroz_power (s : State) (t : Nat) (b : Bool) : (s.setFroz t b).power = s.power := rfl
@[simp] theorem State.setFroz_tripped (s : State) (t : Nat) (b : Bool) : (s.setFroz t b).tripped = s.tripped := rfl
@[simp] theorem State.setFroz_inputs (s : State) (t : Nat) (b : Bool) : (s.setFroz t b).inputs = s.inputs := rfl
@[simp] theorem State.setFroz_cur (s : State) (t : Nat) (b : Bool) : (s.setFroz t b).cur = s.cur := rfl
@[simp] theorem State.setFroz_free (s : State) (t : Nat) (b : Bool) : (s.setFroz t b).free = s.free := rfl
@[simp] theorem State.setFroz_outbox (s : State) (t : Nat) (b : Bool) : (s.setFroz t b).outbox = s.outbox := rfl

/-! ## Entries of a changed list -/

@[simp] theorem modAt_length {α : Type} (l : List α) (i : Nat) (f : α → α) : (modAt l i f).length = l.length := by
  induction l generalizing i with
  | nil => simp [modAt]
  | cons x xs ih => cases i <;> simp [modAt, ih]

theorem modAt_get {α : Type} (l : List α) (i j : Nat) (f : α → α) :
    (modAt l i f)[j]? = if i = j then (l[j]?).map f else l[j]? := by
  induction l generalizing i j with
  | nil => simp [modAt]
  | cons x xs ih => cases i <;> cases j <;> simp [modAt, ih]

@[simp] theorem modAt_get_self {α : Type} (l : List α) (i : Nat) (f : α → α) : (modAt l i f)[i]? = (l[i]?).map f := by
  simp [modAt_get]

theorem modAt_get_ne {α : Type} (l : List α) {i j : Nat} (f : α → α) (h : i ≠ j) : (modAt l i f)[j]? = l[j]? := by
  simp [modAt_get, h]

theorem modAt_comp {α : Type} (l : List α) (i : Nat) (f g : α → α) : modAt (modAt l i f) i g = modAt l i (g ∘ f) := by
  induction l generalizing i with
  | nil => rfl
  | cons x xs ih => cases i <;> simp [modAt, ih]

theorem State.group_eq {s : State} {g : Nat} {G : Group} (h : s.groups[g]? = some G) : s.group g = G := by
  simp [State.group, h]

theorem State.group_modGroup {s : State} {g : Nat} {G : Group} (h : s.groups[g]? = some G) (f : Group → Group) :
    (s.modGroup g f).group g = f G := by
  simp [State.group, h]

theorem State.group_modGroup_ne (s : State) {g j : Nat} (f : Group → Group) (h : g ≠ j) : (s.modGroup g f).group j = s.group j := by
  simp [State.group, modAt_get_ne _ f h]

theorem State.modGroup_modGroup (s : State) (g : Nat) (f k : Group → Group) : (s.modGroup g f).modGroup g k = s.modGroup g (k ∘ f) := by
  simp [State.modGroup, modAt_comp]

@[simp] theorem State.team_modGroup (s : State) (g : Nat) (f : Group → Group) (t : Nat) : (s.modGroup g f).team t = s.team t := rfl
@[simp] theorem State.launch_modGroup (s : State) (g : Nat) (f : Group → Group) (l : Nat) : (s.modGroup g f).launch l = s.launch l := rfl
@[simp] theorem State.ten_modGroup (s : State) (g : Nat) (f : Group → Group) (t : Nat) : (s.modGroup g f).ten t = s.ten t := rfl
@[simp] theorem State.core_modGroup (s : State) (g : Nat) (f : Group → Group) (c : Nat) : (s.modGroup g f).core c = s.core c := rfl
@[simp] theorem State.group_modTeam (s : State) (t : Nat) (f : Team → Team) (g : Nat) : (s.modTeam t f).group g = s.group g := rfl
@[simp] theorem State.group_modTen (s : State) (t : Nat) (f : Tenancy → Tenancy) (g : Nat) : (s.modTen t f).group g = s.group g := rfl
@[simp] theorem State.group_modCore (s : State) (c : Nat) (f : Core → Core) (g : Nat) : (s.modCore c f).group g = s.group g := rfl
@[simp] theorem State.group_modLaunch (s : State) (l : Nat) (f : Launch → Launch) (g : Nat) : (s.modLaunch l f).group g = s.group g := rfl
@[simp] theorem State.group_emit (s : State) (o : Out) (g : Nat) : (s.emit o).group g = s.group g := rfl

end Sys2Proof.Machine
end

