-- ==== Sys2Proof/Laws/Cells.lean ====
section
/-! SUPPORT. Laws/Cells.lean: memory operations keep the canonical form, and the operations of the state through which
memory is written keep it too (log 1). Read after write is a statement for the provers and is not proved here. -/

namespace Sys2Proof.Machine

/-! ## The canonical form -/

theorem Cells.above_mono {lo hi : Nat} {m : List Host.Cell} (h : Cells.above hi m = true) (hl : lo ≤ hi) :
    Cells.above lo m = true := by
  cases m with
  | nil => rfl
  | cons c m =>
    simp only [Cells.above, Bool.and_eq_true, decide_eq_true_eq] at h ⊢
    exact ⟨⟨by omega, h.1.2⟩, h.2⟩

theorem Cells.wf_of_above {lo : Nat} {m : List Host.Cell} (h : Cells.above lo m = true) : Cells.wf m = true := by
  cases m with
  | nil => rfl
  | cons c m =>
    simp only [Cells.above, Bool.and_eq_true] at h
    simp [Cells.wf, h.1.2, h.2]

theorem Cells.write_above {lo : Nat} {m : List Host.Cell} (h : Cells.above lo m = true) {x : Nat} (hx : lo < x) (v : Byte) :
    Cells.above lo (Cells.write m x v) = true := by
  induction m generalizing lo with
  | nil => unfold Cells.write; split <;> simp_all [Cells.above]
  | cons c m ih =>
    obtain ⟨a, b⟩ := c
    simp only [Cells.above, Bool.and_eq_true, decide_eq_true_eq] at h
    unfold Cells.write
    split
    · split
      · simp [Cells.above, h]
      · simp [Cells.above, *]
    · split
      · split
        · exact Cells.above_mono h.2 (by omega)
        · simp_all [Cells.above]
      · simp [Cells.above, h, ih h.2 (show a < x by omega)]

theorem Cells.write_wf {m : List Host.Cell} (h : Cells.wf m = true) (x : Nat) (v : Byte) : Cells.wf (Cells.write m x v) = true := by
  cases m with
  | nil => unfold Cells.write; split <;> simp_all [Cells.wf, Cells.above]
  | cons c m =>
    obtain ⟨a, b⟩ := c
    simp only [Cells.wf, Bool.and_eq_true] at h
    unfold Cells.write
    split
    · split
      · simp [Cells.wf, h]
      · simp [Cells.wf, Cells.above, *]
    · split
      · split
        · exact Cells.wf_of_above h.2
        · simp_all [Cells.wf]
      · simp [Cells.wf, h, Cells.write_above h.2 (show a < x by omega)]

theorem Cells.writeN_wf {m : List Host.Cell} (h : Cells.wf m = true) (x : Nat) (bs : List Byte) :
    Cells.wf (Cells.writeN m x bs) = true := by
  induction bs generalizing m x with
  | nil => exact h
  | cons b bs ih => exact ih (Cells.write_wf h x b) (x + 1)

theorem Cells.writeLE_wf {m : List Host.Cell} (h : Cells.wf m = true) (x n v : Nat) : Cells.wf (Cells.writeLE m x n v) = true :=
  Cells.writeN_wf h x _

theorem Cells.filter_above {lo : Nat} {m : List Host.Cell} (p : Host.Cell → Bool) (h : Cells.above lo m = true) :
    Cells.above lo (m.filter p) = true := by
  induction m generalizing lo with
  | nil => rfl
  | cons c m ih =>
    simp only [Cells.above, Bool.and_eq_true, decide_eq_true_eq] at h
    by_cases hp : p c
    · simp [hp, Cells.above, h, ih h.2]
    · simpa [List.filter_cons, hp] using ih (Cells.above_mono h.2 (by omega))

theorem Cells.filter_wf {m : List Host.Cell} (p : Host.Cell → Bool) (h : Cells.wf m = true) : Cells.wf (m.filter p) = true := by
  cases m with
  | nil => rfl
  | cons c m =>
    simp only [Cells.wf, Bool.and_eq_true] at h
    by_cases hp : p c
    · simp [hp, Cells.wf, h, Cells.filter_above p h.2]
    · simpa [List.filter_cons, hp] using Cells.wf_of_above (Cells.filter_above p h.2)

theorem Cells.clear_wf {m : List Host.Cell} (h : Cells.wf m = true) (x n : Nat) : Cells.wf (Cells.clear m x n) = true :=
  Cells.filter_wf _ h

/-- A fold of writes keeps the form when each write does. -/
theorem Cells.foldl_wf {α : Type} {f : List Host.Cell → α → List Host.Cell}
    (hf : ∀ m a, Cells.wf m = true → Cells.wf (f m a) = true) (l : List α) {m : List Host.Cell} (h : Cells.wf m = true) :
    Cells.wf (l.foldl f m) = true := by
  induction l generalizing m with
  | nil => exact h
  | cons a l ih => exact ih (hf m a h)

end Sys2Proof.Machine

namespace Sys2Proof

open Machine

/-! ## The operations of the state that write memory -/

/-- A fold of state operations keeps an invariant when each of them does. -/
theorem Machine.State.foldl_inv {α : Type} {P : State → Prop} {f : State → α → State} (hf : ∀ s a, P s → P (f s a)) (l : List α)
    {s : State} (h : P s) : P (l.foldl f s) := by
  induction l generalizing s with
  | nil => exact h
  | cons a l ih => exact ih (hf s a h)

theorem MemWf.of_eq {s t : State} (h : MemWf s) (hm : t.mem = s.mem) (hh : t.hostMem = s.hostMem) : MemWf t :=
  ⟨hm ▸ h.mem, hh ▸ h.host⟩

theorem MemWf.modGroup {s : State} (h : MemWf s) (g : Nat) (f : Group → Group) : MemWf (s.modGroup g f) := h.of_eq rfl rfl
theorem MemWf.modTeam {s : State} (h : MemWf s) (t : Nat) (f : Team → Team) : MemWf (s.modTeam t f) := h.of_eq rfl rfl
theorem MemWf.modLaunch {s : State} (h : MemWf s) (l : Nat) (f : Launch → Launch) : MemWf (s.modLaunch l f) := h.of_eq rfl rfl
theorem MemWf.modTen {s : State} (h : MemWf s) (t : Nat) (f : Tenancy → Tenancy) : MemWf (s.modTen t f) := h.of_eq rfl rfl
theorem MemWf.modCore {s : State} (h : MemWf s) (c : Nat) (f : Core → Core) : MemWf (s.modCore c f) := h.of_eq rfl rfl
theorem MemWf.modDie {s : State} (h : MemWf s) (d : Bool) (f : Die → Die) : MemWf (s.modDie d f) := h.of_eq rfl rfl
theorem MemWf.modStack {s : State} (h : MemWf s) (k : Nat) (f : Stack → Stack) : MemWf (s.modStack k f) := h.of_eq rfl rfl
theorem MemWf.emit {s : State} (h : MemWf s) (o : Out) : MemWf (s.emit o) := h.of_eq rfl rfl

theorem MemWf.wrMem {s : State} (h : MemWf s) (pa n v : Nat) : MemWf (s.wrMem pa n v) := ⟨Cells.writeLE_wf h.mem _ _ _, h.host⟩
theorem MemWf.wrBytes {s : State} (h : MemWf s) (pa : Nat) (bs : List Byte) : MemWf (s.wrBytes pa bs) :=
  ⟨Cells.writeN_wf h.mem pa bs, h.host⟩

theorem MemWf.mended {s : State} (h : MemWf s) (pa n : Nat) : MemWf (s.mended pa n) := by
  unfold State.mended
  split
  · exact h
  · exact h.of_eq rfl rfl

theorem MemWf.touch {s : State} (h : MemWf s) (pa cls : Nat) (wr : Bool) : MemWf (s.touch pa cls wr) := h.of_eq rfl rfl

theorem MemWf.touchAll {s : State} (h : MemWf s) (pa n : Nat) (wr : Bool) : MemWf (s.touchAll pa n wr) := by
  unfold State.touchAll
  split
  · exact h
  · exact State.foldl_inv (fun s _ (hs : MemWf s) => hs.touch _ _ _) _ h

theorem MemWf.homeWrite {s : State} (h : MemWf s) (own : Owner) (pa : Nat) (bs : List Byte) : MemWf (s.homeWrite own pa bs) := by
  cases own with
  | here => exact MemWf.mended (s := { s with mem := Cells.writeN s.mem pa bs }) ⟨Cells.writeN_wf h.mem pa bs, h.host⟩ _ _
  | host => exact ⟨h.mem, Cells.writeN_wf h.host pa bs⟩
  | peer n => exact h

theorem MemWf.l0Mod {s : State} (h : MemWf s) (tid page : Nat) (f : Nat → Nat) : MemWf (s.l0Mod tid page f) :=
  (h.wrMem (s.l0Addr (s.team tid) page) 8 (f (s.rdMem (s.l0Addr (s.team tid) page) 8))).of_eq rfl rfl

theorem MemWf.sptCount {s : State} (h : MemWf s) (tid i : Nat) : MemWf (s.sptCount tid i) := h.wrMem _ _ _

theorem MemWf.setMem {s : State} (h : MemWf s) {m : List Host.Cell} (hm : Cells.wf m = true) : MemWf { s with mem := m } :=
  ⟨hm, h.host⟩

theorem MemWf.writeBack {s : State} (h : MemWf s) (f : Frame) : MemWf (s.writeBack f) := by
  unfold State.writeBack
  extract_lets t back m s1 s2 s3
  have h1 : MemWf s1 := (h.setMem (Cells.foldl_wf (fun m c hm => Cells.write_wf hm _ _) _ (Cells.clear_wf h.mem _ _))).wrMem _ _ _
  have h3 : MemWf s3 := State.foldl_inv (fun s _ (hs : MemWf s) => hs.modDie _ _) _ ((h1.touchAll _ _ _).touchAll _ _ _)
  exact h3.sptCount _ _

theorem MemWf.dropFrame {s : State} (h : MemWf s) (f : Frame) (wb : Bool) : MemWf (s.dropFrame f wb) := by
  unfold State.dropFrame
  refine MemWf.modCore (MemWf.sptCount (MemWf.l0Mod ?_ _ _ _) _ _) _ _
  split
  · exact h.writeBack f
  · exact h

theorem MemWf.markDirty {s : State} (h : MemWf s) (tid page : Nat) : MemWf (s.markDirty tid page) := by
  unfold State.markDirty
  split
  · exact h
  · exact h.l0Mod _ _ _

theorem MemWf.spWrite {s : State} (h : MemWf s) (tid addr : Nat) (bs : List Byte) : MemWf (s.spWrite tid addr bs) :=
  State.foldl_inv (fun s p (hs : MemWf s) => by split <;> first | exact hs | exact hs.of_eq rfl rfl) _
    (State.foldl_inv (fun s _ (hs : MemWf s) => MemWf.markDirty (s := State.modCore _ _ _) (hs.of_eq rfl rfl) _ _) _ h)

theorem MemWf.feSet {s : State} (h : MemWf s) (tid addr : Nat) (full : Bool) : MemWf (s.feSet tid addr full) :=
  MemWf.markDirty (s := State.modCore _ _ _) (h.of_eq rfl rfl) _ _

theorem MemWf.spWriteFull {s : State} (h : MemWf s) (tid addr : Nat) (bs : List Byte) : MemWf (s.spWriteFull tid addr bs) :=
  State.foldl_inv (fun s _ (hs : MemWf s) => hs.feSet _ _ _) _ (h.spWrite tid addr bs)

end Sys2Proof
end

