-- ==== Sys2Proof/Laws/Issue.lean ====
section
/-! SUPPORT. Laws/Issue.lean: what the shared issue operation does with a word that issues, one that must wait and one
that a check of 06 R172 stops. -/

namespace Sys2Proof

open Machine Host

theorem ctxAt_frag (i : Instr) (c : Ctl) (s : State) (g : Nat) (pc : Word) (G0 : Group) :
    (ctxAt i c s g pc G0).frag = G0.fragment pc := rfl
theorem ctxAt_part (i : Instr) (c : Ctl) (s : State) (g : Nat) (pc : Word) (G0 : Group) :
    (ctxAt i c s g pc G0).part = participants c pc G0 := rfl
theorem ctxAt_G (i : Instr) (c : Ctl) (s : State) (g : Nat) (pc : Word) (G0 : Group) :
    (ctxAt i c s g pc G0).G = readGroup c G0 := rfl
theorem ctxAt_s (i : Instr) (c : Ctl) (s : State) (g : Nat) (pc : Word) (G0 : Group) :
    (ctxAt i c s g pc G0).s = s.modGroup g fun _ => readGroup c G0 := rfl

/-- Before the checks: the word waits when it is not ready; else the first check of 06 R172 that fails stops it; else its
meaning answers. -/
theorem word_issuing {i : Instr} {c : Ctl} {s : State} {g : Nat} {pc : Word} {G0 : Group} (h : Issuing s g pc G0)
    (k : Ctx → Res) :
    word i c k s = .next (
      if s.ready G0 c (uses (readGroup c G0).gw i) then
        match staticFault i (readGroup c G0) (headerOf s G0).regs (headerOf s G0).acc (G0.issueT c)
            (uses (readGroup c G0).gw i) with
        | some code => ((ctxAt i c s g pc G0).s.backOut g G0).groupFault g ((ctxAt i c s g pc G0).flt code 0 0 0)
        | none => issued i c s g pc G0 (k (ctxAt i c s g pc G0))
      else stallAt g G0 pc .other false (s.modGroup g fun G =>
        { G with fills := if G.fills.isEmpty then G.misses (uses (readGroup c G0).gw i) else G.fills })) := by
  have hf : (G0.fragment pc).isEmpty = false := by simpa using h.frag
  unfold word
  rw [h.cur]
  simp only [h.group, hf, h.running, h.life, bne_self_eq_false, beq_self_eq_true, Bool.true_or, Bool.not_true, Bool.or_self,
    Bool.false_eq_true, ↓reduceIte]
  cases hr : s.ready G0 c (uses (readGroup c G0).gw i)
  · simp only [readGroup] at hr
    simp [hr, readGroup]
  · simp only [readGroup] at hr
    simp only [hr]
    cases hs : staticFault i (readGroup c G0) (headerOf s G0).regs (headerOf s G0).acc (G0.issueT c)
      (uses (readGroup c G0).gw i)
    · simp only [readGroup, headerOf] at hs
      simp [hs, issued, ctxAt, readGroup, participants]
    · simp only [readGroup, headerOf] at hs
      simp [hs, ctxAt, readGroup, participants, Ctx.flt]

/-- A word that issues normally answers with the state its meaning leaves. -/
theorem word_issues {i : Instr} {c : Ctl} {s : State} {g : Nat} {pc : Word} {G0 : Group} (h : Issues i c s g pc G0)
    (k : Ctx → Res) : word i c k s = .next (issued i c s g pc G0 (k (ctxAt i c s g pc G0))) := by
  have hr := h.ready
  have hl := h.legal
  unfold Ready at hr
  unfold Legal at hl
  rw [word_issuing h.toIssuing, if_pos hr, hl]

/-- As `word_issues`, for a word with one fixed-latency computation. -/
theorem fixedWord_issues {i : Instr} {c : Ctl} {s : State} {g : Nat} {pc : Word} {G0 : Group} (h : Issues i c s g pc G0)
    {k : Comp} {ws : List RegWrite} (hk : k (ctxAt i c s g pc G0) = .ok ws) :
    fixedWord i c s k = .next (issued i c s g pc G0
      (.fixed [((latency i).getD 0, (slotUses (readGroup c G0).gw i).2.1, ws)])) := by
  unfold fixedWord
  rw [word_issues h, hk]
  rfl

/-- As `word_issues`, for a group-wide word that some lane performs. -/
theorem groupWide_issues {i : Instr} {c : Ctl} {s : State} {g : Nat} {pc : Word} {G0 : Group} (h : Issues i c s g pc G0)
    (hp : participants c pc G0 ≠ []) (k : Ctx → Res) :
    groupWide i c s k = .next (issued i c s g pc G0 (k (ctxAt i c s g pc G0))) := by
  unfold groupWide
  rw [word_issues h]
  simp [ctxAt_part, hp]

/-- A group-wide word that no lane performs only issues (07 R179). -/
theorem groupWide_idle {i : Instr} {c : Ctl} {s : State} {g : Nat} {pc : Word} {G0 : Group} (h : Issues i c s g pc G0)
    (hp : participants c pc G0 = []) (k : Ctx → Res) :
    groupWide i c s k = .next (issued i c s g pc G0 (.go (ctxAt i c s g pc G0).s)) := by
  unfold groupWide
  rw [word_issues h]
  simp [ctxAt_part, hp]

/-- An event whose condition gives a state answers with it. -/
theorem event_some (s t : State) : event s (some t) = .next t := rfl
theorem event_none (s : State) : event s none = .next s := rfl

end Sys2Proof
end

