-- ==== Sys2Proof/Laws/PerInstr.lean ====
section
/-! SUPPORT. PerInstr.lean: one lemma for each constructor of `Instr`, in the family that LAWS.json names. -/

namespace Sys2Proof.Laws

/-- What an instruction word carries a control field for, and an event of the device does not: an encoding (06 R155, 95). -/
def F.Statement (i : Instr) : Prop := (encodeBits i).isSome = i.ctl?.isSome

theorem F.nop : ∀ x y, F.Statement (.nop x y) := fun _ _ => rfl
theorem F.bra : ∀ x y, F.Statement (.bra x y) := fun _ _ => rfl
theorem F.brc : ∀ x y, F.Statement (.brc x y) := fun _ _ => rfl
theorem F.brx : ∀ x y, F.Statement (.brx x y) := fun _ _ => rfl
theorem F.call : ∀ x y, F.Statement (.call x y) := fun _ _ => rfl
theorem F.callx : ∀ x y, F.Statement (.callx x y) := fun _ _ => rfl
theorem F.ret : ∀ x y, F.Statement (.ret x y) := fun _ _ => rfl
theorem F.exit : ∀ x y, F.Statement (.exit x y) := fun _ _ => rfl
theorem F.meet : ∀ x y, F.Statement (.meet x y) := fun _ _ => rfl
theorem F.meetw : ∀ x y, F.Statement (.meetw x y) := fun _ _ => rfl
theorem F.vote : ∀ x y, F.Statement (.vote x y) := fun _ _ => rfl
theorem F.ballot : ∀ x y, F.Statement (.ballot x y) := fun _ _ => rfl
theorem F.elect : ∀ x y, F.Statement (.elect x y) := fun _ _ => rfl
theorem F.refill : ∀ x y, F.Statement (.refill x y) := fun _ _ => rfl
theorem F.done : ∀ x y, F.Statement (.done x y) := fun _ _ => rfl
theorem F.yield : ∀ x y, F.Statement (.yield x y) := fun _ _ => rfl
theorem F.tokpass : ∀ x y, F.Statement (.tokpass x y) := fun _ _ => rfl
theorem F.tokwait : ∀ x y, F.Statement (.tokwait x y) := fun _ _ => rfl
theorem F.spawn : ∀ x y, F.Statement (.spawn x y) := fun _ _ => rfl
theorem F.joinc : ∀ x y, F.Statement (.joinc x y) := fun _ _ => rfl
theorem F.iqPush : ∀ x y, F.Statement (.iqPush x y) := fun _ _ => rfl
theorem F.iqLoad : ∀ x y, F.Statement (.iqLoad x y) := fun _ _ => rfl
theorem F.iqCount : ∀ x y, F.Statement (.iqCount x y) := fun _ _ => rfl
theorem F.sadd : ∀ x y, F.Statement (.sadd x y) := fun _ _ => rfl
theorem F.ssub : ∀ x y, F.Statement (.ssub x y) := fun _ _ => rfl
theorem F.smul : ∀ x y, F.Statement (.smul x y) := fun _ _ => rfl
theorem F.smulh : ∀ x y, F.Statement (.smulh x y) := fun _ _ => rfl
theorem F.sdiv : ∀ x y, F.Statement (.sdiv x y) := fun _ _ => rfl
theorem F.srem : ∀ x y, F.Statement (.srem x y) := fun _ _ => rfl
theorem F.sand : ∀ x y, F.Statement (.sand x y) := fun _ _ => rfl
theorem F.sor : ∀ x y, F.Statement (.sor x y) := fun _ _ => rfl
theorem F.sxor : ∀ x y, F.Statement (.sxor x y) := fun _ _ => rfl
theorem F.sshl : ∀ x y, F.Statement (.sshl x y) := fun _ _ => rfl
theorem F.sshr : ∀ x y, F.Statement (.sshr x y) := fun _ _ => rfl
theorem F.ssar : ∀ x y, F.Statement (.ssar x y) := fun _ _ => rfl
theorem F.smin : ∀ x y, F.Statement (.smin x y) := fun _ _ => rfl
theorem F.smax : ∀ x y, F.Statement (.smax x y) := fun _ _ => rfl
theorem F.scmp : ∀ x y, F.Statement (.scmp x y) := fun _ _ => rfl
theorem F.ssel : ∀ x y, F.Statement (.ssel x y) := fun _ _ => rfl
theorem F.smov : ∀ x y, F.Statement (.smov x y) := fun _ _ => rfl
theorem F.smovi : ∀ x y, F.Statement (.smovi x y) := fun _ _ => rfl
theorem F.slea : ∀ x y, F.Statement (.slea x y) := fun _ _ => rfl
theorem F.spopc : ∀ x y, F.Statement (.spopc x y) := fun _ _ => rfl
theorem F.sclz : ∀ x y, F.Statement (.sclz x y) := fun _ _ => rfl
theorem F.sffs : ∀ x y, F.Statement (.sffs x y) := fun _ _ => rfl
theorem F.sr : ∀ x y, F.Statement (.sr x y) := fun _ _ => rfl
theorem F.add : ∀ x y, F.Statement (.add x y) := fun _ _ => rfl
theorem F.sub : ∀ x y, F.Statement (.sub x y) := fun _ _ => rfl
theorem F.mul : ∀ x y, F.Statement (.mul x y) := fun _ _ => rfl
theorem F.mulh : ∀ x y, F.Statement (.mulh x y) := fun _ _ => rfl
theorem F.mad : ∀ x y, F.Statement (.mad x y) := fun _ _ => rfl
theorem F.abs : ∀ x y, F.Statement (.abs x y) := fun _ _ => rfl
theorem F.neg : ∀ x y, F.Statement (.neg x y) := fun _ _ => rfl
theorem F.min : ∀ x y, F.Statement (.min x y) := fun _ _ => rfl
theorem F.max : ∀ x y, F.Statement (.max x y) := fun _ _ => rfl
theorem F.and : ∀ x y, F.Statement (.and x y) := fun _ _ => rfl
theorem F.or : ∀ x y, F.Statement (.or x y) := fun _ _ => rfl
theorem F.xor : ∀ x y, F.Statement (.xor x y) := fun _ _ => rfl
theorem F.andn : ∀ x y, F.Statement (.andn x y) := fun _ _ => rfl
theorem F.not : ∀ x y, F.Statement (.not x y) := fun _ _ => rfl
theorem F.shl : ∀ x y, F.Statement (.shl x y) := fun _ _ => rfl
theorem F.shr : ∀ x y, F.Statement (.shr x y) := fun _ _ => rfl
theorem F.sar : ∀ x y, F.Statement (.sar x y) := fun _ _ => rfl
theorem F.rot : ∀ x y, F.Statement (.rot x y) := fun _ _ => rfl
theorem F.bfe : ∀ x y, F.Statement (.bfe x y) := fun _ _ => rfl
theorem F.bfi : ∀ x y, F.Statement (.bfi x y) := fun _ _ => rfl
theorem F.popc : ∀ x y, F.Statement (.popc x y) := fun _ _ => rfl
theorem F.clz : ∀ x y, F.Statement (.clz x y) := fun _ _ => rfl
theorem F.ffs : ∀ x y, F.Statement (.ffs x y) := fun _ _ => rfl
theorem F.brev : ∀ x y, F.Statement (.brev x y) := fun _ _ => rfl
theorem F.cmp : ∀ x y, F.Statement (.cmp x y) := fun _ _ => rfl
theorem F.sel : ∀ x y, F.Statement (.sel x y) := fun _ _ => rfl
theorem F.mov : ∀ x y, F.Statement (.mov x y) := fun _ _ => rfl
theorem F.movi : ∀ x y, F.Statement (.movi x y) := fun _ _ => rfl
theorem F.cvti : ∀ x y, F.Statement (.cvti x y) := fun _ _ => rfl
theorem F.addsat : ∀ x y, F.Statement (.addsat x y) := fun _ _ => rfl
theorem F.subsat : ∀ x y, F.Statement (.subsat x y) := fun _ _ => rfl
theorem F.avg : ∀ x y, F.Statement (.avg x y) := fun _ _ => rfl
theorem F.sad : ∀ x y, F.Statement (.sad x y) := fun _ _ => rfl
theorem F.dp4 : ∀ x y, F.Statement (.dp4 x y) := fun _ _ => rfl
theorem F.fadd : ∀ x y, F.Statement (.fadd x y) := fun _ _ => rfl
theorem F.fsub : ∀ x y, F.Statement (.fsub x y) := fun _ _ => rfl
theorem F.fmul : ∀ x y, F.Statement (.fmul x y) := fun _ _ => rfl
theorem F.ffma : ∀ x y, F.Statement (.ffma x y) := fun _ _ => rfl
theorem F.fmin : ∀ x y, F.Statement (.fmin x y) := fun _ _ => rfl
theorem F.fmax : ∀ x y, F.Statement (.fmax x y) := fun _ _ => rfl
theorem F.fcmp : ∀ x y, F.Statement (.fcmp x y) := fun _ _ => rfl
theorem F.fclass : ∀ x y, F.Statement (.fclass x y) := fun _ _ => rfl
theorem F.frcp : ∀ x y, F.Statement (.frcp x y) := fun _ _ => rfl
theorem F.frsq : ∀ x y, F.Statement (.frsq x y) := fun _ _ => rfl
theorem F.fexp2 : ∀ x y, F.Statement (.fexp2 x y) := fun _ _ => rfl
theorem F.flog2 : ∀ x y, F.Statement (.flog2 x y) := fun _ _ => rfl
theorem F.fsqrt : ∀ x y, F.Statement (.fsqrt x y) := fun _ _ => rfl
theorem F.frnd : ∀ x y, F.Statement (.frnd x y) := fun _ _ => rfl
theorem F.fcvt : ∀ x y, F.Statement (.fcvt x y) := fun _ _ => rfl
theorem F.f2i : ∀ x y, F.Statement (.f2i x y) := fun _ _ => rfl
theorem F.i2f : ∀ x y, F.Statement (.i2f x y) := fun _ _ => rfl
theorem F.fpack : ∀ x y, F.Statement (.fpack x y) := fun _ _ => rfl
theorem F.funpk : ∀ x y, F.Statement (.funpk x y) := fun _ _ => rfl
theorem F.shfl : ∀ x y, F.Statement (.shfl x y) := fun _ _ => rfl
theorem F.bcast : ∀ x y, F.Statement (.bcast x y) := fun _ _ => rfl
theorem F.red : ∀ x y, F.Statement (.red x y) := fun _ _ => rfl
theorem F.scan : ∀ x y, F.Statement (.scan x y) := fun _ _ => rfl
theorem F.matchLanes : ∀ x y, F.Statement (.matchLanes x y) := fun _ _ => rfl
theorem F.compact : ∀ x y, F.Statement (.compact x y) := fun _ _ => rfl
theorem F.bfpcvt : ∀ x y, F.Statement (.bfpcvt x y) := fun _ _ => rfl
theorem F.bfpexpGet : ∀ x y, F.Statement (.bfpexpGet x y) := fun _ _ => rfl
theorem F.bfpexpSet : ∀ x y, F.Statement (.bfpexpSet x y) := fun _ _ => rfl
theorem F.plpack : ∀ x y, F.Statement (.plpack x y) := fun _ _ => rfl
theorem F.plunpk : ∀ x y, F.Statement (.plunpk x y) := fun _ _ => rfl
theorem F.prec : ∀ x y, F.Statement (.prec x y) := fun _ _ => rfl
theorem F.precExp : ∀ x y, F.Statement (.precExp x y) := fun _ _ => rfl
theorem F.ptrunc : ∀ x y, F.Statement (.ptrunc x y) := fun _ _ => rfl
theorem F.ufc : ∀ x y, F.Statement (.ufc x y) := fun _ _ => rfl
theorem F.ufcClr : ∀ x y, F.Statement (.ufcClr x y) := fun _ _ => rfl
theorem F.brecSet : ∀ x y, F.Statement (.brecSet x y) := fun _ _ => rfl
theorem F.brecGet : ∀ x y, F.Statement (.brecGet x y) := fun _ _ => rfl
theorem F.brecx : ∀ x y, F.Statement (.brecx x y) := fun _ _ => rfl
theorem F.bchk : ∀ x y, F.Statement (.bchk x y) := fun _ _ => rfl
theorem F.ld : ∀ x y, F.Statement (.ld x y) := fun _ _ => rfl
theorem F.st : ∀ x y, F.Statement (.st x y) := fun _ _ => rfl
theorem F.ldpl : ∀ x y, F.Statement (.ldpl x y) := fun _ _ => rfl
theorem F.ldrf : ∀ x y, F.Statement (.ldrf x y) := fun _ _ => rfl
theorem F.stpl : ∀ x y, F.Statement (.stpl x y) := fun _ _ => rfl
theorem F.lds : ∀ x y, F.Statement (.lds x y) := fun _ _ => rfl
theorem F.sts : ∀ x y, F.Statement (.sts x y) := fun _ _ => rfl
theorem F.ldsr : ∀ x y, F.Statement (.ldsr x y) := fun _ _ => rfl
theorem F.stsr : ∀ x y, F.Statement (.stsr x y) := fun _ _ => rfl
theorem F.atom : ∀ x y, F.Statement (.atom x y) := fun _ _ => rfl
theorem F.atoms : ∀ x y, F.Statement (.atoms x y) := fun _ _ => rfl
theorem F.fenceAr : ∀ x y, F.Statement (.fenceAr x y) := fun _ _ => rfl
theorem F.fenceAcq : ∀ x y, F.Statement (.fenceAcq x y) := fun _ _ => rfl
theorem F.fenceRel : ∀ x y, F.Statement (.fenceRel x y) := fun _ _ => rfl
theorem F.fenceSysAll : ∀ x y, F.Statement (.fenceSysAll x y) := fun _ _ => rfl
theorem F.pref : ∀ x y, F.Statement (.pref x y) := fun _ _ => rfl
theorem F.spin : ∀ x y, F.Statement (.spin x y) := fun _ _ => rfl
theorem F.sunpin : ∀ x y, F.Statement (.sunpin x y) := fun _ _ => rfl
theorem F.fmtset : ∀ x y, F.Statement (.fmtset x y) := fun _ _ => rfl
theorem F.mma : ∀ x y, F.Statement (.mma x y) := fun _ _ => rfl
theorem F.accZero : ∀ x y, F.Statement (.accZero x y) := fun _ _ => rfl
theorem F.accRd : ∀ x y, F.Statement (.accRd x y) := fun _ _ => rfl
theorem F.accRdx : ∀ x y, F.Statement (.accRdx x y) := fun _ _ => rfl
theorem F.accMax : ∀ x y, F.Statement (.accMax x y) := fun _ _ => rfl
theorem F.accScl : ∀ x y, F.Statement (.accScl x y) := fun _ _ => rfl
theorem F.accLd : ∀ x y, F.Statement (.accLd x y) := fun _ _ => rfl
theorem F.accDrn : ∀ x y, F.Statement (.accDrn x y) := fun _ _ => rfl
theorem F.kvslot : ∀ x y, F.Statement (.kvslot x y) := fun _ _ => rfl
theorem F.hamd : ∀ x y, F.Statement (.hamd x y) := fun _ _ => rfl
theorem F.gwalk : ∀ x y, F.Statement (.gwalk x y) := fun _ _ => rfl
theorem F.cqInit : ∀ x y, F.Statement (.cqInit x y) := fun _ _ => rfl
theorem F.cqPush : ∀ x y, F.Statement (.cqPush x y) := fun _ _ => rfl
theorem F.cqPop : ∀ x y, F.Statement (.cqPop x y) := fun _ _ => rfl
theorem F.cqTop : ∀ x y, F.Statement (.cqTop x y) := fun _ _ => rfl
theorem F.vfTest : ∀ x y, F.Statement (.vfTest x y) := fun _ _ => rfl
theorem F.pcopy : ∀ x y, F.Statement (.pcopy x y) := fun _ _ => rfl
theorem F.pcopyRf : ∀ x y, F.Statement (.pcopyRf x y) := fun _ _ => rfl
theorem F.pstore : ∀ x y, F.Statement (.pstore x y) := fun _ _ => rfl
theorem F.pfill : ∀ x y, F.Statement (.pfill x y) := fun _ _ => rfl
theorem F.pxform : ∀ x y, F.Statement (.pxform x y) := fun _ _ => rfl
theorem F.qfence : ∀ x y, F.Statement (.qfence x y) := fun _ _ => rfl
theorem F.qmark : ∀ x y, F.Statement (.qmark x y) := fun _ _ => rfl
theorem F.qwait : ∀ x y, F.Statement (.qwait x y) := fun _ _ => rfl
theorem F.csend : ∀ x y, F.Statement (.csend x y) := fun _ _ => rfl
theorem F.cput : ∀ x y, F.Statement (.cput x y) := fun _ _ => rfl
theorem F.cget : ∀ x y, F.Statement (.cget x y) := fun _ _ => rfl
theorem F.catom : ∀ x y, F.Statement (.catom x y) := fun _ _ => rfl
theorem F.arrset : ∀ x y, F.Statement (.arrset x y) := fun _ _ => rfl
theorem F.arrwait : ∀ x y, F.Statement (.arrwait x y) := fun _ _ => rfl
theorem F.lease : ∀ x y, F.Statement (.lease x y) := fun _ _ => rfl
theorem F.lrel : ∀ x y, F.Statement (.lrel x y) := fun _ _ => rfl
theorem F.lqry : ∀ x y, F.Statement (.lqry x y) := fun _ _ => rfl
theorem F.barArv : ∀ x y, F.Statement (.barArv x y) := fun _ _ => rfl
theorem F.barWt : ∀ x y, F.Statement (.barWt x y) := fun _ _ => rfl
theorem F.barSync : ∀ x y, F.Statement (.barSync x y) := fun _ _ => rfl
theorem F.feWait : ∀ x y, F.Statement (.feWait x y) := fun _ _ => rfl
theorem F.assert : ∀ x y, F.Statement (.assert x y) := fun _ _ => rfl
theorem F.brk : ∀ x y, F.Statement (.brk x y) := fun _ _ => rfl
theorem F.csrrd : ∀ x y, F.Statement (.csrrd x y) := fun _ _ => rfl
theorem F.csrwr : ∀ x y, F.Statement (.csrwr x y) := fun _ _ => rfl
theorem F.sret : ∀ x y, F.Statement (.sret x y) := fun _ _ => rfl
theorem F.stbinv : ∀ x y, F.Statement (.stbinv x y) := fun _ _ => rfl
theorem F.spmap : ∀ x y, F.Statement (.spmap x y) := fun _ _ => rfl
theorem F.spunmap : ∀ x y, F.Statement (.spunmap x y) := fun _ _ => rfl
theorem F.chkOn : ∀ x y, F.Statement (.chkOn x y) := fun _ _ => rfl
theorem F.chkOff : ∀ x y, F.Statement (.chkOff x y) := fun _ _ => rfl
theorem F.paired : ∀ x y, F.Statement (.paired x y) := fun _ _ => rfl
theorem F.fairnessTimerExpiry : ∀ x, F.Statement (.fairnessTimerExpiry x) := fun _ => rfl
theorem F.issueStarvationPromotion : ∀ x, F.Statement (.issueStarvationPromotion x) := fun _ => rfl
theorem F.meetingRelease : ∀ x y, F.Statement (.meetingRelease x y) := fun _ _ => rfl
theorem F.meetwRelease : ∀ x, F.Statement (.meetwRelease x) := fun _ => rfl
theorem F.stuckGroupRelease : ∀ x, F.Statement (.stuckGroupRelease x) := fun _ => rfl
theorem F.refillAttempt : ∀ x, F.Statement (.refillAttempt x) := fun _ => rfl
theorem F.groupRetire : ∀ x, F.Statement (.groupRetire x) := fun _ => rfl
theorem F.loadDataLand : ∀ x y z, F.Statement (.loadDataLand x y z) := fun _ _ _ => rfl
theorem F.storeAck : ∀ x y, F.Statement (.storeAck x y) := fun _ _ => rfl
theorem F.memUncorrectableLate : ∀ x y z, F.Statement (.memUncorrectableLate x y z) := fun _ _ _ => rfl
theorem F.multiplyPipePerform : ∀ x y, F.Statement (.multiplyPipePerform x y) := fun _ _ => rfl
theorem F.accPortPerform : ∀ x y, F.Statement (.accPortPerform x y) := fun _ _ => rfl
theorem F.drainGranuleLand : ∀ x y, F.Statement (.drainGranuleLand x y) := fun _ _ => rfl
theorem F.pageFill : ∀ x y, F.Statement (.pageFill x y) := fun _ _ => rfl
theorem F.spadStarvedTimeout : ∀ x, F.Statement (.spadStarvedTimeout x) := fun _ => rfl
theorem F.feLaneAttempt : ∀ x y, F.Statement (.feLaneAttempt x y) := fun _ _ => rfl
theorem F.feWaitSatisfy : ∀ x y, F.Statement (.feWaitSatisfy x y) := fun _ _ => rfl
theorem F.barWaitRelease : ∀ x y, F.Statement (.barWaitRelease x y) := fun _ _ => rfl
theorem F.tokwaitTake : ∀ x y, F.Statement (.tokwaitTake x y) := fun _ _ => rfl
theorem F.qwaitSatisfy : ∀ x y, F.Statement (.qwaitSatisfy x y) := fun _ _ => rfl
theorem F.pcopyPerform : ∀ x y, F.Statement (.pcopyPerform x y) := fun _ _ => rfl
theorem F.pcopyRfPerform : ∀ x y, F.Statement (.pcopyRfPerform x y) := fun _ _ => rfl
theorem F.pstorePerform : ∀ x y, F.Statement (.pstorePerform x y) := fun _ _ => rfl
theorem F.pfillPerform : ∀ x y, F.Statement (.pfillPerform x y) := fun _ _ => rfl
theorem F.pxformRoutineRun : ∀ x y, F.Statement (.pxformRoutineRun x y) := fun _ _ => rfl
theorem F.qmarkPerform : ∀ x y, F.Statement (.qmarkPerform x y) := fun _ _ => rfl
theorem F.gwalkStep : ∀ x y, F.Statement (.gwalkStep x y) := fun _ _ => rfl
theorem F.packetArrival : ∀ x, F.Statement (.packetArrival x) := fun _ => rfl
theorem F.packetAck : ∀ x y, F.Statement (.packetAck x y) := fun _ _ => rfl
theorem F.fabricRequestArrival : ∀ x, F.Statement (.fabricRequestArrival x) := fun _ => rfl
theorem F.forwardedAccessArrival : ∀ x, F.Statement (.forwardedAccessArrival x) := fun _ => rfl
theorem F.sourceTimeout : ∀ x, F.Statement (.sourceTimeout x) := fun _ => rfl
theorem F.fecLockLossTimeout : ∀ x, F.Statement (.fecLockLossTimeout x) := fun _ => rfl
theorem F.arrwaitSatisfy : ∀ x y, F.Statement (.arrwaitSatisfy x y) := fun _ _ => rfl
theorem F.arrwaitTimeout : ∀ x y, F.Statement (.arrwaitTimeout x y) := fun _ _ => rfl
theorem F.leaseLanesLive : ∀ x y, F.Statement (.leaseLanesLive x y) := fun _ _ => rfl
theorem F.leaseExpiry : ∀ x y, F.Statement (.leaseExpiry x y) := fun _ _ => rfl
theorem F.laneReclaim : ∀ x, F.Statement (.laneReclaim x) := fun _ => rfl
theorem F.laneRetuneDone : ∀ x, F.Statement (.laneRetuneDone x) := fun _ => rfl
theorem F.tuningTimeout : ∀ x, F.Statement (.tuningTimeout x) := fun _ => rfl
theorem F.laneRelockAttempt : ∀ x y, F.Statement (.laneRelockAttempt x y) := fun _ _ => rfl
theorem F.laneLossOfLock : ∀ x, F.Statement (.laneLossOfLock x) := fun _ => rfl
theorem F.flitRetransmit : ∀ x, F.Statement (.flitRetransmit x) := fun _ => rfl
theorem F.launchWindowWrite : ∀ x y z, F.Statement (.launchWindowWrite x y z) := fun _ _ _ => rfl
theorem F.launchDatagram : ∀ x, F.Statement (.launchDatagram x) := fun _ => rfl
theorem F.mcSubmit : ∀ x y, F.Statement (.mcSubmit x y) := fun _ _ => rfl
theorem F.admissionDecision : ∀ x, F.Statement (.admissionDecision x) := fun _ => rfl
theorem F.preemptBand : ∀ x y, F.Statement (.preemptBand x y) := fun _ _ => rfl
theorem F.preemptProgress : ∀ x, F.Statement (.preemptProgress x) := fun _ => rfl
theorem F.preemptThermal : ∀ x, F.Statement (.preemptThermal x) := fun _ => rfl
theorem F.teamSaved : ∀ x, F.Statement (.teamSaved x) := fun _ => rfl
theorem F.launchCompletion : ∀ x, F.Statement (.launchCompletion x) := fun _ => rfl
theorem F.faultAnswerWrite : ∀ x y z, F.Statement (.faultAnswerWrite x y z) := fun _ _ _ => rfl
theorem F.uncontainedFault : ∀ x y z, F.Statement (.uncontainedFault x y z) := fun _ _ _ => rfl
theorem F.storageErrorDetect : ∀ x, F.Statement (.storageErrorDetect x) := fun _ => rfl
theorem F.poisonEntryClear : ∀ x y z, F.Statement (.poisonEntryClear x y z) := fun _ _ _ => rfl
theorem F.errorCounterClear : ∀ x y z, F.Statement (.errorCounterClear x y z) := fun _ _ _ => rfl
theorem F.tncfgWrite : ∀ x y z u, F.Statement (.tncfgWrite x y z u) := fun _ _ _ _ => rfl
theorem F.deadpeerClear : ∀ x y z, F.Statement (.deadpeerClear x y z) := fun _ _ _ => rfl
theorem F.csrWrite : ∀ x y z u, F.Statement (.csrWrite x y z u) := fun _ _ _ _ => rfl
theorem F.shootdownLocal : ∀ x y, F.Statement (.shootdownLocal x y) := fun _ _ => rfl
theorem F.shootdownRosPurge : ∀ x y, F.Statement (.shootdownRosPurge x y) := fun _ _ => rfl
theorem F.shootdownComplete : ∀ x, F.Statement (.shootdownComplete x) := fun _ => rfl
theorem F.rosPurgeReceive : ∀ x y z, F.Statement (.rosPurgeReceive x y z) := fun _ _ _ => rfl
theorem F.pageWalk : ∀ x, F.Statement (.pageWalk x) := fun _ => rfl
theorem F.atsCompletion : ∀ x y, F.Statement (.atsCompletion x y) := fun _ _ => rfl
theorem F.priResponse : ∀ x y, F.Statement (.priResponse x y) := fun _ _ => rfl
theorem F.invalidateRequest : ∀ x y z, F.Statement (.invalidateRequest x y z) := fun _ _ _ => rfl
theorem F.invalidateCompletion : ∀ x, F.Statement (.invalidateCompletion x) := fun _ => rfl
theorem F.accessCounterWrite : ∀ x y z, F.Statement (.accessCounterWrite x y z) := fun _ _ _ => rfl
theorem F.missedClear : ∀ x y, F.Statement (.missedClear x y) := fun _ _ => rfl
theorem F.burstCrcFail : ∀ x, F.Statement (.burstCrcFail x) := fun _ => rfl
theorem F.stackTraining : ∀ x y, F.Statement (.stackTraining x y) := fun _ _ => rfl
theorem F.refreshTick : ∀ x, F.Statement (.refreshTick x) := fun _ => rfl
theorem F.heartbeatMiss : ∀ x, F.Statement (.heartbeatMiss x) := fun _ => rfl
theorem F.hbmBurstServe : ∀ x y z, F.Statement (.hbmBurstServe x y z) := fun _ _ _ => rfl
theorem F.thermalSample : ∀ x y, F.Statement (.thermalSample x y) := fun _ _ => rfl
theorem F.thermalPowerDown : F.Statement .thermalPowerDown := rfl
theorem F.powerOnReset : F.Statement .powerOnReset := rfl
theorem F.railsInRange : ∀ x y z u, F.Statement (.railsInRange x y z u) := fun _ _ _ _ => rfl
theorem F.hbmTrainingDone : F.Statement .hbmTrainingDone := rfl
theorem F.opticalCalibrationDone : F.Statement .opticalCalibrationDone := rfl
theorem F.pcieLinkUp : ∀ x, F.Statement (.pcieLinkUp x) := fun _ => rfl
theorem F.ethernetLinkDone : ∀ x y, F.Statement (.ethernetLinkDone x y) := fun _ _ => rfl
theorem F.baseLaneDeadTimeout : ∀ x, F.Statement (.baseLaneDeadTimeout x) := fun _ => rfl
theorem F.measurementExtend : ∀ x y, F.Statement (.measurementExtend x y) := fun _ _ => rfl
theorem F.attestationRequest : ∀ x, F.Statement (.attestationRequest x) := fun _ => rfl
theorem F.reportReady : ∀ x, F.Statement (.reportReady x) := fun _ => rfl
theorem F.registerCacheFill : ∀ x y, F.Statement (.registerCacheFill x y) := fun _ _ => rfl
theorem F.eyeRecentreDone : ∀ x y, F.Statement (.eyeRecentreDone x y) := fun _ _ => rfl
theorem F.priEnable : F.Statement .priEnable := rfl
theorem F.frontPortLinkChange : ∀ x y, F.Statement (.frontPortLinkChange x y) := fun _ _ => rfl
theorem F.csrHostRead : ∀ x y, F.Statement (.csrHostRead x y) := fun _ _ => rfl

end Sys2Proof.Laws
end

