-- ==== Sys2Proof/Tests/Slice0.lean ====
section
/-! SUPPORT. Slice0.lean: the model's own tests. Ill-formed words that the checks refuse, words written out from their
encodings, the spec's worked cases, and for each obligation with hypotheses a state and operands that meet them. -/

namespace Sys2Proof.Tests

open Machine

/- One test at a time: each waits for the kernel on all that stands before it. -/
set_option Elab.async false

/-! ## Well-formedness: a term for each check, which it refuses -/

def k0 : Ctl := ⟨0, false, false, 7, 7, 0, 0⟩
/-- A guard that holds in no lane of the states below, p0 being clear in every lane. -/
def kOff : Ctl := { k0 with pred := 0 }

/-- One word for each kind of check of 06 R172 row 7: reserved control bits, SETW 6, then register kinds, reserved fields, MOD,
sizes, alignment of sets, selectors and immediates. -/
def illFormed : List Instr := [.nop { k0 with rsv := 1 } ⟨0, 0, 0, 0, 0⟩, .nop { k0 with setw := 6 } ⟨0, 0, 0, 0, 0⟩,
  .nop k0 ⟨1, 0, 0, 0, 0⟩, .bra k0 ⟨0, 1⟩, .brc k0 ⟨0, 3⟩, .brx k0 ⟨0, 1, 0, 0, 0⟩, .callx k0 ⟨2, 2, 0, 0, 0⟩, .ret k0 ⟨0, 3, 0, 0, 0⟩,
  .vote k0 ⟨8, 0, 0, 0, 0⟩, .ballot k0 ⟨64, 0, 0, 0, 0⟩, .elect k0 ⟨0, 1, 0, 0, 0⟩, .refill k0 ⟨1, 0, 0, 0, 0⟩, .tokpass k0 ⟨0, 1, 0, 0, 1⟩,
  .spawn k0 ⟨0, 16, 0, 0, 0⟩, .joinc k0 ⟨0, 0, 0, 1, 0⟩, .iqPush k0 ⟨0, 1, 0, 0, 0⟩, .iqLoad k0 ⟨1, 0, 0, 0, 0⟩, .iqCount k0 ⟨0, 0, 0, 0, 1⟩,
  .sadd k0 ⟨0, 0, 0, 1, 0⟩, .smul k0 ⟨0, 0, 0, 0, 2⟩, .smulh k0 ⟨0, 0, 0, 0, 2⟩, .smin k0 ⟨0, 0, 1, 0, 2⟩, .scmp k0 ⟨0, 0, 0, 6, 0⟩,
  .ssel k0 ⟨0, 0, 0, 8, 0⟩, .smov k0 ⟨0, 0, 0, 64, 1⟩, .smovi k0 ⟨0, 0, 0, 0, 2, 0, 0⟩, .slea k0 ⟨0, 0, 0, 64, 0⟩, .spopc k0 ⟨0, 0, 1, 0, 0⟩,
  .sr k0 ⟨1, 0, 0, 9, 1⟩, .add k0 ⟨0, 0, 0, 1, 0⟩, .mulh k0 ⟨0, 0, 0, 4, 0⟩, .bfe k0 ⟨0, 0, 0, 2, 0⟩, .cmp k0 ⟨0, 0, 0, 24, 0⟩,
  .abs k0 ⟨0, 0, 0, 1, 0⟩, .not k0 ⟨0, 0, 0, 0, 3⟩, .mov k0 ⟨0, 0, 1, 0, 0⟩, .mad k0 ⟨0, 0, 0, 0, 3⟩, .bfi k0 ⟨0, 0, 0, 0, 1⟩,
  .sel k0 ⟨0, 0, 0, 8, 0⟩, .cvti k0 ⟨0, 0, 0, 32, 0⟩, .movi k0 ⟨1, 0, 0, 0, 3, 0, 0⟩, .fadd k0 ⟨0, 0, 0, 1, 0⟩, .fmin k0 ⟨0, 0, 0, 0, 1⟩,
  .fcmp k0 ⟨0, 0, 0, 8, 0⟩, .fclass k0 ⟨0, 0, 1, 0, 0⟩, .frcp k0 ⟨0, 0, 0, 1, 0⟩, .fcvt k0 ⟨0, 0, 0, 9, 0⟩, .f2i k0 ⟨0, 0, 0, 0x34, 0⟩,
  .i2f k0 ⟨0, 0, 0, 0x20, 0⟩, .fpack k0 ⟨0, 0, 0, 4, 0⟩, .funpk k0 ⟨0, 0, 0, 0x3C, 0⟩, .bfpcvt k0 ⟨0, 0, 0, 8, 0⟩, .shfl k0 ⟨0, 0, 0, 0x50, 0⟩,
  .bcast k0 ⟨0, 0, 0, 1, 1⟩, .red k0 ⟨0, 0, 0, 0x0B, 0⟩, .scan k0 ⟨0, 0, 0, 6, 0⟩, .matchLanes k0 ⟨1, 0, 0, 0, 0⟩, .compact k0 ⟨0, 0, 0, 64, 0⟩,
  .bfpexpGet k0 ⟨0, 0, 1, 0, 0⟩, .bfpexpSet k0 ⟨0, 0, 0, 1, 1⟩, .plpack k0 ⟨0, 0, 1, 0, 0⟩, .plunpk k0 ⟨0, 0, 0, 9, 0⟩, .prec k0 ⟨64, 0, 0, 0, 0⟩,
  .precExp k0 ⟨0, 0, 0, 0, 0⟩, .ptrunc k0 ⟨0, 0, 0, 0, 0⟩, .ufc k0 ⟨0, 1, 0, 0, 0⟩, .ufcClr k0 ⟨1, 0, 0, 0, 1⟩, .brecSet k0 ⟨0, 0, 0, 11, 0⟩,
  .brecGet k0 ⟨0, 0, 0, 10, 1⟩, .brecx k0 ⟨0, 0, 1, 0, 0, 0, 0⟩, .bchk k0 ⟨8, 0, 0, 0, 0⟩, .ld k0 ⟨0, 0, 0, 0x70, 0, 0⟩, .st k0 ⟨0, 0, 0, 0x10, 0, 0⟩,
  .ldpl k0 ⟨0, 0, 0, 0, 0, 0⟩, .ldrf k0 ⟨0, 64, 0, 8, 0, 0⟩, .stpl k0 ⟨0, 0, 0, 9, 0, 0⟩, .lds k0 ⟨0, 0, 1, 0, 0, 0⟩, .sts k0 ⟨0, 0, 0, 8, 0, 0⟩,
  .atom k0 ⟨0, 0, 0, 0, 0, 0x90000⟩, .atoms k0 ⟨0, 0, 0x10, 0, 0, 0⟩, .fenceAr k0 ⟨0, 0, 0, 7, 0⟩, .fenceAcq k0 ⟨0, 0, 0, 0, 1⟩,
  .fenceRel k0 ⟨0, 0, 0, 1, 1⟩, .fenceSysAll k0 ⟨0, 0, 0, 1, 3⟩, .pref k0 ⟨1, 0, 0, 0, 0, 0⟩, .spin k0 ⟨0, 0, 0, 1, 0⟩, .sunpin k0 ⟨1, 0, 0, 0, 0⟩,
  .fmtset k0 ⟨8, 0, 0, 0, 0, 0⟩, .mma k0 ⟨0, 4, 0, 0, 0⟩, .accZero k0 ⟨0, 0, 0, 0, 3⟩, .accRd k0 ⟨0, 0, 0, 8, 0⟩, .accMax k0 ⟨0, 0, 0, 2, 0⟩,
  .accScl k0 ⟨0, 0, 0, 1, 0⟩, .accLd k0 ⟨0, 0, 0, 2, 0, 0⟩, .accDrn k0 ⟨0, 0, 0, 1, 0, 0⟩, .kvslot k0 ⟨2, 0, 0, 0, 0⟩, .hamd k0 ⟨0, 0, 0, 3, 0⟩,
  .gwalk k0 ⟨0, 0, 0, 1, 0, 0⟩, .cqInit k0 ⟨1, 0, 0, 0, 0⟩, .cqPush k0 ⟨8, 0, 0, 0, 0⟩, .cqPop k0 ⟨1, 0, 0, 0, 0⟩, .cqTop k0 ⟨0, 0, 0, 4, 0⟩,
  .vfTest k0 ⟨0, 0, 0, 9, 0⟩, .pcopy k0 ⟨0, 0, 0, 0, 0, 0, 0⟩, .pcopyRf k0 ⟨0, 0, 0, 0, 0, 16, 0⟩, .pstore k0 ⟨32, 0, 0, 0, 0, 16, 0⟩,
  .pfill k0 ⟨0, 0, 0, 0, 3, 16, 0⟩, .pxform k0 ⟨0, 0, 1, 0, 2, 16, 0⟩, .qfence k0 ⟨0, 0, 0, 0, 0⟩, .qwait k0 ⟨0, 0, 1, 1, 0⟩,
  .qmark k0 ⟨8, 0, 0, 0, 0⟩, .csend k0 ⟨0, 63, 0, 1, 0, 0⟩, .cput k0 ⟨0, 0, 0, 0, 0, 8, 0⟩, .cget k0 ⟨0, 0, 0, 0, 0, 16, 4⟩,
  .catom k0 ⟨1, 0, 0, 0, 0, 0⟩, .arrset k0 ⟨0, 64, 0, 0, 0⟩, .arrwait k0 ⟨0, 0, 0, 25, 0⟩, .lease k0 ⟨0, 1, 0, 0, 0⟩, .lrel k0 ⟨0, 0, 1, 0, 0⟩,
  .lqry k0 ⟨0, 0, 0, 5, 0⟩, .barArv k0 ⟨0, 0, 0, 16, 0⟩, .barWt k0 ⟨0, 0, 0, 0, 1⟩, .barSync k0 ⟨0, 0, 1, 0, 0⟩, .feWait k0 ⟨0, 0, 1, 0, 0, 0⟩,
  .assert k0 ⟨0, 8, 0, 0, 0, 0⟩, .brk k0 ⟨0, 0, 0, 0, 1⟩, .csrrd k0 ⟨0, 1, 0, 0, 0⟩, .csrwr k0 ⟨1, 0, 0, 0, 0⟩, .sret k0 ⟨0, 0, 0, 0, 1⟩,
  .stbinv k0 ⟨1, 0, 0, 0, 0⟩, .spmap k0 ⟨0, 0, 0, 0, 3⟩, .spunmap k0 ⟨0, 0, 1, 0, 0⟩, .chkOn k0 ⟨1, 0, 0, 0, 0⟩, .chkOff k0 ⟨0, 0, 0, 1, 0⟩,
  .paired k0 ⟨0x04, 0, 0, 0, 0, 0x20, 0, 0, 0, 0⟩, .paired k0 ⟨0x20, 0, 0, 0, 4, 0x20, 0, 0, 0, 0⟩]

theorem test_illFormed_refused : illFormed.all (fun i => !(WellFormed i)) = true := by decide +kernel

/-! ## Decoding words written out from their encodings -/

theorem test_decode_nop : decodeBits 0x0003F000 = .ok (.nop k0 ⟨0, 0, 0, 0, 0⟩) := by decide +kernel
theorem test_decode_bra : decodeBits 0x3FFFFFF00103F000 = .ok (.bra k0 ⟨0xFFFFFFC, 0⟩) := by decide +kernel
theorem test_decode_sadd : decodeBits 0x7F80060C4003F004 = .ok (.sadd { k0 with stall := 1 } ⟨3, 3, 0, 0x7F, 1⟩) := by decide +kernel
theorem test_decode_fadd : decodeBits 0x00020211400D904C = .ok (.fadd ⟨0, true, true, 3, 1, 1, 3⟩ ⟨4, 1, 2, 0, 0⟩) := by decide +kernel
theorem test_decode_ld : decodeBits 0x0000004020430A1A0303A001 = .ok (.ld { k0 with setw := 2 } ⟨6, 5, 0x43, 0x40, 0, 0x40⟩) := by decide +kernel
theorem test_decode_pcopy : decodeBits 0x00000002000000040483102AE003F002 = .ok (.pcopy k0 ⟨0x0A, 8, 3, 9, 0, 4, 2⟩) := by decide +kernel
/-- 06, the worked encoding of a paired word. -/
theorem test_decode_paired : decodeBits 0x00284888000202118003F005 =
    .ok (.paired { k0 with stall := 1 } ⟨0x60, 4, 1, 2, 0, 0x20, 8, 9, 0x0A, 0⟩) := by decide +kernel
/-- 06, the same word with slot 1 reading banks 3 and 0: four banks in one word. -/
theorem test_decode_paired_banks : (match decodeBits (encodeCtl { k0 with stall := 1 } 1 + encodePair ⟨0x60, 4, 1, 2, 0, 0x20, 8, 3, 12, 0⟩) with
    | .ok _ => false | .error _ => true) = true := by decide +kernel

/-! ## Worked cases of the spec -/

/-- 03, after R92: exu(1.0) is 0x402DF897. -/
theorem test_exu_one : exu 0x3F800000 = 0x402DF897 := by decide +kernel
/-- 03 R84: 500.0 to E4M3 under `.rne` with POVF 00 and 10 is 0x7E, with 01 is 0x00, and with 11 faults. -/
theorem test_500_to_e4m3 : [0x00, 0x08, 0x04, 0x0C].map (fun pol => Fmt.e4m3.convert .rne pol (.fin false 500 0)) =
    [some 0x7E, some 0x7E, some 0x00, none] := by decide +kernel
/-- 09 R226: `frcp.rne` of 2^-149 is +∞, and `frcp.rz` of it 0x7F7FFFFF. -/
theorem test_frcp_subnormal : [Rm.rne, .rz].map (fun rm => Fmt.f32.result rm (fnRcp (.fin false 1 (-149))).1 (fnRcp (.fin false 1 (-149))).2) =
    [0x7F800000, 0x7F7FFFFF] := by decide +kernel
/-- 09 R226: `fexp2(3)` is 8.0 and `flog2(1.0)` is +0. -/
theorem test_exp2_log2 : Fmt.f32.result .rne (fnExp2 (.fin false 3 0)).1 (fnExp2 (.fin false 3 0)).2 = 0x41000000 ∧
    Fmt.f32.result .rdn (fnLog2 (.fin false 1 0)).1 (fnLog2 (.fin false 1 0)).2 = 0 := by decide +kernel

/-! ## States and conditions

Each theorem `witness_<Name>…` below shows states and operands that meet the hypotheses of the obligation of that name: for a
clause about words, `issues` says that every word of a list issues normally, `performs` that some lane also takes part. -/

def pc0 : Word := 0x10000#64
/-- One running group of 32 lanes at level S, all at `pc0`, which is issuing. -/
def st : State := { State.reset.withFetchWord 64 0x3F000 with inputs := [], cur := some (0, pc0) }
def onGroup (f : Group → Group) (s : State) : State := s.modGroup 0 f
/-- The even lanes are at `pc0`, the odd lanes 32 bytes further. -/
def half : State := onGroup (fun G => { G with lanes := G.lanes.zipIdx.map fun (y, l) =>
  if l % 2 = 0 then y else { y with pc := pc0 + 32 } }) st
/-- At level U. -/
def stU : State := onGroup (fun G => { G with levelS := false }) st
def withS (s : State) (xs : List Nat) : State := onGroup (fun G => { G with s := (xs.map (BitVec.ofNat 64)) ++ G.s.drop xs.length }) s
def withB (s : State) (x : Rec256) : State := onGroup (fun G => { G with b := x :: G.b.drop 1 }) s

def issuingB (s : State) (g : Nat) (pc : Word) : Bool :=
  let G := s.group g
  decide (s.cur = some (g, pc)) && decide (g < s.groups.length) && !(G.fragment pc).isEmpty && decide (G.stage = .running) &&
    decide ((s.team G.team).life = .running)

theorem issuing_of {s : State} {g : Nat} {pc : Word} (h : issuingB s g pc = true) : Issuing s g pc (s.group g) := by
  simp only [issuingB, Bool.and_eq_true, decide_eq_true_eq, Bool.not_eq_true', List.isEmpty_eq_false_iff] at h
  obtain ⟨⟨⟨⟨hc, hg⟩, hf⟩, hr⟩, hl⟩ := h
  refine ⟨hc, ?_, hf, hr, hl⟩
  rw [State.group, List.getD_eq_getElem?_getD, List.getElem?_eq_getElem hg]; rfl

def readyB (s : State) (g : Nat) (c : Ctl) (i : Instr) : Bool :=
  s.ready (s.group g) c (uses (readGroup c (s.group g)).gw i)

def issuesB (s : State) (g : Nat) (pc : Word) (i : Instr) : Bool :=
  match i.ctl? with
  | none => false
  | some c =>
    let G := s.group g
    issuingB s g pc && readyB s g c i &&
    decide (staticFault i (readGroup c G) (headerOf s G).regs (headerOf s G).acc (G.issueT c) (uses (readGroup c G).gw i) = none)

theorem issues_of {s : State} {g : Nat} {pc : Word} {i : Instr} (h : issuesB s g pc i = true) :
    ∃ c, i.ctl? = some c ∧ Issues i c s g pc (s.group g) := by
  unfold issuesB at h
  split at h
  · cases h
  · rename_i c hc
    simp only [Bool.and_eq_true, decide_eq_true_eq] at h
    exact ⟨c, hc, { issuing_of h.1.1 with ready := h.1.2, legal := h.2 }⟩

/-- The words issue normally in `s`, from the fragment at `pc0` of group 0. -/
def issues (s : State) (is : List Instr) : Bool := is.all (issuesB s 0 pc0)
/-- And some lane takes part. -/
def performs (s : State) (is : List Instr) : Bool :=
  is.all fun i => issuesB s 0 pc0 i && match i.ctl? with
    | some c => !(participants c pc0 (s.group 0)).isEmpty
    | none => false

theorem performs_of {s : State} {i : Instr} (h : performs s [i] = true) :
    ∃ c, i.ctl? = some c ∧ Performs i c s 0 pc0 (s.group 0) := by
  simp only [performs, List.all_cons, List.all_nil, Bool.and_true, Bool.and_eq_true] at h
  obtain ⟨c, hc, hi⟩ := issues_of h.1
  rw [hc] at h
  refine ⟨c, hc, { hi with part := ?_ }⟩
  have := h.2
  simpa [List.isEmpty_iff] using this

/-- What the word sees. -/
def ctx (s : State) (i : Instr) : Ctx := ctxAt i (i.ctl?.getD k0) s 0 pc0 (s.group 0)

/-! ## Witnesses: encoding, reset, memory, the step -/

/-- Well-formed words, one of each layout, the paired one a legal pair. -/
theorem witness_DecodeOfEncode : ([Instr.nop k0 ⟨0, 0, 0, 0, 0⟩, .bra k0 ⟨0xFFFFFFF, 0⟩, .ld k0 ⟨127, 127, 0x6F, 0x40, 0, 0xFFFFFFFF⟩,
    .smovi k0 ⟨63, 0, 0, 0, 1, 0xFFFFFFFF, 0xFFFFFFFF⟩, .paired k0 ⟨0x60, 4, 1, 2, 0, 0x20, 8, 9, 0x0A, 0⟩].all fun i =>
    WellFormed i && (encodeBits i).isSome && match i with | .paired c p => pairOk c p | _ => true) = true := by decide +kernel
/-- Words of 8, 12 and 16 bytes; the length code 11; a byte of a number. -/
theorem witness_InstructionLength : [0x0003F000, 0x0000004020430A1A0303A001, 0x00000002000000040483102AE003F002].map
    (fun w => match decodeBits w with | .ok i => i.size | .error _ => 0) = [8, 12, 16] ∧ 7 % 4 = 3 ∧ 0 < 1 ∧ 255 < 2 ^ (8 * 1) := by decide +kernel
/-- Unassigned opcodes at the ends of their ranges, and opcodes under another length. -/
theorem witness_IllegalEncodings : ([0x017, 0x03F, 0x0A2, 0x36A, 0x3FF].all fun o =>
      match decodeBits (0x3F000 + o * 2 ^ 24) with | .error .opcUnassigned => true | _ => false) = true ∧
    ([0x203, 0x2E0].all fun o => match decodeBits (0x3F000 + o * 2 ^ 24) with | .error .lenMismatch => true | _ => false) = true ∧
    bitAt (0x3F001 + 0x203 * 2 ^ 24) 33 = true := by decide +kernel
/-- Faults of rows 6 to 9: a register above `.regs`, a reserved field, a privileged word at level U, a result not yet due under
the checking scoreboard. -/
theorem witness_IllegalEncodings_rows :
    let few : State := { st with launches := st.launches.map fun L => { L with hdr := { L.hdr with regs := 32 } } }
    let chk := onGroup (fun G => { G with chk := true, fixed := [⟨100, 0, [.s 1], []⟩] }) st
    let add40 := Instr.add k0 ⟨0, 40, 0, 0, 0⟩
    let rd := Instr.csrrd k0 ⟨0, 0, 0, 0, 0⟩
    let use1 := Instr.sadd k0 ⟨0, 1, 0, 0, 1⟩
    issuingB few 0 pc0 = true ∧ readyB few 0 k0 add40 = true ∧ namesOk (uses 32 add40) 32 64 = false ∧
    issuingB st 0 pc0 = true ∧ readyB st 0 k0 (.nop k0 ⟨1, 0, 0, 0, 0⟩) = true ∧ WellFormed (.nop k0 ⟨1, 0, 0, 0, 0⟩) = false ∧
    issuingB stU 0 pc0 = true ∧ readyB stU 0 k0 rd = true ∧ WellFormed rd = true ∧ (stU.group 0).levelS = false ∧
      namesOk (uses 32 rd) (headerOf stU (stU.group 0)).regs (headerOf stU (stU.group 0)).acc = true ∧
    issuingB chk 0 pc0 = true ∧ readyB chk 0 k0 use1 = true ∧ WellFormed use1 = true ∧
      (readGroup k0 (chk.group 0)).undersize ((chk.group 0).issueT k0) (uses 32 use1) = true := by decide +kernel
/-- The six privileged words at level U, each legal at level S. -/
theorem witness_PrivilegeOfLevelU : ([Instr.csrrd k0 ⟨0, 0, 0, 0, 0⟩, .csrwr k0 ⟨0, 0, 0, 0, 0⟩, .sret k0 ⟨0, 0, 0, 0, 0⟩, .stbinv k0 ⟨0, 0, 0, 0, 0⟩,
    .spmap k0 ⟨0, 0, 0, 0, 0⟩, .spunmap k0 ⟨0, 0, 0, 0, 0⟩].all fun i => issuingB stU 0 pc0 && readyB stU 0 k0 i && WellFormed i &&
      namesOk (uses 32 i) (headerOf stU (stU.group 0)).regs (headerOf stU (stU.group 0)).acc && issuesB st 0 pc0 i) = true := by decide +kernel
/-- A state with canonical memory whose step answers a next state. -/
theorem witness_StepKeepsMemoryCanonical : Cells.wf st.mem = true ∧ Cells.wf st.hostMem = true ∧
    (match step st with | .next _ => true | _ => false) = true := by decide +kernel
theorem witness_BytesOfMemory : Cells.wf [(3, 7#8), (9, 1#8)] = true ∧ 0 < 8 := by decide +kernel
/-- Nothing else to do: the quarter chooses the fragment, and its word is fetched; its bytes stand where the address translates to. -/
theorem witness_StepRunsTheFetchedWord : st.power = true ∧ st.inputs = [] ∧ st.nextEvent.isNone = true ∧ st.pick = some (0, pc0) ∧
    st.fragmentCount ≠ 0 ∧ st.mayIssue 0 pc0 = true ∧
    (match st.fetch 0 pc0 with | .word i => decide (i = .nop k0 ⟨0, 0, 0, 0, 0⟩) | _ => false) = true ∧
    (match exec (.nop k0 ⟨0, 0, 0, 0, 0⟩) st with | .next t => !(t.unready 0 pc0) && decide ((t.group 0).seq ≠ (st.group 0).seq) | _ => false) = true ∧
    (let busy := onGroup (fun G => { G with fills := [3] }) st
     match exec (.nop k0 ⟨0, 0, 0, 0, 0⟩) busy with | .next t => t.unready 0 pc0 | _ => false) = true ∧
    encodeBits (.nop k0 ⟨0, 0, 0, 0, 0⟩) = some 0x3F000 ∧
    (match st.xlateAll 0 (st.group 0) 0 pc0 .fetch [(0, 0x10000)] with
      | .ok (l :: _) => !(st.poisoned l.pa) && Cells.readLE st.mem l.pa 8 == 0x3F000 | _ => false) = true := by decide +kernel
/-- An input; an event that is due; neither; no power. -/
theorem witness_StepOrder : st.power = true ∧ st.inputs = [] ∧ State.reset.nextEvent.isNone = true ∧ State.reset.pick.isNone = true ∧
    State.reset.inputs = [] ∧ (onGroup (fun G => { G with lanes := G.lanes.map fun y => { y with st := .exited } }) st).nextEvent.isSome = true ∧
    Instr.reportReady false ≠ .powerOnReset := by
  and_intros <;> decide +kernel

/-! ## Witnesses: words with a fixed latency -/

/-- Every word of `scalarRule`, in the forms of its MOD, with immediates at the ends of their range, performed in all lanes, in
some, and in none. -/
theorem witness_ScalarResults :
    let is := fun (k : Ctl) => [Instr.sadd k ⟨1, 2, 3, 0, 0⟩, .sadd k ⟨1, 2, 0, 0x40, 1⟩, .sadd k ⟨63, 2, 3, 0, 2⟩, .sadd k ⟨1, 63, 0, 0x3F, 3⟩, .ssub k ⟨1, 2, 3, 0, 0⟩,
      .smul k ⟨1, 2, 0, 127, 1⟩, .smulh k ⟨1, 2, 3, 0, 1⟩, .sdiv k ⟨1, 2, 3, 0, 0⟩, .srem k ⟨1, 2, 3, 0, 1⟩, .sand k ⟨1, 2, 3, 0, 0⟩, .sor k ⟨1, 2, 3, 0, 0⟩,
      .sxor k ⟨1, 2, 0, 5, 1⟩, .sshl k ⟨1, 2, 0, 64, 1⟩, .sshr k ⟨1, 2, 0, 63, 1⟩, .ssar k ⟨1, 2, 0, 127, 1⟩, .smin k ⟨1, 2, 0, 0x7F, 3⟩, .smax k ⟨1, 2, 3, 0, 1⟩,
      .ssel k ⟨1, 2, 3, 7, 0⟩, .smov k ⟨1, 2, 0, 31, 1⟩, .smov k ⟨1, 2, 0, 0, 0⟩, .smovi k ⟨1, 0, 0, 0, 1, 0xFFFFFFFF, 0xFFFFFFFF⟩, .slea k ⟨1, 2, 3, 63, 0⟩,
      .spopc k ⟨1, 2, 0, 0, 0⟩, .sclz k ⟨1, 2, 0, 0, 0⟩, .sffs k ⟨1, 2, 0, 0, 0⟩, .prec k ⟨1, 2, 0, 0, 0⟩, .precExp k ⟨1, 2, 0, 0, 1⟩, .ballot k ⟨1, 7, 0, 0, 0⟩]
    issues st (is k0) = true ∧ issues half (is k0) = true ∧ issues st (is kOff) = true ∧ (is k0).all (fun i => (scalarRule i).isSome) = true ∧
      (st.group 0).gw ≤ 64 := by decide +kernel
/-- Form T with each width, a register and an immediate; form U; the words with a rule of their own. -/
theorem witness_VectorIntegerResults :
    let t := [Instr.add k0 ⟨1, 2, 3, 0, 0⟩, .add k0 ⟨1, 2, 0x40, 2, 1⟩, .sub k0 ⟨1, 2, 3, 0, 2⟩, .mul k0 ⟨1, 2, 3, 0, 0⟩, .mulh k0 ⟨1, 2, 3, 1, 0⟩, .min k0 ⟨1, 2, 0x7F, 3, 0⟩,
      .max k0 ⟨1, 2, 3, 0, 1⟩, .and k0 ⟨1, 2, 3, 0, 0⟩, .or k0 ⟨1, 2, 3, 0, 0⟩, .xor k0 ⟨1, 2, 3, 0, 0⟩, .andn k0 ⟨1, 2, 3, 0, 0⟩, .shl k0 ⟨1, 2, 32, 2, 0⟩,
      .shr k0 ⟨1, 2, 127, 2, 0⟩, .sar k0 ⟨1, 2, 3, 0, 2⟩, .rot k0 ⟨1, 2, 8, 2, 2⟩, .addsat k0 ⟨1, 2, 3, 1, 0⟩, .subsat k0 ⟨1, 2, 3, 0, 0⟩, .avg k0 ⟨1, 2, 3, 0, 0⟩]
    let u := [Instr.abs k0 ⟨1, 2, 0, 4, 0⟩, .neg k0 ⟨1, 2, 0, 0, 2⟩, .not k0 ⟨1, 2, 0, 0, 0⟩, .popc k0 ⟨1, 2, 0, 0, 0⟩, .clz k0 ⟨1, 2, 0, 0, 1⟩, .ffs k0 ⟨1, 2, 0, 0, 0⟩,
      .brev k0 ⟨1, 2, 0, 0, 0⟩]
    let r := [Instr.mad k0 ⟨1, 2, 3, 4, 0⟩, .bfe k0 ⟨1, 2, 3, 1, 0⟩, .bfi k0 ⟨1, 2, 3, 4, 0⟩, .sel k0 ⟨1, 2, 3, 7, 0⟩, .sad k0 ⟨1, 2, 3, 4, 2⟩, .dp4 k0 ⟨1, 2, 3, 4, 3⟩,
      .plpack k0 ⟨1, 2, 0, 0, 0⟩, .bfpexpGet k0 ⟨1, 2, 0, 0, 0⟩, .scan k0 ⟨1, 2, 0, 0x1A, 0⟩]
    issues st (t ++ u ++ r) = true ∧ issues half (t ++ u ++ r) = true ∧ t.all (fun i => (formTRule i).isSome) = true ∧
      u.all (fun i => (formURule i).isSome) = true ∧ r.all (fun i => (laneRule i).isSome) = true := by decide +kernel
/-- Predicates, moves of each form, and each special register in each form. -/
theorem witness_RegisterResults :
    let p := [Instr.scmp k0 ⟨6, 1, 2, 5, 1⟩, .cmp k0 ⟨7, 1, 2, 0x34, 2⟩, .fcmp k0 ⟨0, 1, 2, 7, 0⟩, .vote k0 ⟨1, 2, 0, 0, 2⟩, .elect k0 ⟨1, 0, 0, 0, 0⟩]
    let m := [Instr.mov k0 ⟨1, 2, 0, 0, 0⟩, .movi k0 ⟨1, 0, 0, 0, 0, 0xFFFFFFFF, 0⟩, .movi k0 ⟨1, 0, 0, 0, 2, 255, 0⟩, .movi k0 ⟨2, 0, 0, 0, 3, 1, 0xFFFFFFFF⟩,
      .cvti k0 ⟨1, 2, 0, 0x62, 0⟩, .cvti k0 ⟨1, 2, 0, 0x70, 2⟩]
    issues st (p ++ m) = true ∧ issues half (p ++ m) = true ∧ p.all (fun i => (predicateRule i).isSome) = true ∧
      issues st ((List.range 9).map fun k => .sr k0 ⟨2, 0, 0, BitVec.ofNat 7 (k + 1), 0⟩) = true ∧
      issues st ((List.range 10).map fun k => .sr k0 ⟨2, 0, 0, BitVec.ofNat 7 k, 1⟩) = true := by decide +kernel
/-- Each format, and exact values that are tied, tiny and huge. -/
theorem witness_RoundingIsCorrect : roundingTable.length = 5 ∧ (0 : Nat) < 1 := by decide
theorem witness_FloatResults :
    let is := [Instr.fadd k0 ⟨1, 2, 3, 0, 0⟩, .fsub k0 ⟨1, 2, 3, 0, 1⟩, .fmul k0 ⟨1, 2, 3, 0, 2⟩, .ffma k0 ⟨1, 2, 3, 4, 3⟩, .frcp k0 ⟨1, 2, 0, 0, 0⟩, .frsq k0 ⟨1, 2, 0, 0, 0⟩,
      .fsqrt k0 ⟨1, 2, 0, 0, 3⟩, .fexp2 k0 ⟨1, 2, 0, 0, 0⟩, .flog2 k0 ⟨1, 2, 0, 0, 0⟩, .frnd k0 ⟨1, 2, 0, 0, 3⟩]
    issues st is = true ∧ is.all (fun i => (floatRule i).isSome) = true ∧ issues st [.fclass k0 ⟨1, 2, 0, 0, 0⟩] = true := by decide +kernel
theorem witness_FloatResults_order : issues st [.fmin k0 ⟨1, 2, 3, 0, 0⟩, .fmax k0 ⟨1, 2, 2, 0, 0⟩] = true := by decide +kernel
/-- Every format of the table; NaNs, infinities, values above the range and below it; every action. -/
theorem witness_ConversionPolicy : policyTable.length = 4 ∧ ([0, 255].all fun pol => decide (pol < 256)) = true := by decide
/-- Conversions whose operands are all representable, and one with a NaN under the fault action. -/
theorem witness_ConversionResults :
    let cs := [Instr.fcvt k0 ⟨8, 0x0C, 0x20, 0x61, 1⟩, .f2i k0 ⟨0, 4, 0, 1, 0⟩, .i2f k0 ⟨0, 4, 0, 0x08, 0⟩]
    let ps := [Instr.fpack k0 ⟨1, 2, 0, 0x10, 0⟩, .funpk k0 ⟨1, 2, 0, 0x10, 0⟩]
    let nan := onGroup (fun G => { G with v := G.v.map fun r => { r with lanes := r.lanes.map fun _ => 0x7FC00000#32 } }) st
    let faulting := Instr.fpack k0 ⟨1, 2, 0x40, 0x50, 0⟩
    issues st (cs ++ ps) = true ∧ cs.all (fun i => (conversionRule i).isSome) = true ∧ ps.all (fun i => (packRule i).isSome) = true ∧
      issues nan [faulting] = true ∧
      (match packRule faulting with | some (_, _, r) => (r (ctx nan faulting) 0).isNone | none => false) = true := by decide +kernel
theorem witness_BlockSelection : 2 ≤ 8 ∧ 8 ≤ 8 ∧ 0xA0 < 256 ∧ (List.replicate 32 (Sys2Proof.Num.fin false 500 0)).length ≤ 32 := by decide
/-- Block conversions without and with an element that faults; the words with a BFP result of BFP and other registers. -/
theorem witness_BlockResults :
    let nan := onGroup (fun G => { G with v := G.v.map fun r => { r with lanes := r.lanes.map fun _ => 0x7FC00000#32 } }) st
    let bfp := onGroup (fun G => { G with v := G.v.map fun r => { r with tag := ⟨0x8080808080808080#64, 0x68#16⟩ } }) st
    let cv := Instr.bfpcvt k0 ⟨8, 4, 0x60, 0x4F, 0⟩
    let fault := fun (s : State) => (partBlocks (ctx s cv)).any fun k => !((bfpConvert 8 (rmOf 0) (policy ⟨8, 4, 0x60, 0x4F, 0⟩)
      (blockSource (ctx s cv) ⟨8, 4, 0x60, 0x4F, 0⟩ k)).faults).isEmpty
    let ws := [Instr.bfpexpSet k0 ⟨1, 2, 3, 0, 1⟩, .plunpk k0 ⟨1, 2, 3, 8, 0⟩, .ptrunc k0 ⟨1, 2, 0, 1, 2⟩]
    issues st [cv] = true ∧ fault st = false ∧ issues nan [cv] = true ∧ fault nan = true ∧ issues bfp ws = true ∧ issues half ws = true ∧
      ws.all (fun i => (blockRule i).isSome) = true ∧ ((ctx bfp (.ptrunc k0 ⟨1, 2, 0, 1, 2⟩)).tag 2).fmt = 6 ∧
      ((ctx half (.ptrunc k0 ⟨1, 2, 0, 1, 2⟩)).tag 2).fmt = 0 ∧ performs st [.ufc k0 ⟨1, 0, 0, 0, 0⟩, .ufcClr k0 ⟨0, 0, 0, 0, 1⟩] = true := by decide +kernel
/-- Segments and modes of `shfl`, a broadcast lane that takes part, one that does not and one at GWIDTH. -/
theorem witness_LaneExchange :
    issues half ((List.range 4).map fun m => .shfl k0 ⟨1, 2, 3, 0x0A, BitVec.ofNat 2 m⟩) = true ∧
    issues half [.shfl k0 ⟨1, 2, 3, 0x40, 3⟩, .bcast k0 ⟨1, 2, 0, 30, 0⟩, .bcast k0 ⟨1, 2, 0, 31, 0⟩, .bcast k0 ⟨1, 2, 3, 0, 1⟩, .red k0 ⟨1, 2, 3, 0x0A, 0⟩,
      .red kOff ⟨1, 2, 3, 0, 0⟩, .matchLanes k0 ⟨2, 4, 1, 0, 0⟩, .compact k0 ⟨1, 2, 7, 3, 0⟩] = true ∧
    30 ∈ (ctx half (.bcast k0 ⟨1, 2, 0, 30, 0⟩)).part ∧ 31 ∉ (ctx half (.bcast k0 ⟨1, 2, 0, 31, 0⟩)).part ∧
    (withS st [0, 0, 0, 32]).group 0 = ((withS st [0, 0, 0, 32]).groups[0]?.getD Group.zero) ∧ (half.group 0).gw ≤ 64 := by
  and_intros <;> decide +kernel
theorem witness_PairedSlots : issues st [.paired k0 ⟨0x60, 4, 1, 2, 0, 0x20, 8, 9, 0x0A, 0⟩] = true ∧ (pairable 0x6D).isSome = true ∧
    issues half [slotInstr k0 0x20 ⟨8, 9, 0x0A, 0, 0⟩] = true := by decide +kernel
theorem witness_FixedWordFrame : issues half [.add k0 ⟨1, 2, 3, 0, 0⟩, .paired k0 ⟨0x60, 4, 1, 2, 0, 0x20, 8, 9, 0x0A, 0⟩] = true ∧
    (latency (.add k0 ⟨1, 2, 3, 0, 0⟩)).isSome = true ∧
    ([Instr.add k0 ⟨1, 2, 3, 0, 0⟩, .paired k0 ⟨0x60, 4, 1, 2, 0, 0x20, 8, 9, 0x0A, 0⟩].all fun i =>
      match exec i half with | .next t => decide ((t.group 0).stage = .running) | _ => false) = true := by decide +kernel
/-- Of two writes that have reached a register the later one counts. -/
theorem witness_ResultsLand :
    let f : FixedWrite := ⟨5, 2, [.s 1, .v 1, .p 6], [.s 1 7, .v 1 3 9, .p 6 3 true]⟩
    let e : FixedWrite := ⟨5, 1, [.s 1], [.s 1 8]⟩
    let G := { st.group 0 with fixed := [e, f, ⟨9, 3, [.s 1], [.s 1 6]⟩] }
    f ∈ G.fixed ∧ f.due ≤ 5 ∧ (∀ f' ∈ G.fixed, f' ≠ f → f'.due ≤ 5 → f'.due < f.due ∨ (f'.due = f.due ∧ f'.seq < f.seq)) ∧
      1 < G.s.length ∧ 3 < G.lanes.length ∧ 1 < G.v.length := by decide +kernel

/-! ## Witnesses: control flow and the group -/

/-- p1 is set in lanes 0 to 3 of `st`. -/
def someP1 : State := onGroup (fun G => { G with lanes := G.lanes.zipIdx.map fun (y, l) => { y with preds := if l < 4 then 2#7 else 0#7 } }) st
def kP1 : Ctl := { k0 with pred := 1 }
/-- Scalars 1 to 3: an address in this page, one at 2^56, one where no instruction starts. -/
def addrs : State := withS someP1 [0, 0x10040, 2 ^ 56, 0x1001C]
/-- v2:v3 hold 0x10040 in every lane; v4:v5 hold 2^56 in lane 1 and 0x1001C in the others. -/
def pairs : State := onGroup (fun G => { G with v := (List.range 128).map fun r => ⟨(List.range 32).map fun l =>
  if r = 2 then 0x10040#32 else if r = 4 then (if l = 1 then 0#32 else 0x1001C#32) else if r = 5 then (if l = 1 then 0x1000000#32 else 0#32) else 0#32, ⟨0, 0⟩⟩ }) someP1

def relOk (r : Rel) : Bool := match r with | .ok => true | _ => false
def relWaits (r : Rel) : Bool := match r with | .wait => true | _ => false
def fetchableB (t : Word) : Bool := decide (t.toNat < 2 ^ 56) && decide (t.toNat % 4 = 0) && decide (t.toNat % 32 ≠ 28)
def targetsOk (s : State) (i : Instr) : Bool :=
  match transferRule i with
  | some (dst, _) => (dst (ctx s i)).all fun p => fetchableB p.2
  | none => false
def targets (s : State) (i : Instr) : List (Nat × Word) := match transferRule i with | some (dst, _) => dst (ctx s i) | none => []

theorem witness_Branches :
    let is := [Instr.bra kP1 ⟨8, 0⟩, .brc kP1 ⟨8, 0⟩, .brc kP1 ⟨8, 1⟩, .brc kOff ⟨0xFFFFFF8, 2⟩, .brx kP1 ⟨0, 1, 0, 0, 1⟩, .call kP1 ⟨8, 0⟩, .callx kP1 ⟨2, 1, 0, 0, 1⟩]
    let ps := [Instr.brx kP1 ⟨0, 2, 0, 0, 0⟩, .callx kP1 ⟨126, 2, 0, 0, 0⟩, .ret kP1 ⟨0, 2, 0, 0, 0⟩]
    issues addrs is = true ∧ is.all (targetsOk addrs) = true ∧ issues pairs ps = true ∧ ps.all (targetsOk pairs) = true ∧
      126 + 1 < (pairs.group 0).v.length ∧ ((pairs.group 0).v.all fun r => decide (r.lanes.length = 32)) = true := by decide +kernel
/-- A target at 2^56, one where no instruction starts, and both in one branch. -/
theorem witness_Branches_faults :
    issues addrs [.brx k0 ⟨0, 2, 0, 0, 1⟩, .brx k0 ⟨0, 3, 0, 0, 1⟩] = true ∧ targets addrs (.brx k0 ⟨0, 2, 0, 0, 1⟩) ≠ [] ∧
      (targets addrs (.brx k0 ⟨0, 2, 0, 0, 1⟩)).all (fun p => decide (2 ^ 56 ≤ p.2.toNat)) = true ∧
      (targets addrs (.brx k0 ⟨0, 3, 0, 0, 1⟩)).all (fun p => !(fetchableB p.2) && decide (p.2.toNat < 2 ^ 56)) = true ∧
      issues pairs [.ret k0 ⟨0, 4, 0, 0, 0⟩] = true ∧ ((targets pairs (.ret k0 ⟨0, 4, 0, 0, 0⟩)).take 2).map (fun p => p.2.toNat) = [0x1001C, 2 ^ 56] := by
  decide +kernel
/-- With and without a refill point; a meeting that can be fetched, one that cannot, and one named by no lane. -/
theorem witness_ThreadStates :
    let withRefill := onGroup (fun G => { G with refill := some ⟨pc0, pc0, 2⟩ }) someP1
    issues someP1 [.exit kP1 ⟨0, 0, 0, 0, 0⟩, .done kP1 ⟨0, 0, 0, 0, 0⟩, .meetw kP1 ⟨0, 0, 0, 0, 0⟩, .meet kP1 ⟨8, 0⟩, .meet k0 ⟨7, 0⟩, .meet kOff ⟨7, 0⟩] = true ∧
      issues withRefill [.done kP1 ⟨0, 0, 0, 0, 0⟩] = true ∧ (someP1.group 0).refill = none ∧ (withRefill.group 0).refill ≠ none ∧
      (pc0 + BitVec.ofInt 64 (4 * 7)).toNat % 32 = 28 ∧ (ctx someP1 (.meet kOff ⟨7, 0⟩)).part = [] ∧ (ctx someP1 (.meet k0 ⟨7, 0⟩)).part ≠ [] := by
  and_intros <;> decide +kernel
/-- The last lanes and some lanes of a group exit; a default-form phase that goes on, one that ends, one in which the group has arrived
and one of the other form. -/
theorem witness_ThreadStates_exits :
    let bars := [⟨0, 64, false, 0, []⟩, ⟨60, 64, false, 0, []⟩, ⟨32, 64, false, 0, [0]⟩, ⟨1, 64, false, 1, []⟩]
    let s := someP1.modTeam 0 fun t => { t with bars := bars }
    performs s [.exit k0 ⟨0, 0, 0, 0, 0⟩, .exit kP1 ⟨0, 0, 0, 0, 0⟩] = true ∧
      ((ctx s (.exit kP1 ⟨0, 0, 0, 0, 0⟩)).part.length = 4 ∧ (ctx s (.exit k0 ⟨0, 0, 0, 0, 0⟩)).part.length = 32) ∧ (s.team 0).bars = bars ∧
      (match exec (.exit k0 ⟨0, 0, 0, 0, 0⟩) s with | .next _ => true | _ => false) = true := by decide +kernel
/-- The token free, held by the group and held by another; a partner on the quarter and none; an assertion that holds and one that
fails. -/
theorem witness_ControlWords :
    let two := { someP1 with groups := someP1.groups ++ [{ someP1.group 0 with gidx := 1 }] }
    let two := two.modTeam 0 fun t => { t with groups := [0, 1] }
    let pass := [Instr.tokpass k0 ⟨0, 0, 0, 1, 1⟩, .tokpass k0 ⟨0, 0, 0, 5, 1⟩, .tokpass k0 ⟨0, 1, 0, 0, 0⟩, .tokwait k0 ⟨0, 0, 0, 0, 0⟩]
    let mine := two.setHolder (two.group 0) (some 0)
    let other := two.setHolder (two.group 0) (some 1)
    issues someP1 [.nop k0 ⟨0, 0, 0, 0, 0⟩, .assert k0 ⟨0, 1, 0, 0, 0, 0⟩, .assert k0 ⟨0, 7, 0, 0, 0, 0x7FFFFFFF⟩, .assert k0 ⟨0, 7, 0, 0, 1, 0x80000000⟩] = true ∧
      performs someP1 [.yield k0 ⟨0, 0, 0, 0, 0⟩, .brk k0 ⟨0, 0, 0, 127, 0⟩] = true ∧
      performs two pass = true ∧ performs mine pass = true ∧ performs other pass = true ∧
      two.holder (two.group 0) = none ∧ mine.holder (mine.group 0) = some 0 ∧ other.holder (other.group 0) = some 1 ∧
      (mine.team 0).groups = [0, 1] ∧ (mine.group 1).stage = .running ∧ (mine.group 1).core = (mine.group 0).core ∧ (mine.team 0).groups[5]? = none ∧
      (ctx someP1 (.assert k0 ⟨0, 7, 0, 0, 0, 0⟩)).G.pred 7 0 = true := by
  and_intros <;> decide +kernel
theorem witness_CheckingScoreboard : performs st [.chkOn k0 ⟨0, 0, 0, 0, 0⟩, .chkOff k0 ⟨0, 0, 0, 0, 0⟩] = true ∧
    WellFormed (.chkOn k0 ⟨0, 0, 0, 0, 0⟩) = true := by decide +kernel
/-- A share with room, a full one, one with a capacity of 0; a refill with items and done lanes, without, and with an exit target that
cannot be fetched. -/
theorem witness_QueueWords :
    let none' : State := { st with launches := st.launches.map fun L => { L with crec := { L.crec with iqs := 0 } } }
    let full := st.setShare 0 (List.replicate 256 5#64)
    let some' := (st.setShare 0 [7#64, 8#64])
    let dones := onGroup (fun G => { G with lanes := G.lanes.zipIdx.map fun (y, l) => if l % 2 = 0 then y else { y with st := .done } }) some'
    let q := [Instr.iqPush k0 ⟨0, 2, 0, 0, 0⟩, .iqPush k0 ⟨0, 1, 0, 0, 1⟩, .iqLoad k0 ⟨4, 0, 1, 0, 0⟩]
    performs none' q = true ∧ (ctx none' (.iqCount k0 ⟨1, 0, 0, 0, 0⟩)).shareRoom = 0 ∧
      performs some' q = true ∧ performs full q = true ∧ performs some' [.iqCount k0 ⟨1, 0, 0, 0, 0⟩] = true ∧ (some'.share 0).length = 2 ∧
      (ctx some' (.iqCount k0 ⟨1, 0, 0, 0, 0⟩)).shareRoom = 256 ∧ (full.share 0).length = 256 ∧ relOk (some'.relCheck 0 2) = true ∧
      performs dones [.refill k0 ⟨2, 8, 0, 0, 0⟩, .refill k0 ⟨2, 7, 0, 0, 0⟩] = true ∧ performs some' [.refill k0 ⟨2, 8, 0, 0, 0⟩] = true ∧
      (dones.group 0).doneLanes.length = 16 ∧ (pc0 + BitVec.ofInt 64 (4 * 7)).toNat % 32 = 28 := by
  and_intros <;> decide +kernel

/-! ## Witnesses: buffer records and global accesses -/

/-- A KIND 1 record with a base and an extent. -/
def linear (base extent : Nat) : Rec256 := BitVec.ofNat 256 (2 ^ 252 + extent * 2 ^ 64 + base)
/-- A KIND 3 record of 8 planes: exponents at the base, plane j at base + 0x100 + 0x100 j. -/
def planes : Rec256 := BitVec.ofNat 256 (3 * 2 ^ 252 + 8 * 2 ^ 240 + 0x100 * 2 ^ 192 + 0x100 * 2 ^ 128 + 1024 * 2 ^ 64 + 0x18000)
/-- b0 is the record, lane l of v1 holds 4 l, s1 holds 0. -/
def mem (r : Rec256) : State := withB (onGroup (fun G => { G with v := G.v.map fun y => { y with lanes := (List.range 32).map fun l => BitVec.ofNat 32 (4 * l) } }) st) r
def ldw : Instr := .ld k0 ⟨2, 1, 0, 0x40, 0, 0⟩
def stw : Instr := .st k0 ⟨2, 1, 0, 0x40, 0, 0⟩
def okRec : Rec256 := linear 0x18000 0x1000

theorem witness_RecordWords :
    let s := withS (mem okRec) [0, 1, 2 ^ 40 - 1, 2 ^ 40, 2 ^ 56]
    performs s [.brecSet k0 ⟨1, 0, 2, 8, 0⟩, .brecSet k0 ⟨1, 0, 3, 8, 0⟩, .brecSet k0 ⟨15, 0, 4, 9, 0⟩, .brecSet k0 ⟨1, 0, 0, 10, 0⟩, .brecSet k0 ⟨1, 0, 1, 10, 0⟩,
        .brecx k0 ⟨1, 0, 0, 4, 0, 0xFFFFFFFF, 0xFF⟩, .brecx k0 ⟨1, 0, 0, 10, 0, 0, 1⟩, .brecGet k0 ⟨1, 0, 0, 9, 1⟩] = true ∧
      recordFields[8]? = some (64, 40) ∧ recordFields[9]? = some (0, 56) ∧
      issues s [.bchk k0 ⟨1, 1, 0x40, 0x7F, 0⟩, .bchk kOff ⟨1, 1, 0x40, 0, 0⟩] = true ∧ issues (mem (linear (2 ^ 255) 0)) [.bchk k0 ⟨1, 1, 0x40, 0, 0⟩] = true ∧
      recBad (okRec.toNat) [1, 2, 3] = false ∧ recBad ((linear (2 ^ 255) 0).toNat) [1, 2, 3] = true := by decide +kernel

def offsetsOf (i : Instr) (s : State) : Option (Nat × List (Nat × Int) × Nat) :=
  (accessRule i).map fun rule => let r := rule (ctx s i); (r.1, (ctx s i).part.map (fun l => (l, r.2.1 l)), r.2.2.1)
/-- A bad record, STRICT bounds, addresses at 2^56 and across it, an odd address, a translation that faults and one that waits. -/
theorem witness_AccessChecksInOrder :
    let strict := BitVec.ofNat 256 ((linear 0x18000 64).toNat + 2 ^ 247)
    let noWrite : State := { mem okRec with cores := modAt (mem okRec).cores 0 fun c => { c with tlb := [⟨0, 0x10000, 65536, BitVec.ofNat 64 (0x10000 + 2 ^ 10 + 3)⟩] } }
    let noTlb : State := { mem okRec with cores := modAt (mem okRec).cores 0 fun c => { c with tlb := [] } }
    let run := fun (s : State) (i : Instr) => match offsetsOf i s with
      | none => none
      | some (r, offs, n) => match checkLanes r offs n with
        | .error e => some (e.1, e.2.1)
        | .ok (live, _) => match (ctx s i).s.xlateAll 0 (ctx s i).G 0 pc0 (if i = stw then .store else .load) live with
          | .ok _ => some (0, 0) | .fault _ c l _ _ => some (c, 1000 + l) | .wait .. => some (2000, 0)
    performs (mem (linear (2 ^ 255) 0)) [ldw] = true ∧ run (mem (linear (2 ^ 255) 0)) ldw = some (0x02, 0) ∧
      performs (mem strict) [ldw] = true ∧ run (mem strict) ldw = some (0x10, 16) ∧
      performs (mem (linear (2 ^ 56 - 64) 0x1000)) [stw] = true ∧ run (mem (linear (2 ^ 56 - 64) 0x1000)) stw = some (0x11, 16) ∧
      run (mem (linear (2 ^ 56 - 66) 0x1000)) stw = some (0x12, 16) ∧
      run (mem (linear 0x18001 0x1000)) ldw = some (0x13, 0) ∧ run (mem (linear 0x18000 64)) ldw = some (0, 0) ∧
      run noWrite stw = some (0x15, 1000) ∧ run (mem (linear 0x30000 0x1000)) ldw = some (0x14, 1000) ∧ run noTlb ldw = some (2000, 0) := by decide +kernel

def okMem : State := mem okRec
def linesOf (s : State) (how : How) (reqs : List (Nat × Nat)) : List XLine :=
  match (ctx s ldw).s.xlateAll 0 (ctx s ldw).G 0 pc0 how reqs with | .ok ls => ls | _ => []
def xlates (s : State) (how : How) (reqs : List (Nat × Nat)) : Bool :=
  match (ctx s ldw).s.xlateAll 0 (ctx s ldw).G 0 pc0 how reqs with | .ok ls => ls.length == reqs.length | _ => false
/-- The lanes' offsets under the record pass steps 1 to 4. -/
def accessOkB (i : Instr) (s : State) : Bool :=
  match offsetsOf i s with
  | some (r, offs, n) => match checkLanes r offs n with | .ok _ => true | .error _ => false
  | none => false
def liveOf (i : Instr) (s : State) : List (Nat × Nat) :=
  match accessRule i with
  | some rule => let r := rule (ctx s i); liveLanes r.1 (ctx s i).part r.2.1 r.2.2.1
  | none => []
def heldUp : State := onGroup (fun G => { G with outst := [{ ctx st ldw |>.oword [] (.store []) with id := 7, isStore := true }] }) okMem

/-- Loads and stores in bounds and dropped, with and without a release; plane accesses that need lines and one that holds every plane;
a prefetch of nothing good. -/
theorem witness_AccessesIssue :
    let rel := Instr.st k0 ⟨2, 1, 0x20, 0x40, 0, 0⟩
    let small := mem (linear 0x18000 64)
    let all8 := onGroup (fun G => { G with v := G.v.map fun y => { y with tag := ⟨0, 0x68⟩ } }) (mem planes)
    let checked := fun (n : Nat) (o : Int) => (ctx (mem planes) ldw).planeCheck planes.toNat o fun l => (laneLines planes.toNat o l).map fun a => (expAddr planes.toNat (4 * a), n)
    (match checked 4 0 with | .ok reqs => !reqs.isEmpty && xlates (mem planes) .load (reqs.map fun q => (q.1, q.2.1)) | .error _ => false) = true ∧
      (match checked 4 1 with | .error e => e.1 == 0x13 | .ok _ => false) = true ∧ (ctx okMem ldw).fits (mkAccs (liveOf ldw okMem) (linesOf okMem .load (liveOf ldw okMem)) 4 fun _ => []) = true ∧
    performs okMem [ldw, stw, rel] = true ∧ performs small [ldw, stw] = true ∧ performs heldUp [rel] = true ∧
      [ldw, stw, rel].all (fun i => accessOkB i okMem) = true ∧ accessOkB ldw small = true ∧ (liveOf ldw small).length = 16 ∧
      xlates okMem .load (liveOf ldw okMem) = true ∧ xlates okMem .store (liveOf stw okMem) = true ∧
      relOk ((ctx okMem rel).s.relCheck 0 2) = true ∧ relWaits ((ctx heldUp rel).s.relCheck 0 2) = true ∧
      issues okMem [.ld kOff ⟨2, 1, 0, 0x40, 0, 0⟩, .st kOff ⟨2, 1, 0, 0x40, 0, 0⟩, .atom kOff ⟨0, 1, 0, 3, 0, 0⟩] = true ∧
      performs (mem planes) [.ldpl k0 ⟨2, 1, 0, 8, 0, 0⟩, .ldrf k0 ⟨2, 1, 0, 8, 0, 0⟩, .stpl k0 ⟨2, 1, 0, 1, 0, 0⟩] = true ∧
      performs all8 [.ldrf k0 ⟨2, 1, 0, 8, 0, 0⟩] = true ∧ issues (mem planes) [.stpl kOff ⟨2, 1, 0, 1, 0, 0⟩, .ldpl kOff ⟨2, 1, 0, 1, 0, 0⟩] = true ∧
      issues (mem (linear (2 ^ 255) 0)) [.pref k0 ⟨0, 1, 0, 0, 0, 0⟩] = true := by decide +kernel

/-- A load of one lane of 4 bytes, and a result known at issue, outstanding in a running group. -/
def acc1 : Acc := ⟨31, 0x18000, 0x18000, 4, .here, .rc, false, false, [], [], 0, none⟩
def waitingFor (k : OKind) : State := onGroup (fun G => { G with outst := [{ ctx st ldw |>.oword [.v 2] k with id := 7, tok := some 0 }], w := 1 :: G.w.drop 1 }) okMem
def loading : State := waitingFor (.load [acc1] 4 2 false [])
def landing : State := waitingFor (.land [.s 1 5])
theorem witness_LoadsLand :
    (loading.group 0).stage = .running ∧ ((loading.group 0).outst.find? (fun y => y.id == 7)).isSome = true ∧
      (match (loading.group 0).outst with | [o] => !((loading.group 0).heldBack o (unitKind [acc1]) [acc1]) | _ => false) = true ∧ loading.poisoned 0x18000 = false ∧
      4 = sizeOf' 4 ∧ 0x18000 % 128 + 4 ≤ 128 ∧ (loading.core 0).l1 = [] ∧ ((loading.group 0).v.all fun v => decide (31 < v.lanes.length)) = true ∧
      2 + dataRegs 4 ≤ (loading.group 0).v.length ∧
      (match (landing.group 0).outst with | [o] => !((landing.group 0).heldBack o .rc []) | _ => false) = true := by decide +kernel
/-- Two stores to overlapping bytes; a masked plane byte; an access behind an open acquire, behind one to its bytes, and behind a mark. -/
theorem witness_StoresArePerformed :
    let a : Acc := { acc1 with data := [1, 2, 3, 4] }
    let b : Acc := { acc1 with pa := 0x18002, data := [5, 6] }
    let storing := waitingFor (.store [a, b])
    let m : Acc := { acc1 with size := 1, mask := [0x0F], data := [0x55] }
    let masking := waitingFor (.store [m])
    let behind := fun (e : OWord) => onGroup (fun G => { G with outst := e :: G.outst }) storing
    let e := ctx st ldw |>.oword [] (.load [acc1] 4 2 false [])
    let held := fun (s : State) (o : OWord) => match (s.group 0).outst with
      | [x, y] => decide (x ∈ (s.group 0).before y) && decide (x = o) && !x.kind.isWait
      | _ => false
    (storing.group 0).stage = .running ∧
      (match (storing.group 0).outst with | [o] => !((storing.group 0).heldBack o .rc [a, b]) && decide ((storing.group 0).nextBatch o = some [a, b]) | _ => false) = true ∧
      Cells.wf storing.mem = true ∧ ([a, b].all fun a => decide (a.own = .here ∧ a.fwd = none ∧ a.mask = [] ∧ a.kind = .rc)) = true ∧
      (match (masking.group 0).outst with | [o] => !((masking.group 0).heldBack o (unitKind [m]) [m]) | _ => false) = true ∧
      held (behind { e with acq := 2, kind := .land [] }) { e with acq := 2, kind := .land [] } = true ∧
      held (behind e) e = true ∧ spansMeet e.spans ((batchOf .rc (.store [a, b])).flatten.map Acc.span) = true ∧
      ((OKind.store [a, b]).units.all fun u => decide (unitKind u = .rc)) = true := by decide +kernel
/-- Add with the old values returned, and compare-and-swap on 64 bits. -/
theorem witness_AtomicsAtTheHome :
    let add := Instr.atom k0 ⟨4, 1, 0x20, 3, 0, 0x1C00000⟩
    let quiet := Instr.atom k0 ⟨0, 1, 0, 4, 0, 0x0050000⟩
    performs okMem [add, quiet] = true ∧ [add, quiet].all (fun i => accessOkB i okMem) = true ∧
      xlates okMem (.atomic true) (liveOf add okMem) = true ∧ (ctx okMem add).G.clear = true ∧
      (ctx okMem add).fits (mkAccs (liveOf add okMem) (linesOf okMem (.atomic true) (liveOf add okMem)) 4 fun _ => []) = true ∧
      (linesOf okMem (.atomic true) (liveOf add okMem)).all (fun l => decide (l.own = .here) && !(okMem.poisoned l.pa)) = true ∧
      (ctx okMem add).G.touches (mkAccs (liveOf add okMem) (linesOf okMem (.atomic true) (liveOf add okMem)) 4 fun _ => []) = false ∧
      relOk ((ctx okMem add).s.relCheck 0 2) = true ∧ Cells.wf okMem.mem = true := by decide +kernel
/-- With nothing open, with an open load, and with an open store. -/
theorem witness_FenceWords :
    let fs := [Instr.fenceAr k0 ⟨0, 0, 0, 1, 0⟩, .fenceAcq k0 ⟨0, 0, 0, 6, 1⟩, .fenceRel k0 ⟨0, 0, 0, 2, 2⟩, .fenceSysAll k0 ⟨0, 0, 0, 0, 3⟩]
    let open' := onGroup (fun G => { G with outst := [{ ctx st ldw |>.oword [] (.load [acc1] 4 2 false []) with id := 7, isLoad := true }] }) okMem
    performs okMem fs = true ∧ performs open' fs = true ∧ performs heldUp fs = true ∧ relOk (okMem.relCheck 0 6) = true ∧
      relWaits (heldUp.relCheck 0 1) = true ∧ heldUp.sent = [] ∧ (open'.group 0).outst.any (fun o => o.isLoad && !o.kind.isWait) = true := by decide +kernel
theorem witness_QuietWordsLeaveMemory : ([Instr.nop k0 ⟨0, 0, 0, 0, 0⟩, ldw, stw, .add k0 ⟨1, 2, 3, 0, 0⟩, .paired k0 ⟨0x60, 4, 1, 2, 0, 0x20, 8, 9, 0x0A, 0⟩].all fun i =>
    (quietWord i || match i with | .paired .. => true | _ => false) &&
      match exec i okMem with | .next t => decide ((t.group 0).stage = .running) | _ => false) = true ∧ okMem.cur = some (0, pc0) := by decide +kernel

/-! ## Witnesses: scratchpad and tiles -/

def pagesIn (s : State) (ps : List Nat) : State := match s.bring 0 0 ps with | .ok s _ => s | _ => s
/-- The four pages of the group's slot are resident and empty; as full; lane l of v1 holds 16 l. -/
def sp : State := pagesIn okMem [0, 1, 2, 3]
def full (s : State) : State := s.modCore 0 fun c => { c with frames := c.frames.map fun f => { f with fe := BitVec.allOnes 256 } }
def wideLanes (s : State) : State := onGroup (fun G => { G with v := G.v.map fun y => { y with lanes := (List.range 32).map fun l => BitVec.ofNat 32 (16 * l) } }) s

def spOk (i : Instr) (s : State) : Bool :=
  match scratchRule i with
  | none => false
  | some (own, n, offs) => let x := ctx s i
    x.G.clear && x.part.all fun l => decide (0 ≤ offs x l ∧ offs x l + n ≤ spaceOf x own ∧ offs x l % n = 0) &&
      (x.s.frameOf x.tid ((spaceBase x own + (offs x l).toNat) / 4096)).isSome
def spAddrs (i : Instr) (s : State) : List Nat :=
  match scratchRule i with
  | none => []
  | some (own, _, offs) => (ctx s i).part.map fun l => spaceBase (ctx s i) own + (offs (ctx s i) l).toNat

/-- Every lane's word in the slot, in the lowest lanes only, and off its boundary; full and empty granules. -/
theorem witness_ScratchpadWords :
    let ws := [Instr.lds k0 ⟨2, 1, 0, 0x40, 0, 0⟩, .ldsr k0 ⟨2, 1, 0, 0x40, 0, 0⟩, .sts k0 ⟨2, 1, 0, 0x40, 0, 0⟩, .stsr k0 ⟨2, 1, 0, 0x44, 0, 0⟩,
      .atoms k0 ⟨2, 1, 0x20, 0x40, 0, 0x1C00000⟩, .atoms k0 ⟨0, 1, 0, 0x40, 1, 0x0250000⟩]
    let fe := [Instr.lds k0 ⟨2, 1, 0, 0x44, 0, 0⟩, .ldsr k0 ⟨2, 1, 0, 0x48, 0, 0⟩]
    let out := Instr.lds k0 ⟨2, 1, 0, 0x40, 0, 0x3FFC⟩
    let odd := Instr.lds k0 ⟨2, 1, 0, 0x40, 0, 2⟩
    performs sp (ws ++ [out, odd]) = true ∧ ws.all (fun i => spOk i sp) = true ∧ Cells.wf sp.mem = true ∧ ((sp.cores.flatMap (·.frames)).all fun f => Cells.wf f.data) = true ∧
      performs (wideLanes sp) fe = true ∧ fe.all (fun i => spOk i (full (wideLanes sp))) = true ∧ (spAddrs (fe.getD 0 odd) (wideLanes sp)).Nodup ∧
      (fe.all fun i => (spAddrs i (wideLanes sp)).all fun a => (full sp).feGet 0 a && !(sp.feGet 0 a) && decide (sp.haltedOver 0 a = none)) = true ∧
      (ws.getLast?.map fun i => decide (spAddrs i sp).Nodup) = some true ∧ relOk (sp.relCheck 0 2) = true ∧
      spaceOf (ctx sp out) true = 0x4000 ∧ (2 : Int) % 4 ≠ 0 := by decide +kernel

/-- A range off its end and off a granule, full and empty granules; a pin of four pages, of none and of a range too long. -/
theorem witness_WaitsAndPins :
    let w := Instr.feWait k0 ⟨0, 2, 0, 3, 0, 0⟩
    let far := withS sp [0, 0x8000]
    performs sp [w, .feWait k0 ⟨0, 2, 0, 3, 0, 8⟩, .feWait k0 ⟨0, 2, 0, 3, 0, BitVec.ofInt 32 (-16)⟩, .feWait k0 ⟨0, 2, 0, 0, 1, 0x7FFF⟩, .feWait k0 ⟨0, 2, 0, 3, 0, 0x3FC0⟩,
        .feWait k0 ⟨0, 2, 0, 3, 0, 0x3FD0⟩, .spin k0 ⟨3, 2, 2, 0, 0⟩, .sunpin k0 ⟨0, 2, 2, 0, 0⟩] = true ∧
      (ctx sp w).G.clear = true ∧ spaceOf (ctx sp w) true = 0x4000 ∧ ((full sp).feGet 0 48 && !(sp.feGet 0 0)) = true ∧ sp.haltedOver 0 0 = none ∧
      (List.range 4).all (fun p => (sp.frameOf 0 p).isSome) = true ∧ performs far [.spin k0 ⟨3, 2, 1, 0, 0⟩, .sunpin k0 ⟨0, 2, 1, 0, 0⟩] = true ∧
      (ctx far (.spin k0 ⟨3, 2, 1, 0, 0⟩)).pinRange ⟨3, 2, 1, 0, 0⟩ = none ∧ (ctx sp (.spin k0 ⟨3, 2, 2, 0, 0⟩)).pinRange ⟨3, 2, 2, 0, 0⟩ = some [] ∧
      (ctx (withS sp [0, 0x4000]) (.spin k0 ⟨3, 2, 1, 0, 0⟩)).pinRange ⟨3, 2, 1, 0, 0⟩ = some [0, 1, 2, 3] := by decide +kernel

/-- One operation of a tile in the core's queue, its word outstanding. -/
def tiling (op : TOp) : State :=
  (onGroup (fun G => { G with outst := [{ ctx st ldw |>.oword [.v 2] .tile with id := 7 }] }) sp).modCore 0 fun c =>
    { c with ops := [⟨0, 7, pc0, 1, 5, op⟩], tiles := [(5, (List.range 4096).map fun k => BitVec.ofNat 32 (0x3F800000 + k))] }
def manyOps : State := sp.modCore 0 fun c => { c with ops := List.replicate 64 ⟨0, 7, pc0, 1, 5, .zero 0⟩ }
def desc : Nat := 0x822
theorem witness_TileWords :
    let words := [Instr.mma k0 ⟨1, 16, 32, 0, 0⟩, .accZero k0 ⟨1, 0, 0, 0, 2⟩, .accRd k0 ⟨8, 1, 63, 4, 0⟩, .accRdx k0 ⟨8, 1, 3, 1, 0⟩, .accMax k0 ⟨8, 1, 0, 1, 1⟩,
      .accScl k0 ⟨1, 8, 10, 0, 0⟩]
    let mem := [Instr.accLd k0 ⟨1, 2, 0, 0, 0, 0⟩, .accDrn k0 ⟨0, 2, 1, 8, 0, 0⟩]
    performs sp (words ++ mem ++ [.mma k0 ⟨1, 16, 32, 8, 0⟩, .accLd k0 ⟨1, 2, 0, 0, 0, 16⟩, .accLd k0 ⟨1, 2, 0, 4, 0, BitVec.ofInt 32 (-8)⟩,
        .fmtset k0 ⟨0, 0, 0, 0, 0, 0x0222⟩, .fmtset k0 ⟨0, 0, 0, 0, 0, 0x800⟩, .fmtset k0 ⟨7, 0, 0, 0, 1, 0⟩]) = true ∧
      words.all (fun i => (tileRule i).isSome) = true ∧ performs manyOps words = true ∧ (manyOps.core 0).ops.length = 64 ∧
      (sp.core 0).ops.length = 0 ∧ 0 < sp.cores.length ∧ ((ctx sp ldw).G.d.getD 0 0#32).toNat / 2 ^ 13 % 8 = 0 ∧ (ctx sp ldw).G.clear = true ∧
      pagesOf 0 16384 = [0, 1, 2, 3] := by decide +kernel

/-- A queue of capacity 3 with two keys at the slot's first byte; queue words, a filter of 1,024 bits, and a KV descriptor. -/
def queued : State := sp.spWrite 0 0 (natToBytes 4 3 ++ natToBytes 4 2 ++ List.replicate 8 0#8 ++ natToBytes 8 5 ++ natToBytes 8 (9 * 2 ^ 32))
def kvMem : State := { mem (linear 0x18000 0x1000) with
  mem := Cells.writeN okMem.mem 0x18000 (natToBytes 8 100 ++ natToBytes 4 4 ++ natToBytes 4 8 ++ natToBytes 4 256 ++ natToBytes 4 2 ++ natToBytes 8 0x200 ++ natToBytes 8 0x400) }
def brings (s : State) (ps : List Nat) : Bool := match s.bring 0 0 ps with | .ok .. => true | _ => false
theorem witness_SearchWords_order : let q : CQ := ⟨2, [(1, 0), (3, 0)]⟩
    q.ents.Pairwise (fun a b => a.1 ≤ b.1) ∧ q.ents.length ≤ q.cap ∧ 0 < q.cap ∧ q.ents.length = q.cap ∧ q.ents.getLast? = some (3, 0) := by decide
theorem witness_SearchWords :
    let s := withS queued [0, 3]
    let ws := [Instr.cqInit k0 ⟨0, 2, 1, 0, 0⟩, .cqInit k0 ⟨0, 2, 2, 0, 0⟩, .cqPush k0 ⟨0, 2, 1, 2, 0⟩, .cqPop k0 ⟨2, 2, 1, 0, 0⟩, .cqTop k0 ⟨5, 2, 0, 3, 1⟩, .vfTest k0 ⟨1, 2, 1, 10, 2⟩]
    let okAt := fun (n : Nat) => match (ctx s ldw).cqRegion false 0 n with | .ok 0 => true | _ => false
    performs s (ws ++ [.cqInit k0 ⟨0, 2, 2, 0, 0⟩]) = true ∧ issues s [.hamd k0 ⟨2, 3, 4, 2, 1⟩, .hamd kOff ⟨2, 3, 4, 0, 0⟩] = true ∧ okAt 40 = true ∧ okAt 16 = true ∧
      okAt 128 = true ∧ (s.cqRead 0 0).map (fun q => (q.cap, q.ents.length)) = some (3, 2) ∧ brings s (pagesOf 0 40) = true ∧
      ((ctx s (.vfTest k0 ⟨1, 2, 1, 10, 2⟩)).part.all fun _ => (s.frameOf 0 0).isSome) = true := by decide +kernel
theorem witness_SearchWords_kvslot :
    let i := Instr.kvslot k0 ⟨4, 1, 0, 3, 3⟩
    let x := ctx kvMem i
    let r := (x.breg 0).toNat
    let d := kvDesc (Cells.readN kvMem.mem 0x18000 64)
    let reqs := x.part.flatMap fun l => let p := (x.v 1 l).toNat; [(l, ((d.ptoff + 4 * ((if p < d.nsink then p else d.nsink + (p - d.nsink) % d.win) / d.spp) : Nat) : Int))]
    performs kvMem [i, .kvslot k0 ⟨4, 1, 0, 3, 1⟩] = true ∧ issues kvMem [.kvslot kOff ⟨4, 2, 0, 3, 0⟩] = true ∧ recBad r [1] = false ∧ recIn r 0 64 = true ∧
      recBase r = 0x18000 ∧ d.ok = true ∧ xlates kvMem .load [(0, 0x18000)] = true ∧ x.G.clear = true ∧
      (match checkLanes r reqs 4 with | .ok (live, _) => xlates kvMem .load live && (linesOf kvMem .load live).all (fun l => decide (l.own = .here ∧ l.kind ≠ .so) && !(kvMem.poisoned l.pa)) | _ => false) = true ∧
      (x.G.outst = []) := by decide +kernel

/-- A walk descriptor at the slot's first byte: queues at 0x100 and 0x200, a filter at 0x400, the query at 0x600. -/
def walking : State := withB (((sp.spWrite 0 0 ([0x100, 0x200, 0x400, 0x600, 16, 64].flatMap (natToBytes 4) ++ [4, 0, 0, 10, 0, 0, 0, 0])).spWrite 0 0x100 (natToBytes 16 3)).spWrite
  0 0x200 (natToBytes 16 2)) okRec
theorem witness_SearchWords_gwalk :
    let i := Instr.gwalk k0 ⟨3, 2, 0x20, 2, 0, 0⟩
    let w := walking.walkDesc 0 0 0
    performs walking [i] = true ∧ recBad ((ctx walking i).breg 0).toNat [1] = false ∧ spaceOf (ctx walking i) true = 0x4000 ∧ (ctx walking i).G.clear = true ∧
      brings walking [0] = true ∧ w.ok = true ∧ (walking.cqRead 0 w.cq).map (·.cap) = some 3 ∧ (walking.cqRead 0 w.rq).map (·.cap) = some 2 ∧
      (w.regions 0 0x4000 0 0).isNone = true ∧ (w.regions 0 0x4000 3 2).isNone = true ∧ pagesOf w.cq 16 ++ pagesOf w.rq 16 = [0, 0] := by decide +kernel

/-! ## Witnesses: spawn, engines, channels, leases, barriers -/

def objOk (r : Nat) (o : Int) (n : Nat) : Bool :=
  !(recBad r [1]) && recIn r o n && decide (recAddr r o.toNat % n = 0 ∧ recAddr r o.toNat + n - 1 < 2 ^ 56)
/-- A continuation record at 0x18000 whose kernel stands at 0x180C0, and bands that are full. -/
def spawning : State :=
  let m := Cells.writeN okMem.mem 0x18000 (natToBytes 8 0x180C0 ++ List.replicate 24 0#8 ++ [1, 0, 0, 5, 1])
  { okMem with mem := Cells.writeN m 0x18080 (natToBytes 4 0x31435246 ++ [32, 1, 32, 0, 32, 0, 0, 0, 0, 0, 0, 0, 0, 1]) }
def bandsFull : State := spawning.modTen 0 fun t => { t with bands := List.replicate 8 (List.range 1024) }
/-- A valid object, a bad record, one out of bounds, one off its boundary; a counter of 1 and of 2. -/
theorem witness_SpawnAndJoin :
    let both := fun (o : BitVec 7) => [Instr.spawn k0 ⟨0, 0, o, 0, 0⟩, .joinc k0 ⟨6, 0, o, 0, 0⟩]
    let s := withS okMem [0, 0xFF8, 8, 32]
    let one := { s with mem := Cells.writeLE s.mem 0x18000 4 1 }
    let x := ctx s (.joinc k0 ⟨6, 0, 0, 0, 0⟩)
    let queued := s.modTen 0 fun t => { t with joinWait := [⟨0x18000, 0, some 0, some 3, none⟩] }
    let bad := { s with dies := s.dies.map fun d => { d with poison := [(0, 0x18000 / 128)] } }
    let held := onGroup (fun G => { G with outst := [{ x.oword [] (.land []) with id := 7, acq := 4 }] }) s
    let open' := onGroup (fun G => { G with outst := [{ x.oword [] (.load [] 4 2 false []) with id := 7, isLoad := true }] }) s
    let took := fun (s : State) => match s.takeRecord 0 0x18000 0 .spawn none with | .accepted t => t.launches.length | .full .. => 99 | .reading _ => 98
    performs queued (both 0) = true ∧ (queued.ten x.ten).joinWait.map (·.g) = [some 0] ∧ performs held (both 0) = true ∧ (ctx held ldw).G.clear = false ∧
      performs open' (both 0) = true ∧ relWaits (open'.relCheck 0 4) = true ∧ bad.poisoned 0x18000 = true ∧ performs bad (both 0) = true ∧
      [spawning, bandsFull].map took = [2, 99] ∧ x.fits (mkAccs [(0, 0x18000)] (linesOf s (.atomic false) [(0, 0x18000)]) 16 fun _ => []) = true ∧
      (match s.swLine 0 (joinWho 0) 0x18000 true .load, s.swLine 0 (joinWho 0) 0x30000 true .load with | .ok l, .error (.fault ..) => decide (l.1.own = .here) | _, _ => false) = true ∧
    performs s (both 0 ++ both 1 ++ both 2) = true ∧ performs (withB s (linear (2 ^ 255) 0)) (both 0) = true ∧ objOk (x.breg 0).toNat 0 64 = true ∧
      xlates s .load [(0, 0x18000)] = true ∧ xlates s (.atomic false) [(0, 0x18000)] = true ∧
      (linesOf s .load [(0, 0x18000)]).all (fun l => decide (l.own = .here ∧ l.kind = .rc) && !(s.poisoned l.pa)) = true ∧ relOk (s.relCheck 0 4) = true ∧
      (match x.s.submit x.ten (x.s.homeRead .here 0x18000 64) 0x18000 .spawn true with | .done _ => true | _ => false) = true ∧
      ([spawning, bandsFull].map fun s => match s.submit 0 (s.homeRead .here 0x18000 64) 0x18000 .spawn true with | .done t => t.launches.length | .full => 99 | _ => 0) = [2, 99] ∧
      x.G.clear = true ∧ x.G.outst = [] ∧ Cells.wf s.mem = true ∧ Cells.readLE one.mem 0x18000 4 = 1 ∧ Cells.readLE s.mem 0x18000 4 ≠ 1 ∧ x.ten < s.tens.length := by decide +kernel

/-- s1 is 0x4000, s2 0x10, s3 bit 63; record 0 has KIND 1 and 64 KiB. -/
def eng : State := withB (withS sp [0, 0x4000, 0x10, 2 ^ 63, 32]) (linear 0x18000 0x10000)
def canAccept (x : Ctx) (q : Nat) : Bool :=
  decide (q < x.hdr.queues ∧ (x.team.queue q).pending.length < 64) && !(x.team.queue q).halted
def regionAt (x : Ctx) (rem : Bool) (a n : Nat) : Option Nat := match x.region rem a n with | .ok v => some v | .error _ => none
def onTeam (f : Team → Team) (s : State) : State := s.modTeam 0 f
def cmd0 : Cmd := ⟨pc0, .pfill 16 0 0, 0, 0, 0, true, 0, 0, 7, 1, [], 0, false⟩
def onQueue (f : EngQueue → EngQueue) (s : State) : State := onTeam (fun t => { t with queues := modAt t.queues 2 f }) s
theorem witness_EngineWords :
    let pl := withB eng planes
    let copies := [Instr.pcopy k0 ⟨0x1A, 0, 0, 0, 0, 0x100, 0⟩, .pstore k0 ⟨2, 0, 0, 0, 0, 0x100, 0⟩]
    let plane := [Instr.pcopy k0 ⟨0x1A, 0, 0, 0, 0, 16, 8⟩, .pstore k0 ⟨2, 0, 0, 0, 0, 8, 8⟩, .pcopyRf k0 ⟨2, 0, 0, 0, 0, 8, 8⟩]
    let fill := Instr.pfill k0 ⟨2, 0, 0, 2, 0, 0x4000, 0⟩
    let q := [Instr.qmark k0 ⟨2, 0, 2, 1, 0⟩, .qfence k0 ⟨0, 0, 4, 0, 0⟩, .qwait k0 ⟨0, 0, 4, 0, 0⟩]
    let forms := [Instr.pxform k0 ⟨2, 0, 0, 0, 0, 64, 0x00220001⟩, .pxform k0 ⟨2, 0, 0, 0, 1, 64, 0x00220001⟩, .pxform k0 ⟨2, 0, 0, 4, 2, 64, 0x00220001⟩, .pxform k0 ⟨2, 0, 0, 4, 0, 64, 0x00030002⟩]
    let many := onQueue (fun y => { y with pending := List.replicate 64 cmd0 }) eng
    let halted := onQueue (fun y => { y with halted := true, flt := some (0x11, pc0, 0x18000) }) eng
    let busy := onQueue (fun y => { y with accepted := 3, completed := 2 }) eng
    let x := ctx eng fill
    performs eng (copies ++ [fill] ++ q ++ forms) = true ∧ performs pl plane = true ∧ performs many [fill] = true ∧ performs halted [fill] = true ∧ performs busy q = true ∧
      canAccept x 2 = true ∧ recBad (x.breg 0).toNat [1, 2] = false ∧ recKind planes.toNat = 3 ∧
      [(globalRegion (x.breg 0).toNat 0 0x100 true, false, [(0, 0x100)]), (globalRegion (x.breg 0).toNat 0 256 false, false, [(0x10, 256)]),
        (planeRegion planes.toNat 0 16 8, false, [(0, 144 * 16)]), (.none, true, [(0, 128), (0x100, 64)])].all (fun p => x.regions p.1 p.2.1 p.2.2 = none) = true ∧
      [(globalRegion (linear 0x18000 64 + BitVec.ofNat 256 (2 ^ 247)).toNat 0 0x100 true, [(0x4000, 64)]), (globalRegion (linear (2 ^ 56 - 64) 0x1000).toNat 0 0x100 true, [(0x4000, 64)]),
        (globalRegion (linear 0x18008 0x1000).toNat 0 0x100 true, [(0x18, 64)]), (globalRegion (linear 0x18008 0x1000).toNat 0 0x100 true, [(0, 64), (0x4000, 64)]),
        (.none, [(0x10, 64), (0x18, 64)])].map (fun p => (x.regions p.1 false p.2).map (·.1)) = [some 0x10, some 0x12, some 0x13, some 0x20, some 0x13] ∧
      [(0x100, false), (144 * 16, false), (0x4000, false), (16, false), (64, false), (256, true)].all (fun p => regionAt x p.2 0 p.1 = some 0) = true ∧
      regionAt x false 0x18 64 = none ∧ regionAt x false 0x10 64 = some 0x10 ∧ x.hdr.queues = 8 ∧
      (routineOk 1 0x22 0 && routineOk 1 0x22 1 && routineOk 1 0x22 2 && routineOk 2 3 0) = true ∧ routineSrc 1 64 0x22 = 128 ∧
      routineDest 1 64 0x22 = 128 ∧ ((x.team.queue 2).accepted ≤ (x.team.queue 2).completed) ∧ 0 < x.team.queues.length := by decide +kernel

/-- An entry of channel 0: VALID, every permission, peer 5, RTEN 2, REP 7, 64 KiB of each kind, with an allowance. -/
def entry (bits allow : Nat) : Nat := bits + 5 * 2 ^ 232 + 2 * 2 ^ 228 + 7 * 2 ^ 216 + allow * 2 ^ 176 + 2 ^ 16 * 2 ^ 128 + 2 ^ 16 * 2 ^ 88
def chan (e : Nat) : State := { eng with mem := Cells.writeLE eng.mem (eng.chanAddr (eng.team 0) 0) 32 e }
def usable : Nat := 2 ^ 255 + 31 * 2 ^ 249
def chanOk (x : Ctx) (idx perm n : Nat) : Bool :=
  let e := Cells.readLE x.s.mem (x.s.chanAddr x.team idx) 32
  decide (x.G.paid ≠ some x.pc ∧ idx < x.hdr.chan ∧ bitAt e 255 = true ∧ bitAt e 254 = false ∧ e / 2 ^ 232 % 256 ≠ x.s.boot.cfg.device ∧ bitAt e perm = true ∧
    x.s.isDead (e / 2 ^ 232 % 256) = false ∧ (n ≤ e / 2 ^ 176 % 2 ^ 40 ∨ e / 2 ^ 176 % 2 ^ 40 = 2 ^ 40 - 1))
def csendw : Instr := .csend k0 ⟨0, 8, 0, 3, 0, 0x800010⟩
def cputw : Instr := .cput k0 ⟨0, 0, 0, 3, 0, 0x200, 2⟩
def cgetw : Instr := .cget k0 ⟨0, 0, 0, 2, 0, 0x200, 0⟩
def catomw : Instr := .catom k0 ⟨5, 0, 0, 2, 0, 0x1C00000⟩
theorem witness_ChannelWords :
    let s := chan (entry usable 0x1000)
    let arr := [Instr.arrset k0 ⟨0, 0, 2, 0, 2⟩, .arrset k0 ⟨0, 0, 2, 1, 0⟩, .arrwait k0 ⟨5, 0, 0, 4, 0⟩]
    performs s ([csendw, cputw, cgetw, catomw] ++ arr) = true ∧ performs (chan (entry (2 ^ 255) 0)) [csendw] = true ∧ performs eng [csendw] = true ∧
      chanOk (ctx s csendw) 0 249 32 = true ∧ chanOk (ctx s cputw) 0 250 0x200 = true ∧ chanOk (ctx s cgetw) 0 251 0x200 = true ∧ chanOk (ctx s catomw) 0 252 4 = true ∧
      bitAt (entry usable 0x1000) 248 = false ∧ regionAt (ctx s cputw) false 0 0x200 = some 0 ∧ regionAt (ctx s cputw) false 0 16 = some 0 ∧ relOk (s.relCheck 0 5) = true ∧
      0x200 ≤ entry usable 0x1000 / 2 ^ 128 % 2 ^ 40 ∧ 0x200 ≤ entry usable 0x1000 / 2 ^ 88 % 2 ^ 40 ∧ (ctx s cputw).G.clear = true ∧ brings s [0] = true ∧
      ((ctx s cgetw).sreg 2).toNat % 2 ^ 26 % 16 = 0 ∧ ((ctx s cputw).sreg 3).getLsbD 63 = true ∧ 16 + 16 ≤ (ctx s cgetw).s.spaceLen (ctx s cgetw).team ∧
      ((ctx s csendw).sreg 1).toNat = 0x4000 ∧ ((ctx s csendw).sreg 0).toNat < 512 ∧ s.spReadLE 0 0 8 ≤ 0 ∧ (sp.spWrite 0 8 [1]).spReadLE 0 8 6 = 1 ∧ ([] : List Byte).length ≤ 0 := by decide +kernel

/-- Two pool lanes that reach peer 5 on two channels; s5 asks for N lanes for U µs. -/
def optical (perm n us : Nat) : State :=
  let s := withS (chan (entry perm 0)) [0, 0, 0, 0, 0, n + us * 2 ^ 16]
  { s with boot := { s.boot with cfg := { s.boot.cfg with routes := List.replicate 2 ⟨[0x8005, 0x8005], 0⟩ } } }
def leasing : State := onTeam (fun t => { t with leases := [⟨3, 5, [], 100⟩] }) (optical usable 2 10)
theorem witness_LeaseWords :
    let ask := Instr.lease k0 ⟨6, 0, 0, 5, 0⟩
    let all := Instr.lease k0 ⟨6, 0, 0, 5, 1⟩
    let noPl := optical (2 ^ 255) 2 10
    let dead := { leasing with deadpeer := [32, 0, 0, 0] }
    let x := ctx leasing ask
    performs leasing ([ask, all, .lrel k0 ⟨0, 3, 0, 0, 0⟩] ++ [0, 1, 2, 3, 4].map fun k => .lqry k0 ⟨6, 0, 0, k, 0⟩) = true ∧ performs noPl [.lqry k0 ⟨6, 0, 0, 2, 0⟩] = true ∧
      performs dead [.lqry k0 ⟨6, 0, 0, 3, 0⟩, .lqry k0 ⟨6, 0, 0, 2, 0⟩] = true ∧ performs (optical usable 3 10) [all] = true ∧ performs (optical usable 0 10) [ask] = true ∧
      performs (optical usable 1 1001) [ask] = true ∧ performs (optical usable 4097 1000) [ask] = true ∧ (x.sreg 5).toNat = 2 + 10 * 2 ^ 16 ∧
      0 < x.hdr.chan ∧ entry usable 0 / 2 ^ 232 % 256 ≠ leasing.boot.cfg.device ∧ bitAt (entry usable 0) 253 = true ∧ bitAt (entry (2 ^ 255) 0) 253 = false ∧
      Cells.readLE leasing.mem (x.s.chanAddr x.team 0) 32 = entry usable 0 ∧ leasing.isDead 5 = false ∧ dead.isDead 5 = true ∧
      (leasing.grant 5 2).2.length = 2 ∧ (leasing.grant 5 3).2.length = 2 ∧ x.team.leases.map (·.id) = [3] ∧ ((x.sreg 3).toNat % 2 ^ 16 = 0) := by decide +kernel

/-- Barriers 0 to 3: fresh; fixed at N 64 with 32 arrived; fixed at 32; a phase that has passed the group's recorded one. -/
def barred : State := onGroup (fun G => { G with rvalid := 0x8 }) (onTeam (fun t => { t with bars :=
  [⟨0, 0, false, 2, []⟩, ⟨32, 64, false, 1, [1]⟩, ⟨0, 32, false, 1, []⟩, ⟨0, 0, true, 2, []⟩] ++ t.bars.drop 4 }) (withS okMem [0, 32, 64, 33]))
theorem witness_BarrierWords :
    let arrive := fun (k n m : Nat) => let f : F64 := ⟨0, 0, BitVec.ofNat 7 n, BitVec.ofNat 7 k, BitVec.ofNat 2 m⟩; [Instr.barArv k0 f, .barSync k0 f]
    let waiting : State := onGroup (fun G => { G with outst := [{ ctx barred ldw |>.oword [] (.barWait 3 false) with id := 7, held := List.range 32, acq := 2 }] }) barred
    performs barred (arrive 0 0 0 ++ arrive 1 2 1 ++ arrive 2 1 1 ++ arrive 0 1 1 ++ arrive 2 3 1 ++ arrive 0 4 1 ++ [.barWt k0 ⟨0, 0, 0, 3, 0⟩, .barWt k0 ⟨0, 0, 0, 0, 0⟩]) = true ∧
      performs (onGroup (fun G => { G with rvalid := 1 }) barred) [.barWt k0 ⟨0, 0, 0, 0, 0⟩] = true ∧ relOk (barred.relCheck 0 2) = true ∧ (barred.cores.all fun c => c.ops.isEmpty) = true ∧
      3 < (barred.team 0).bars.length ∧ (arrivedBar ⟨0, 32, false, 1, []⟩ 0 32 1 32).phase = true ∧ (arrivedBar ⟨0, 0, false, 2, []⟩ 0 32 1 64).phase = false ∧
      ((barred.team 0).bar 3).phase = true ∧ (barred.hdrOf (barred.team 0)).teamSz = 32 ∧
      (waiting.group 0).stage = .running ∧ (waiting.team 0).life = .running ∧ ((waiting.group 0).outst.find? (fun y => y.id == 7)).isSome = true ∧
      ((waiting.group 0).laneAt 0).pc = pc0 := by decide +kernel

/-! ## Witnesses: privileged words, the issue, faults and answers -/

/-- s1 is the record at the head of the fault queue, mapped at 0x10000; SEQ stands in it. -/
def faulted : State :=
  let s := withS okMem [0, 0x10000, 2, 3, 0x5000, 0x4000]
  let tnc := s.modTen 0 fun t => { t with cfg := modAt t.cfg 4 fun _ => 6 + 0x10 * 2 ^ 12 }
  { tnc with mem := Cells.writeLE tnc.mem 0x10000 8 7 }
theorem witness_PrivilegedWords :
    let rd := fun (n : Nat) => Instr.csrrd k0 ⟨6, 0, BitVec.ofNat 7 (n / 128), BitVec.ofNat 7 n, 0⟩
    let wr := fun (n a : Nat) => Instr.csrwr k0 ⟨0, BitVec.ofNat 7 a, BitVec.ofNat 7 (n / 128), BitVec.ofNat 7 n, 0⟩
    let s := withS sp [0, 0x5000, 0x1001, 0x4000, 1, 2 ^ 52, 2 ^ 63]
    performs s [rd 0x100, rd 0x604, rd 0x700, wr 0x605 0, wr 0x604 0, wr 0x700 0, wr 0x110 6, wr 0x400 2] = true ∧
      (match s.csrWrite .s 0 .srcto, s.csrWrite .s 0 .csrviol with | .priv, .done _ => true | _, _ => false) = true ∧
      (match s.csrWrite .s 0x8000000000000000#64 (.tncfg 1 0) with | .refused => true | _ => false) = true ∧
      relOk (s.relCheck 0 6) = true ∧ (ctx s ldw).G.clear = true ∧
      performs faulted [.sret k0 ⟨0, 1, 2, 0, 0⟩, .sret k0 ⟨0, 1, 3, 0, 0⟩, .sret k0 ⟨0, 0, 2, 0, 0⟩] = true ∧ xlates faulted .load [(0, 0x10000)] = true ∧
      (linesOf faulted .load [(0, 0x10000)]).map (·.pa) = [(faulted.ten 0).fqbase] ∧ Cells.readLE faulted.mem 0x10000 8 = 7 ∧ relOk (faulted.relCheck 0 4) = true ∧
      (linesOf faulted .load [(0, 0x10000)]).all (fun l => decide (l.own = .here ∧ l.kind ≠ .so)) = true ∧
      performs s [.stbinv k0 ⟨0, 3, 4, 0, 0⟩, .stbinv k0 ⟨0, 0, 3, 0, 0⟩, .spmap k0 ⟨0, 0, 2, 0, 0⟩, .spmap k0 ⟨0, 0, 1, 0, 1⟩, .spmap k0 ⟨0, 1, 1, 0, 2⟩, .spmap k0 ⟨0, 0, 5, 0, 0⟩,
        .spunmap k0 ⟨0, 0, 0, 0, 0⟩, .spunmap k0 ⟨0, 1, 0, 0, 0⟩] = true ∧
      s.spaceLen (s.team 0) = 0x4000 ∧ (s.frameOf 0 0).isSome = true ∧ (okMem.frameOf 0 0).isNone = true ∧
      2 ≤ 2 ∧ (1 : Nat) < 2 ∧ clusterOf 0 = (s.team 0).cluster ∧ (s.ten 0).secure = false := by decide +kernel

/-- A word whose token is held, an issue of every kind of answer, group-wide words without lanes. -/
theorem witness_IssueFrame :
    let busy := onGroup (fun G => { G with outst := [{ ctx st ldw |>.oword [.v 2] (.land []) with id := 7 }] }) okMem
    issuingB busy 0 pc0 = true ∧ readyB busy 0 k0 ldw = false ∧ issuingB okMem 0 pc0 = true ∧ (okMem.groups[0]?).isSome = true ∧
      groupWideWord (.qwait kOff ⟨0, 0, 4, 0, 0⟩) = true ∧ issues okMem [.qwait kOff ⟨0, 0, 4, 0, 0⟩, .barWt kOff ⟨0, 0, 0, 0, 0⟩] = true ∧
      participants kOff pc0 (okMem.group 0) = [] := by decide +kernel
def flt0 : Flt := ⟨0x10, 0, 3, 5, pc0, 0x18000, false, List.range 32, nextPc pc0 8, false, 0⟩
/-- A fault of a group with and without outstanding words; the answers to a record of the group. -/
theorem witness_FaultsAndAnswers :
    let open' := onGroup (fun G => { G with outst := [{ ctx st ldw |>.oword [.v 2] (.land []) with id := 7 }] }) okMem
    let held := onGroup (fun G => { G with faults := [flt0], stage := .awaiting }) okMem
    let posted := held.modTen 0 fun t => { t with fqDone := [⟨flt0, 0, 0, 0, 0, 0, .group 0, 7, false⟩] }
    okMem.drained 0 = true ∧ open'.drained 0 = false ∧ (okMem.group 0).faults = [] ∧ (held.team 0).life = .running ∧ (held.group 0).faults = [flt0] ∧
      ((posted.ten 0).fqDone.find? fun r => r.seq == 7).isSome = true ∧ ((posted.ten 0).fqDone.find? fun r => r.seq == 8) = none ∧ (0 : Nat) ≠ 2 ∧
      (okMem.group 0).stage = .running ∧ flt0.cls = 0 ∧ Cells.wf okMem.mem = true ∧ 0 < okMem.tens.length := by decide +kernel

/-! ## Witnesses: events -/

def runsB (s : State) : Bool :=
  decide ((s.group 0).stage = .running) && decide ((s.team 0).life = .running ∧ (s.team 0).pins = []) && decide ((s.group 0).lanes.length = (s.group 0).gw) && decide ((s.group 0).team = 0)
/-- The lanes' states in order, with meeting addresses. -/
def laneStates (xs : List (LaneState × Word)) (s : State) : State := onGroup (fun G => { G with lanes := G.lanes.zipIdx.map fun (y, l) =>
  let x := xs.getD (l % xs.length) (.active, 0); { y with st := x.1, mt := x.2 } }) s
def lanesB (s : State) (p : Lane → Bool) : Bool := (s.group 0).lanes.all p
theorem witness_GroupEvents :
    let meeting := laneStates [(.heldMeet, 64), (.exited, 64), (.active, 128), (.done, 64)] okMem
    let stuck := laneStates [(.heldMeet, 64), (.heldW, 64), (.heldMeet, 96), (.heldW, 96)] okMem
    let atW := laneStates [(.heldW, 0), (.exited, 0), (.done, 0)] okMem
    let spent := laneStates [(.done, 0), (.exited, 0)] okMem
    let point := onGroup (fun G => { G with refill := some ⟨0x10020, 0x10040, 8⟩ }) spent
    let items := onTeam (fun t => { t with items := [[5, 6]] }) point
    let gone := laneStates [(.exited, 0)] okMem
    let due := onGroup (fun G => { G with fairness := 256, readySince := some 0, missing := [3] }) { okMem with clock := 1024 }
    [meeting, stuck, atW, spent, point, items, gone, due].all runsB = true ∧ lanesB meeting (fun y => y.mt != 64 || y.st == .heldMeet || y.st == .exited || y.st == .done) = true ∧
      lanesB stuck (fun y => y.st != .active && (y.st != .heldMeet || decide ((64 : Word) ≤ y.mt) && (stuck.group 0).lanes.any fun z => z.mt == y.mt && z.st == .heldW)) = true ∧
      lanesB atW (fun y => y.st == .heldW || y.st == .exited || y.st == .done) = true ∧ lanesB spent (fun y => y.st == .exited || y.st == .done) = true ∧
      (spent.group 0).refill = none ∧ point.share 0 = [] ∧ items.share 0 ≠ [] ∧ lanesB gone (·.st == .exited) = true ∧ (gone.group 0).outst = [] ∧
      (gone.cores.all fun c => c.ops.isEmpty && c.drains.isEmpty) = true ∧ (due.group 0).promoted = false ∧ 3 ∈ (due.group 0).missing := by decide +kernel

/-- A word of the kind, number 7, waits with every lane; its scratchpad pages are resident. -/
def waits (k : OKind) : State := onGroup (fun G => { G with outst := [{ ctx sp ldw |>.oword [] k with id := 7, held := List.range 32 }] }) sp
def waitsB (s : State) : Bool := runsB s && decide (((s.group 0).outst.find? fun y => y.id == 7) = (s.group 0).outst.head?)
theorem witness_WaitEvents :
    let tok := waits .tokWait
    let q := waits (.qWait [(2, 1)])
    let qDone := onQueue (fun y => { y with completed := 1 }) q
    let qHalted := onQueue (fun y => { y with halted := true }) q
    let arr := waits (.arrWait 16 5 (some 0))
    let lane := full (waits (.feLoad [⟨3, 16, 4⟩] true 4 2))
    let fe := waits (.feWait [16, 32])
    let wanted := onGroup (fun G => { G with want := [2], since := 0, suspend := some (pc0, .frame) }) { okMem with clock := 120000 }
    let walk := (waits (.gwalk 0 2 0 0 3 okRec 2 [])).modCore 0 fun c => { c with walks := [(0, 7), (0, 9)] }
    [tok, q, qDone, qHalted, arr, lane, fe, walk].all waitsB = true ∧ (tok.core 0).token.getD 0 none = none ∧ ((qDone.team 0).queue 2).completed = 1 ∧
      ((q.team 0).queue 2).completed = 0 ∧ ((qHalted.team 0).queue 2).halted = true ∧ brings arr (pagesOf 16 16) = true ∧ (lane.frameOf 0 0).isSome = true ∧
      lane.feGet 0 16 = true ∧ (full fe).feGet 0 32 = true ∧ ((lane.group 0).v.all fun v => decide (3 < v.lanes.length)) = true ∧ 2 + dataRegs 4 ≤ (lane.group 0).v.length ∧
      runsB wanted = true ∧ (match wanted.fillPage 0 2 [(0, 2)] with | .ok _ => true | .error _ => false) = true ∧ wanted.portCore (wanted.team 0) (2 * 4096) < wanted.cores.length ∧
      (let pinned := onTeam (fun t => { t with pins := [3] }) okMem
       (match pinned.fillPage 0 3 [(0, 3)] with | .ok _ => true | .error _ => false) && decide (pinned.portCore (pinned.team 0) (3 * 4096) < pinned.cores.length)) = true ∧
      (onGroup (fun G => { G with stage := .awaiting }) walk).runs 0 = false ∧ (walk.core 0).walks = [(0, 7), (0, 9)] ∧ ((sp.group 0).outst.all fun o => o.id != 7) = true := by decide +kernel

/-- A command at the head of queue 2. -/
def heading (op : CmdOp) : State := onQueue (fun y => { y with pending := [{ cmd0 with op := op, addr := 16, brec := linear 0x18000 0x10000 }], accepted := 1 }) sp
def headed (i : Instr) (op : CmdOp) : Bool :=
  let s := heading op
  match ((s.team 0).queue 2).pending with
  | [c] => (engineRule ⟨0, 2, c⟩ c.op i).isSome && !(((s.team 0).queue 2).halted) && decide (engineQueue i = (0, 2))
  | _ => false
/-- A store of word 3 of group 0 has been lost with its peer; queue 2 has forwarded a write that is open, or lost. -/
def lostStore : Sent := { sp.mkSent .fwdStore 0 0 3 5 16 with lost := true }
def sentBy (lost : Bool) : State := { heading (.pcopy 16 0) with sent := [{ sp.mkSent .engStore 0 (queueWho 0 2) 0 5 16 with lost := lost }] }
/-- Every frame of core 0 holds a page of another team that a drain still writes. -/
def crowded : State := okMem.modCore 0 fun k => { k with
  frames := (List.range Config.framesPerCore).map fun n => ⟨n, 1, n, [], 0, 0, []⟩
  drains := (List.range Config.framesPerCore).map fun n => ⟨1, 1, n * 4096, []⟩ }
def eng2 (r : Rec256) : Eng := ⟨0, 2, { cmd0 with op := .pcopy 16 0, addr := 16, brec := r }⟩
/-- How a copy of 16 bytes ends: 0 performed, 1 halted, 2 waiting. -/
def copyEnds (r : Rec256) (s : State) : Nat :=
  match (eng2 r).pcopy 16 0 0 s with
  | .ok _ => 0
  | .error (.halt ..) => 1
  | .error _ => 2
def lineAt (e : Eng) (s : State) (how : How) (va : Nat) : Bool := match e.line s va how with | .ok l => l.own == .here && l.pa == va | .error _ => false
def spaceB (s : State) (a n : Nat) : Bool :=
  ((List.range n).all fun k => (s.frameOf 0 ((a + k) / 4096)).isSome) && (s.cores.all fun co => co.frames.all fun fr => Cells.wf fr.data) && (s.spBad 0 a n).isNone
def gotB {α : Type} (x : Except EFail α) : Bool := match x with | .ok _ => true | .error _ => false
/-- A copy with bytes out of bounds, staged lines with and without every plane, masked writes in one line; elements that convert and one
that the policy faults; indexes in bounds and not; blocks with and without faults. -/
theorem witness_EngineEvents_bytes :
    let s := sp.spWrite 0 16 (List.replicate 16 7)
    let e := eng2 okRec
    let p := eng2 planes
    let nan := sp.spWrite 0 0 (natToBytes 4 0x3F800000 ++ natToBytes 4 0x7FC00000)
    [-2, 0, 0x1000 - 8].all (fun o => (List.range 16).all fun i => !(recIn okRec.toNat (o + (i : Int)) 1) || lineAt e s .load (recAddr okRec.toNat (o + (i : Int)).toNat)) = true ∧
      recIn okRec.toNat (-2) 1 = false ∧ recIn okRec.toNat 0x1000 1 = false ∧ 16 % 16 = 0 ∧ spaceB s 16 16 = true ∧
      l0Dirty (s.rdMem (s.l0Addr (s.team 0) 0) 8) = true ∧ recKind okRec.toNat ≠ 3 ∧ recKind planes.toNat = 3 ∧
      ((List.range 4).all fun b => recIn planes.toNat (32 * b : Int) 1 && lineAt p s .load (recBase planes.toNat + b)) = true ∧
      ((List.range 8).all fun j => lineAt p s .load (planeAddr planes.toNat j 0)) = true ∧ recIn planes.toNat 0 1 = true ∧ recIn planes.toNat (-1) 1 = false ∧
      (gotB (p.spGet s 16 144) && gotB (p.exps s 0) && gotB (p.planes s 0 0 8 (List.replicate 128 0#8)) && gotB (e.spGet s 16 16)) = true ∧ s.spRead1 0 (16 + 132) = 0#8 ∧
      (s.spWrite 0 148 [8]).spRead1 0 148 = 8#8 ∧ ([0x18000, 0x18001, 0x18080].all fun a => lineAt e s .store a) = true ∧
      ([0, 1, 2].all fun dir => gotB (e.srcElems dir 4 [0, 1] nan)) = true ∧
      (match e.srcElems 2 4 [0, 1] nan with | .ok (xs, _) => xs.map (fun x => (Fmt.f32.resolve .rne 0xC0 (Fmt.f32.decode x)).isSome) | .error _ => []) = [true, false] ∧
      recIn okRec.toNat (0 * 2 ^ 2 : Nat) 4 = true ∧ recIn okRec.toNat (7 * 2 ^ 20 : Nat) 4 = false ∧ recStrict okRec.toNat = false ∧ recStrict ((linear 0x18000 64).toNat + 2 ^ 247) = true ∧
      gotB (e.srcElems 2 4 (List.range 128) s) = true ∧ (bfpConvert 3 .rne 0 (List.replicate 32 (Fmt.f32.decode 0))).faults = [] ∧
      (bfpConvert 3 .rne 0xC0 (List.replicate 32 (Fmt.f32.decode 0x7FC00000))).faults ≠ [] := by decide +kernel
theorem witness_EngineEvents :
    headed (.pcopyPerform 0 2) (.pcopy 16 0) = true ∧ headed (.pcopyRfPerform 0 2) (.pcopyRf 1 8) = true ∧ headed (.pstorePerform 0 2) (.pstore 16 0) = true ∧
      headed (.pfillPerform 0 2) (.pfill 32 5 1) = true ∧ headed (.qmarkPerform 0 2) (.qmark 7 1) = true ∧
      ({ sp with sent := [lostStore] } : State).lostBefore { cmd0 with after := [(0, 3)] } = some lostStore ∧ sp.lostBefore cmd0 = none ∧
      [false, true].all (fun b => (sentBy b).sent.any fun x => x.kind == .engStore && x.g == queueWho 0 2 && x.lost == b) = true ∧
      [(1, 0x22), (2, 3), (3, 2), (4, 4), (5, 0)].all (fun p => headed (.pxformRoutineRun 0 2) (.pxform 4 p.1 0 p.2 0 (some (0, 0)))) = true ∧
      copyEnds okRec sp = 0 ∧ copyEnds (linear 0x30000 64) sp = 1 ∧ copyEnds okRec crowded = 2 ∧ ((heading (.pcopy 16 0)).team 0).life = .running ∧ 2 < ((heading (.pcopy 16 0)).team 0).queues.length ∧
      (sp.cores.all fun co => co.frames.all fun fr => Cells.wf fr.data) = true ∧ (sp.frameOf 0 ((16 + 31) / 4096)).isSome = true ∧ 16 % 16 = 0 := by decide +kernel

/-- Endpoint 7 of tenancy 0 is bound to the team; an exported window of it at 0x18000; packet 9 of the team is on its way to peer 5. -/
def bound : State :=
  let s := { sp with mem := Cells.writeLE sp.mem ((sp.ten 0).epbase + 8 * 7) 8 (2 ^ 63) }
  { s with boot := { s.boot with cfg := { s.boot.cfg with windows := [⟨0, 7, 0x18000, 0x1000⟩] } } }
def sending (k : SentKind) (o : OKind) : State :=
  { waits o with sent := [{ sp.mkSent k 0 0 7 5 16 with id := 9, entry := 0x40000, chan := 1, timeout := 0 }] }
def arriving (rten rep addr : Nat) : PacketIn := ⟨5, false, rten, rep, addr, [1, 2, 3, 4], some 32, none⟩
/-- A lane of the state, for peer 5, since clock 0. -/
def lit (st : OState) : State := { sp with optics := [⟨4, st, 0, 0, some 5, none⟩], clock := 120000, flits := [(4, 5)] }
theorem witness_FabricEvents :
    let secure := { bound with tens := modAt bound.tens 0 fun t => { t with cfg := modAt t.cfg 0 fun w => w ||| BitVec.ofNat 64 (2 ^ 62) } }
    let kinds := [sending .send .tile, sending .atom (.catom true 5 0), sending .get (.cget 0 16 16 none), sending .engLoad .tile, sending .swStore .tile, sending .join .tile]
    let left := onGroup (fun G => { G with outst := G.outst.map fun o => { o with held := [] } }) (sending .get (.cget 0 16 16 (some 32)))
    let ask := fun (op : RemoteOp) => (⟨5, false, 0, 7, 0xFF0, op⟩ : FabricReq)
    let fwd : FwdAccess := ⟨5, 0x18000, false, .read 16, false, 0⟩
    let leased := onTeam (fun t => { t with leases := [⟨3, 5, [⟨4, none, 0⟩], 100⟩] }) (onGroup (fun G => { G with outst := [{ ctx sp ldw |>.oword [] (.lease 5 3 1) with id := 7 }] }) (lit .live))
    let lent := { onTeam (fun t => { t with leases := [⟨3, 6, [⟨4, some 5, 0⟩], 100⟩] }) (lit .live) with peers := [⟨5, [], 0, 10 ^ 6, none, some 0⟩] }
    (bound.boundTeam 0 7) = some 0 ∧ bound.boundTeam 0 6 = none ∧ (secure.ten 0).secure = true ∧ (bound.ten 0).secure = false ∧ bound.spaceLen (bound.team 0) = 0x4000 ∧
      0x3FFE + (arriving 0 7 0x3FFE).bytes.length > 0x4000 ∧ brings bound (pagesOf 16 4 ++ pagesOf 32 16) = true ∧ 32 + 16 ≤ 0x4000 ∧
      kinds.all (fun s => s.sent.all fun q => q.id == 9 && !q.lost && !q.refused && q.peer == 5) = true ∧ (kinds.map fun s => (s.word? 0 7).isSome && decide ((s.sent.map (·.g)) = [0])) = List.replicate 6 true ∧
      (left.sent.find? fun y => y.id == 9 && y.kind == .get && !y.lost).isSome = true ∧ (left.word? 0 7).map (fun o => (o.kind, o.held)) = some (.cget 0 16 16 (some 32), []) ∧
      brings left (pagesOf 4 12 ++ pagesOf 32 16) = true ∧ (0xFF0 + 16 ≤ 0x1000 ∧ 0x1000 < 0xFF8 + 16) ∧
      [RemoteOp.read 16, .atom 0 2 1#64 0#64].all (fun op => linePieces (0x18000 + (ask op).off) 16 == [(0x18FF0, 16)]) = true ∧
      (match bound.xlate 0 0 false (joinWho 0) 0x18FF0 (.atomic true) false, bound.xlate 0 0 false (joinWho 0) 0x30000 .load false with
        | .ok l, .fault _ => decide (l.own = .here) && !(bound.poisoned l.pa) | _, _ => false) = true ∧
      sp.secureAt fwd.pa (remoteSize fwd.op) = false ∧ sp.poisoned fwd.pa = false ∧
      Cells.wf sp.mem = true ∧ (bound.boot.cfg.windows.find? fun w => w.ten == 0 && w.rep == 7) = some ⟨0, 7, 0x18000, 0x1000⟩ ∧
      (match bound.xlate 0 0 false (joinWho 0) 0x18000 .load false with | .ok l => decide (l.own = .here) && !(bound.poisoned l.pa) | _ => false) = true ∧
      ((lent.peerUse 5).darkSince = some 0 ∧ ({ lent with optics := [] } : State).liveTo 5 = []) ∧ lent.deadpeer.length = 4 ∧
      leased.leaseLive 0 3 = true ∧ (leased.leaseWord 0 3).isSome = true ∧ (leased.team 0).leases.map (·.expiry) = [100] ∧ (lent.longestLent 5).isSome = true ∧
      ((lent.allotment 5).filter fun l => !(lent.leasedLane l)).length ≤ 2 ∧ lent.clock < (lent.peerUse 5).freeAt ∧ (lent.peerUse 5).queuedSince + 50 * 1200 ≤ lent.clock ∧ (lent.leaseLanes.map fun y => (y.donor, y.since)) = [(some 5, 0)] ∧
      [OState.tuning, .failed, .live].all (fun x => decide (((lit x).lane 4).st = x)) = true ∧ 1920 ≤ (lit .live).clock ∧ (lit .live).liveTo 5 ≠ [] := by decide +kernel

def parsed : CRec := { parseRec (Cells.readN spawning.mem 0x18000 64) with cmpl := 0x18100 }
def fitting : Header := { placeHdr with regs := 32, acc := 1, scr := 0, queues := 0, chan := 0 }
/-- Tenancy 0 on cluster 0 alone after bring-up, with a waiting launch 1 of a kernel of 16 cores, where launch 0's team holds every tile of core 0. -/
def waitingLaunch (first second : Launch → Launch) : State :=
  let s : State := { spawning with boot := { spawning.boot with step := 7 }, clock := 240000, launches := [first (spawning.launch 0),
    second { Launch.zero with crec := parsed, hdr := { fitting with cores := 16, teamSz := 512 }, order := 1, completed := false }] }
  s.modTen 0 fun t => { t with nslot := 4, slotsz := 64, cfg := modAt t.cfg 0 fun w => w &&& ~~~0xFFFE0000#64, bands := [1] :: t.bands.drop 1 }
def sits (t : List (Option Nat × Nat × List Nat)) : List (Bool × Nat × Nat) := t.map fun i => (i.1.isNone, i.2.1, i.2.2.length)
theorem witness_SwardEvents :
    let bytes := Cells.readN spawning.mem 0x18000 64
    let off := spawning.modTen 0 fun t => { t with cfg := modAt t.cfg 0 fun w => w &&& 0x7FFFFFFFFFFFFFFF#64 }
    let one := waitingLaunch (fun l => l) (fun l => { l with hdr := fitting })
    let low := waitingLaunch (fun l => { l with crec := { l.crec with band := 7 }, band := 7 }) (fun l => l)
    let prog := waitingLaunch (fun l => { l with crec := { l.crec with teams := 2 }, hdr := { l.hdr with cores := 16, teamSz := 512, scr := 0 } }) (fun l => { l with completed := true })
    (spawning.ten 0).secure = false ∧ (off.ten 0).en = false ∧ (spawning.ten 0).en = true ∧ (spawning.ten 0).froz = false ∧ (parseRec bytes).ok = true ∧ (spawning.ten 0).slnch = true ∧
      (match spawning.readHeader 0 (parseRec bytes) with | (some h, _) => h.ok (parseRec bytes).prog && spawning.shapeOk 0 (parseRec bytes) h && h.chan == 0 | (none, _) => false) = true ∧
      spawning.bandLen 0 (clampBand (spawning.ten 0).bandMask (parseRec bytes).band) < 1024 ∧ bytes.length = 64 ∧ spawning.windowOwner (spawning.ten 0).lwoff = some 0 ∧
      (match spawning.submit 0 bytes 0 .window true, spawning.submit 0 bytes 0 .mc true with | .done _, .done _ => true | _, _ => false) = true ∧
      one.decision.map (fun d => (d.1, sits d.2)) = some (1, [(true, 0, 1)]) ∧
      ((low.bandLaunches 0 0).find? fun l => !(low.waiting l).isEmpty) = some 1 ∧ (low.launch 1).picks = [] ∧ low.slotsFor 0 [none] = true ∧ (low.plan 1 [] [none]).isNone = true ∧
      (low.pickVictims 1 [] [none] (low.launch 1).started.length [] [] []).map (·.2) = some [0] ∧
      (prog.launch 0).crec.prog = 1 ∧ (prog.team 0).startAt + 120000 ≤ prog.clock ∧ (prog.firstTry [] (prog.bandLaunches 0 0)).isNone = true ∧
      (prog.firstTry [0] (prog.bandLaunches 0 0)).map (fun d => (d.1, sits d.2)) = some (0, [(true, 0, 16)]) := by decide +kernel
theorem witness_SwardEvents_more :
    let hot := okMem.modCore 0 fun c => { c with lowSamples := 2 }
    let stopping := onTeam (fun t => { t with life := .stopping }) okMem
    let over' := waitingLaunch (fun l => l) (fun l => { l with crec := { l.crec with join := 0 }, abort := some (0x20, 0) })
    let d : Datagram := ⟨1, 4660, 5, 99, true, [0x57, 0x53, 0x81, 0, 0, 0, 0, 0] ++ Cells.readN spawning.mem 0x18000 64⟩
    let wired := { spawning with ports := [false, true], boot := { spawning.boot with cfg := { spawning.boot.cfg with ports := [⟨4660, 5, 0⟩] } } }
    ((List.range hot.teams.length).filter fun i => (hot.team i).life == .running && (hot.team i).cores.contains 0) = [0] ∧ (hot.core 0).lastMove = none ∧
      stopping.drained 0 = true ∧ (over'.launchOver 1) = some (0x20, 0) ∧ (over'.launch 1).crec.cmpl = 0x18100 ∧ (over'.launch 1).origin = .mc ∧
      (match over'.swLine 0 (launchWho 1) 0x18100 true .store with | .ok l => decide (l.1.own = .here) | .error _ => false) = true ∧ Cells.wf over'.mem = true ∧
      (let phased := fun (k status : Nat) => over'.modLaunch 1 fun x => { x with phase := k, final := (status, 0), crec := { x.crec with join := if k = 3 then 64 else 0 } }
       [(1, 32), (2, 32), (3, 1), (3, 32), (4, 32)].all fun p => let s := phased p.1 p.2
         (s.launch 1).phase == p.1 && (s.launch 1).final.1 == p.2 && !((s.launch 1).completed) && s.sent.isEmpty &&
           (match s.swLine 0 (launchWho 1) 0x18100 true .store with | .ok l => decide (l.1.own = .here) | .error _ => false)) = true ∧
      (sp.mkSent .swStore 0 (launchWho 1) 0 5 24).lost = false ∧
      wired.ports.getD d.port false = true ∧ d.payload.length = 72 ∧ (d.payload.getD 2 0).toNat % 128 = 1 ∧
      (wired.boot.cfg.ports.find? fun b => b.dstPort == d.dstPort && b.srcAddr == d.srcAddr) = some ⟨4660, 5, 0⟩ ∧
      (match wired.submit 0 (d.payload.drop 8) 0 (.datagram 5 99 (d.payload.take 8) true) true with | .done _ => true | _ => false) = true ∧
      Cells.readLE faulted.mem (faulted.fqSlot 0 1) 8 = 7 ∧ Cells.readLE (Cells.writeLE faulted.mem (faulted.fqSlot 0 7) 8 7) (faulted.fqSlot 0 7) 8 = 7 ∧
      csrOf (0x3028 / 8) = some .csrviol ∧ csrOf (0x7000 / 8) = none ∧ 4 % 8 ≠ 0 := by decide +kernel

def tileEnds (op : TOp) (mma : Bool) : Bool :=
  let s := tiling op
  ((s.core 0).nextOp mma).isSome && (s.core 0).ops.length == 1 && runsB s &&
    ((s.group 0).outst.find? fun y => y.id == 7).isSome && decide (0 < s.cores.length)
theorem witness_tile_length (op : TOp) : (((tiling op).core 0).tile 5).length = 4096 := by
  have h : ∀ (s : State) (f : Core → Core), 0 < s.cores.length → (s.modCore 0 f).core 0 = f (s.core 0) := by
    intro s f hs
    obtain ⟨c, cs, hc⟩ := List.exists_cons_of_length_pos hs
    simp [State.modCore, State.core, hc, modAt]
  unfold tiling
  rw [h _ _ (by decide +kernel)]
  simp [Core.tile]
/-- An operation of each kind, each read form with a result; a pipe with nothing to do; a granule on its way. -/
theorem witness_TileOperationsPerform :
    let a := (ctx sp ldw).vregs 0 4
    tileEnds (.mma 1 (BitVec.ofNat 32 desc) a a) true = true ∧
      [TOp.zero 9, .rd false 2 1 8 [0, 3] [0, 1, 2, 3], .rd true 2 1 8 [0, 3] [0, 1, 2, 3], .max false true 8 a [0] [0], .max true false 8 a [0] [0],
        .scl (List.replicate 64 2) (List.replicate 64 1), .drn 0 true, .drn 0 false].all (fun op => tileEnds op false) = true ∧
      ((sp.core 0).nextOp true).isNone = true ∧
      (({ sp with cores := modAt sp.cores 0 fun c => { c with drains := [⟨0, 0, 16, [1, 2]⟩] } } : State).core 0).drains.length = 1 := by decide +kernel

/-! ## Witnesses: the memory system and bring-up -/

/-- A pending walk of page 1 for core 0. -/
def pendingWalk : State := { okMem with dies := modAt okMem.dies 0 fun d => { d with pend := [⟨0, 1, [(0, pc0)], [0], 0⟩, ⟨0, 2, [(0, pc0)], [0], 5⟩] } }
def walkEnds (s : State) : Bool :=
  match (s.die false).nextWalk s.clock with
  | none => false
  | some p =>
    let s' := s.modDie false fun d =>
      let rest := d.pend.filter (· != p)
      { d with pend := rest, walking := (p.raisers ++ d.walking.filter fun w => !(p.raisers.contains w)).filter fun w => rest.any fun q => q.raisers.contains w }
    match s'.walk false p.ten (p.page * 65536) with | .ok _ => true | .error _ => false
theorem witness_MemorySystemEvents_replays : let s := { okMem with pseudo := [⟨pseudoKey 7, 3, [], (0, 1), (0, 1), []⟩] }
    ∃ p ∈ s.pseudo, p.key = pseudoKey 7 ∧ p.replays ≠ 0 := ⟨_, List.mem_singleton.2 rfl, rfl, by decide⟩
theorem witness_MemorySystemEvents :
    let counting := { okMem with dies := modAt okMem.dies 1 fun d => { d with counters := [⟨3, 1, 2, 500⟩] } }
    let asked := { okMem with atsReqs := [⟨5, 0, 9, 4, false, 0, true, false, 0⟩, ⟨6, 0, 9, 5, false, 0, true, true, 1⟩, ⟨7, 0, 9, 6, false, 0, true, true, 2⟩] }
    let shot := { okMem with tens := modAt okMem.tens 0 fun t => { t with shoots := [⟨3, 0, 0, 1, [], [], []⟩] }, invals := [⟨9, 0, 4096, [], []⟩] }
    let ill := okMem.modDie false fun d => { d with poison := (List.range 64).map fun i => (i, i + 1), errs := d.errs }
    let self := okMem.modStack 3 fun x => { x with owner := true, missed := 1, selfRef := true }
    let pulse := okMem.modStack 4 fun x => { x with missed := 1 }
    let gone := { okMem with sent := [{ okMem.mkSent .join 0 0 0 5 16 with lost := true }] }
    let st2 := { okMem with
      hbm := modAt okMem.hbm 2 fun x => { x with trnd := true, recentring := [7] }
      pseudo := [⟨131, 7, [⟨false, 0, false, 3, 2, (0, 1)⟩], (1, 1), (0, 1), []⟩, ⟨132, 8, [], (0, 1), (0, 1), []⟩, ⟨135, 0, [⟨false, 0, true, 9, 2, (0, 1)⟩], (1, 1), (0, 1), []⟩, ⟨136, 0, [⟨false, 0, false, 3, 2, (0, 1)⟩, ⟨false, 1, true, 1, 1, (0, 1)⟩, ⟨true, 2, false, 1, 1, (0, 1)⟩], (1, 1), (0, 1), []⟩] }
    (okMem.ten 0).cfg ≠ [] ∧ (okMem.team 0).ten = 0 ∧ (okMem.team 0).life = .running ∧ (∀ g ∈ (okMem.team 0).groups, g < okMem.groups.length) ∧
      ((okMem.die false).errs[8]?).isSome = true ∧ 0 < okMem.cores.length ∧ clusterOf 0 < okMem.ctlb.length ∧ (sp.frameOf 0 0).isSome = true ∧
      ((List.range 64).all fun i => (ill.die false).poison.any fun e => e.1 == i) = true ∧ ((ill.die false).poison.all fun e => e.2 != 0) = true ∧
      (self.stack 3).owner = true ∧ (self.stack 4).owner = false ∧ (self.stack 4).missed = 0 ∧ (pulse.stack 4).missed ≠ 0 ∧ (pulse.stack 4).owner = false ∧
      (self.stack 3).selfRef = true ∧ ({ self with tripped := true } : State).tripped = true ∧ (gone.sent.all fun q => q.lost) = true ∧
      ((counting.die true).counters.map (·.idx)) = [3] ∧ 500 < 2 ^ 16 ∧ 1 < okMem.dies.length ∧ 0 < okMem.tens.length ∧
      (asked.atsReqs.find? fun y => y.id == 5 && y.phase == 0).isSome = true ∧ (asked.atsReqs.find? fun y => y.id == 6 && y.phase == 1).isSome = true ∧
      ((shot.ten 0).shoots.map fun (c : Shoot) => c.waits) = [[]] ∧ shot.sent = [] ∧ (shot.invals[0]?).isSome = true ∧ walkEnds pendingWalk = true ∧
      walkEnds { pendingWalk with clock := 10000 } = true ∧ ((pendingWalk.die false).pend.all fun q => q.raisers != []) = true ∧ walkEnds (pendingWalk.modDie false fun d => { d with walking := [(0, pc0)] }) = true ∧
      (okMem.purges = [] ∧ okMem.sent = [] ∧ (okMem.groups.all fun G => G.outst.isEmpty) = true ∧ (heldUp.groups.any fun G => G.outst.any (·.isStore)) = true) ∧
      ((st2.pc 131).replays, (st2.pc 132).replays) = (7, 8) ∧ (st2.stack 2).offl = 0#32 ∧ (st2.stack 2).selfRef = false ∧ ((st2.pc 136).bursts.all fun b => 0 < b.den) = true ∧ 2 < st2.hbm.length ∧ 7 ∈ (st2.stack 2).recentring ∧
      (st2.stack 2).trnd = true ∧ (st2.stack 2).owner = false ∧ (st2.pc 136).replays = 0 ∧ 8 / 2 ∉ (st2.stack 2).recentring ∧ (st2.pc 136).bursts[0]?.isSome = true := by
  decide +kernel

def cold : State := { State.reset with power := true }
/-- Bring-up at step `n`; routes give lanes 0 and 1 to peer 5 as base lanes. -/
def bringing (n : Nat) : State :=
  let row := ((List.replicate 64 0#16).set 3 0x8005#16).set 4 0x8005#16
  { cold with boot := { cold.boot with step := n, cfg := { cold.boot.cfg with routes := [⟨row, 0x8003#16⟩, ⟨row, 0x8004#16⟩] } }
              hbm := cold.hbm.map fun x => { x with trnd := true, trainFails := 2 } }
/-- A configuration of 4,096 empty rows. -/
def wholeCfg : FwConfig := { cold.boot.cfg with carve := [0, 0], routes := List.replicate 4096 ⟨List.replicate 64 0#16, 0#16⟩ }
theorem witness_BringUpEvents_cfg : cfgOk wholeCfg = true := by
  have hr : wholeCfg.routes = List.replicate 4096 ⟨List.replicate 64 0#16, 0#16⟩ := rfl
  have h : ∀ f, allOnce (fibreHomes wholeCfg f) = true := fun f => by simp [-List.reduceReplicate, fibreHomes, hr, routeBase, allOnce]
  have hp : wholeCfg.ports = [] ∧ wholeCfg.imports = [] ∧ wholeCfg.windows = [] ∧ wholeCfg.device < 256 ∧ wholeCfg.carve = [0, 0] := by decide +kernel
  simp [-List.reduceReplicate, cfgOk, h, hr, hp, allOnce, Config.nOpticalLanes, bitsOf]
theorem witness_BringUpEvents :
    let failing := { cold with boot := { cold.boot with step := 2 }, hbm := modAt cold.hbm 1 fun x => { x with trainFails := 2 } }
    let dead := { bringing 7 with boot := { (bringing 7).boot with calAt := some 0, deadBase := [5] }, clock := 60000000 }
    let gated := { cold with cores := modAt cold.cores 0 fun c => { c with allow := 1, gate := [0, 0] }, groups := okMem.groups }
    let temps := List.replicate 256 700#12
    let hot := { spawning with tripped := true, launches := [] }
    cold.power = true ∧ cold.boot.step = 0 ∧ cold.boot.hold = false ∧ failing.hbm.length = 12 ∧
      (failing.stack 0).trnd = false ∧ (failing.stack 0).trainFails < 2 ∧ (failing.stack 1).trnd = false ∧ (failing.stack 1).trainFails = 2 ∧
      (bringing 2).hbm.all (·.trnd) = true ∧ (bringing 2).baseLanes ≠ [] ∧
      (({ bringing 3 with optics := [⟨0, .live, 3, 0, some 5, none⟩, ⟨1, .failed, 4, 0, some 5, none⟩] } : State).baseLanes.map fun l => l) = [0, 1] ∧
      (dead.allotment 5) ≠ [] ∧ (dead.allotment 5).all (fun l => (dead.lane l).st != .live) = true ∧ dead.isDead 5 = false ∧ dead.boot.calAt = some (dead.clock - 60000000) ∧ 60000000 ≤ dead.clock ∧ 5 ∈ dead.boot.deadBase ∧ dead.boot.step = 7 ∧
      (gated.core 0).allow.toNat < ((gated.core 0).gate.filter fun t => decide (gated.clock < t + 256)).length ∧ cold.deadpeer.length = 4 ∧ cold.sent = [] ∧
      (failing.stack 0).selfRef = false ∧ (bringing 7).boot.step = 7 ∧
      temps.length = 256 ∧ spawning.cores.length = 256 ∧ spawning.hbm.length = 12 ∧ (List.range 12).all (fun k => decide ((spawning.stack k).cap = 255 ∧ ((List.replicate 12 600#12).getD k 0).toNat < 680)) = true ∧
      hot.launches.all (·.completed) = true ∧ hot.tens.all (fun t => t.fqWait.isEmpty) = true ∧ (0, 1) ∉ cold.boot.measured ∧ cold.boot.meas.length = 8 ∧
      (bringing 5).boot.step = 5 ∧ cold.boot.building = false ∧ ({ cold.boot with building := true } : Boot).rpt = false := by decide +kernel

/-! ## Witnesses: what rows 1 to 5 refuse, and what the operations behind the events do -/

/-- The group's lanes stand at `pc`, in whose page the word `w` lies, and it is to issue there. -/
def fetching (pc w : Nat) : State :=
  { onGroup (fun G => { G with lanes := G.lanes.map fun y => { y with pc := BitVec.ofNat 64 pc } }) st with
    mem := Cells.writeLE st.mem pc 16 w, inputs := [.issue 0 (BitVec.ofNat 64 pc)], cur := none }
/-- A misaligned address and the last place of a line; LEN = 11; 16 bytes where 12 are left; an unassigned opcode. -/
theorem witness_IllegalEncodings_fetch :
    let runs := fun (pc w : Nat) => let s := fetching pc w; s.power && ({ s with inputs := [] } : State).mayIssue 0 (BitVec.ofNat 64 pc)
    let reads := fun (pc w : Nat) => match (fetching pc w).xlateAll 0 ((fetching pc w).group 0) 0 (BitVec.ofNat 64 pc) .fetch [(0, pc)] with
      | .ok (l :: _) => !((fetching pc w).poisoned l.pa) && decide (Cells.readLE (fetching pc w).mem l.pa (32 - pc % 32) = w % 2 ^ (8 * (32 - pc % 32))) | _ => false
    runs 0x10002 0 = true ∧ runs 0x1001C 0 = true ∧ 0x10002 % 4 ≠ 0 ∧ 0x1001C % 32 = 28 ∧
      [(0x10000, 3), (0x10014, 2), (0x10018, 1), (0x10000, 0x3F000 + 0x17 * 2 ^ 24)].all (fun p => runs p.1 p.2 && reads p.1 p.2 && p.1 % 32 != 28) = true ∧
      (match decodeBits (0x3F000 + 0x17 * 2 ^ 24) with | .error .opcUnassigned => true | _ => false) = true := by decide +kernel
/-- A pair that is legal, pairs of one class, of one destination, and of an opcode that cannot be paired. -/
theorem witness_IllegalEncodings_pairs :
    let word := fun (p : Pair) => encodeCtl k0 1 + encodePair p
    let outcome := fun (p : Pair) => match decodeBits (word p) with | .ok (.paired _ q) => if q = p then 1 else 0 | .error .pairBroken => 2 | _ => 0
    [(⟨0x60, 4, 1, 2, 0, 0x20, 8, 9, 0x0A, 0⟩ : Pair), ⟨0x60, 4, 1, 2, 0, 0x20, 4, 9, 0x0A, 0⟩, ⟨0x22, 4, 1, 2, 3, 0x23, 8, 1, 2, 3⟩, ⟨0x68, 4, 1, 0, 0, 0x69, 8, 1, 0, 0⟩,
      ⟨0x04, 4, 1, 2, 0, 0x20, 8, 9, 10, 0⟩].map outcome = [1, 2, 2, 2, 2] := by decide +kernel

/-- A plane load of eight planes at element 4 of the set, and a refine of a register that holds three, both at issue. -/
def planeWord (i : Instr) (s : State) : State := match exec i s with | .next t => t | _ => s
def planeLandsB (s : State) : Bool :=
  match (s.group 0).outst with
  | [o] => match o.kind with
    | .plane rs j => !rs.isEmpty && j.part.length == 32 && decide (j.p < j.kk ∧ j.kk ≤ 8) && ((s.group 0).v.getD j.d ⟨[], ⟨0, 0⟩⟩).lanes.length == 32 &&
        decide ((rs.map AsmReq.a).Nodup ∧ (rs.map fun q => q.exp.key).Nodup) && !((s.group 0).heldBack o .rc o.accs) && j.known.isEmpty &&
        (rs.all fun q => q.exp.size == 4 && q.pieces.all (·.size == 16) && decide (q.pieces.map Acc.lane = (List.range j.kk).filter (j.p ≤ ·)) &&
          (q.accs j.refine).all fun a => a.kind == .rc && a.own == .here && !(s.poisoned a.pa) && !(s.hbmWaits a.pa)) &&
        (s.core 0).asm.isEmpty && (j.part.all fun l => (List.range 4).all fun i => let e := j.o + 4 * (l : Int) + (i : Int)
          e < 0 || j.extent ≤ e || rs.any fun q => decide ((q.a : Int) = e / 128)) &&
        ((blocksOf j.part).all fun b => let e := j.o + 32 * (b : Int); e < 0 || j.extent ≤ e || rs.any fun q => decide ((q.a : Int) = e / 128))
    | _ => false
  | _ => false
theorem witness_LoadsLand_planes :
    let pl := withS (mem planes) [64]
    let three := onGroup (fun G => { G with v := G.v.map fun y => { y with tag := ⟨0, 0x63⟩ } }) pl
    let none' := withS pl [BitVec.toNat (BitVec.ofInt 64 (-64))]
    planeLandsB (planeWord (.ldpl k0 ⟨2, 0, 0, 8, 0, 0⟩) pl) = true ∧ planeLandsB (planeWord (.ldrf k0 ⟨2, 0, 0, 8, 0, 0⟩) three) = true ∧
      planeLandsB (planeWord (.ldpl k0 ⟨2, 0, 0, 3, 0, 0⟩) none') = true := by decide +kernel
/-- Three lanes of one load; a load whose line turns out poisoned, a word whose data is refused, and one that reads nothing there. -/
theorem witness_LoadsLand_late :
    let three := waitingFor (.load [acc1, { acc1 with lane := 0, va := 0x18080, pa := 0x18080 }, { acc1 with lane := 1, va := 0x18004, pa := 0x18004 }] 4 2 false [])
    let ill := loading.modDie false fun d => { d with faulty := [0x18000 / 128] }
    let found := fun (s : State) (va : Nat) => match (s.group 0).outst with
      | [o] => (o.accs.find? fun a => decide (a.va ≤ va) && decide (va < a.va + a.size) && (a.own != .here || s.poisoned a.pa)).isSome | _ => false
    (match (three.group 0).outst with | [o] => decide ((o.accs.map Acc.lane).Nodup) && !((three.group 0).heldBack o .rc o.accs) | _ => false) = true ∧
      found ill 0x18003 = true ∧ found loading 0x18003 = false ∧ found ill 0x18004 = false ∧
      ((waitingFor (.bad 3 0x18000)).group 0).outst.map (·.kind) = [.bad 3 0x18000] := by decide +kernel
/-- What a store finds: nothing, an open word before its fence, a store lost with its peer; an SO access and an SO command of its group. -/
theorem witness_AccessesIssue_finds :
    let x := fun (s : State) => ctx s stw
    let fenced := onGroup (fun G => { G with fence := some 9 }) heldUp
    let gone := { heldUp with sent := [{ heldUp.mkSent .fwdStore 0 0 3 5 16 with lost := true }] }
    relOk (releaseFinds (x heldUp) 0 false) = true ∧ relOk (releaseFinds (x heldUp) 6 true) = true ∧ relWaits (releaseFinds (x fenced) 0 false) = true ∧
      relWaits (releaseFinds (x heldUp) 4 false) = true ∧ (match releaseFinds (x gone) 4 false with | .dead _ p => p == 5 | _ => false) = true ∧
      (okMem.soCmds 0 0 9) = false ∧ ((okMem.group 0).outst.all fun o => !o.so) = true := by decide +kernel
/-- Prefetches with a page that misses and room to walk it, without room, and of a plane set that is not aligned. -/
theorem witness_AccessesIssue_pref :
    let i := Instr.pref k0 ⟨0, 1, 0, 8, 0, 0⟩
    let full := okMem.modDie false fun d => { d with pend := (List.range 512).map fun k => ⟨0, 1000 + k, [(0, pc0)], [0], 0⟩ }
    let far := (ctx okMem i).prefWalks [0x900000]
    performs okMem [i] = true ∧ ((ctx okMem i).prefWalks [0x18000]).isSome = true ∧ (okMem.tlbLook 0 0 0x900000).isNone = true ∧ far.isSome = true ∧
      (far.map fun s => ((s.die false).pend.map fun p => (p.ten, p.page, p.raisers))) = some [(0, 0x90, [(0, pc0)])] ∧
      ((ctx full i).prefWalks [0x900000]).isNone = true ∧ recMoff planes.toNat % 128 = 0 ∧ recBad planes.toNat [1, 2, 3] = false := by decide +kernel
theorem witness_FunctionAccuracy : (-256 : Int) < -255 ∧ (255 : Int) < 256 ∧ 0 < 2 ^ 24 - 1 ∧ 2 ^ 24 - 1 < 2 ^ 24 ∧ (-149 : Int) ≤ -149 ∧ (104 : Int) ≤ 104 := by decide
/-- An element strictly between two multiples of the unit of a larger one. -/
theorem witness_RoundingIsCorrect_sticky : 2 ^ (24 + 1) ≤ 2 ^ 25 ∧ (((2 ^ 25 : Nat) : Rat)) * 2 ^ (1 : Int) < ((2 ^ 26 + 1 : Nat) : Rat) * 2 ^ (0 : Int) ∧
    ((2 ^ 26 + 1 : Nat) : Rat) * 2 ^ (0 : Int) < (((2 ^ 25 : Nat) : Rat) + 1) * 2 ^ (1 : Int) := by norm_num
/-- Blocks that are special, empty, with a finite element at the top of the range, and below it. -/
theorem witness_BlockSelection_blocks :
    let f := fun (k : Nat) (e : Int) => Sys2Proof.Num.fin false k e
    let sel := fun (pol : Nat) (v : List Sys2Proof.Num) => let b := bfpConvert 4 .rne pol v; (b.exp, b.ms, b.under, b.faults)
    [sel 0x80 [.nan, f 3 0], sel 0 [.nan], sel 0 [f 0 0], sel 0 [f 3 0, f 1 0], sel 0x0C [f 15 124], sel 0xC1 [.nan, f 1 (-200)]] =
      [(255, [0, 0], 0, []), (254, [7], 0, []), (0, [0], 0, []), (129, [6, 2], 0, []), (254, [7], 0, [0]), (0, [0, 0], 1, [0])] := by decide +kernel
/-- Elements of the matrix engine: a product, a block exponent of 255 and of 0, a distance, codes that meet and do not; a row with and
without numbers; operands of the exponential. -/
theorem witness_TileOperationsPerform_elements :
    let frag := fun (b : Lane32) (e : Word) => [(⟨List.replicate 32 b, ⟨e, 0x68⟩⟩ : VReg)]
    let el := fun (sr : Nat) (a b : List VReg) => mmaElem sr (descSoff 0x88) (tileRow (descFillm 0x88) (descMwa 0x88) a 4 0) (tileRow (descFillm 0x88) (descMwb 0x88) b 4 0) 0
    let e := frag 0x01010101 0x86868686
    [el 0 e e, el 0 e (frag 0x01010101 0xFFFFFFFF), el 0 e (frag 0x01010101 0), el 1 e (frag 0 0), el 2 e e, el 2 e (frag 0x02020202 0), el 3 e e] =
      [0x42000000, 0x7FC00000, 0, 0x42000000, 0x3F800000, 0, 0] ∧
      [exu 0x7FC00000, exu 0x7F800000, exu 0, exu 0x42C80000, exu 0xC2C80000] = [0x7FC00000, 0x7F800000, 0x3F800000, 0x7F800000, 0] ∧
      (tileMax false (List.replicate 64 0x7FC00000#32 ++ 0x40000000#32 :: List.replicate 63 0x3F800000#32)).take 2 = [0x7FC00000, 0x40000000] := by decide +kernel

/-- A branch of half a group to its meeting address, which the lanes have. -/
theorem witness_Branches_meeting :
    let s := onGroup (fun G => { G with lanes := G.lanes.map fun y => { y with mt := pc0 + 32 } }) st
    (match exec (.bra k0 ⟨8, 0⟩) s with | .next t => (t.group 0).lanes.all (·.st == .heldMeet) | _ => false) = true := by decide +kernel

/-- Lanes that reach the peer on a free channel, on none, with a flit under way, LIVE, FAILED and dark. -/
theorem witness_LeaseWords_lanes :
    let s := leasing
    let flit := { s with optics := [⟨0, .tuning, 3, 20, some 5, some 6⟩, ⟨1, .failed, 1, 0, some 6, none⟩], clock := 10 }
    let live := { s with optics := [⟨0, .live, 1, 0, some 5, none⟩], clock := 10, peers := [⟨5, [], 10, 30, none, none⟩] }
    let ends := onTeam (fun t => { t with leases := [⟨3, 5, [⟨0, some 6, 0⟩, ⟨1, none, 0⟩], 100⟩] }) flit
    (s.chanTo 0 5).isSome = true ∧ s.chanTo 0 6 = none ∧ ((s.chanTo 0 5).map fun n => decide (n < 64)) = some true ∧ flit.clock < (flit.lane 0).since ∧
      flit.flitOf 0 = (20, some 6) ∧ flit.flitOf 1 = (10, none) ∧ live.flitOf 0 = (24, some 5) ∧ (flit.lane 1).st = .failed ∧
      ((ends.team 0).leases.find? fun l => l.id == 3).isSome = true ∧ ((ends.team 0).leases.find? fun l => l.id == 4).isNone = true ∧
      (s.grant 5 2).2.length = 2 ∧ ((s.grant 5 2).2.all fun x => routeBase (s.route x.lane) == false && x.donor == none) = true := by decide +kernel

/-- An atomic forwarded to a UN page and to another; loads on their way; a counter; flits and packets to send again; a peer's access to a
secure tenancy's memory, and to a poisoned counter. -/
theorem witness_FabricEvents_more :
    let w := fun (un : Bool) (a r : Nat) => onGroup (fun G => { G with outst := G.outst.map fun o => { o with unOnly := un, acq := a, rel := r } }) (sending .atom (.catom true 5 0))
    let ill := sp.modDie false fun d => { d with faulty := [0x18000 / 128] }
    let vault := { sp with tens := modAt sp.tens 0 fun t => { t with cfg := modAt (modAt t.cfg 4 fun _ => 6 + 0x18 * 2 ^ 12) 0 fun w => w ||| BitVec.ofNat 64 (2 ^ 62) } }
    let resend := { lit .live with flits := [(4, 5)], sent := [{ sp.mkSent .put 0 0 7 5 16 with id := 9, lost := false }] }
    let tuned := { sp with optics := [⟨4, .tuning, 1, 130000, some 5, some 6⟩], clock := 120000 }
    let again := { lit .live with peers := [⟨5, [], 0, 10 ^ 6, some 100, none⟩] }
    [w false 0 0, w true 2 2, w false 2 0].map (fun s => ((s.word? 0 7).map fun o => (o.unOnly, o.acq, o.rel, o.held != []))) =
        [some (false, 0, 0, true), some (true, 2, 2, true), some (false, 2, 0, true)] ∧
      ((sending .engLoad .tile).sent.all fun q => q.got.isNone) = true ∧ ill.poisoned 0x18000 = true ∧ vault.inSecure 0x18000 4 = true ∧
      ((List.range 8).all fun k => (sp.frameOf 0 ((4092 + k) / 4096)).isSome) = true ∧ (sp.cores.all fun co => co.frames.all fun fr => Cells.wf fr.data) = true ∧
      resend.liveTo 5 ≠ [] ∧ resend.flits[0]? = some (4, 5) ∧ resend.sent.length = 1 ∧ (tuned.flitOf 4) = (130000, some 6) ∧ (tuned.lane 4).st ≠ .live ∧
      ((again.peerUse 5).lastReclaim.map fun t => decide ((again.peerUse 5).queuedSince ≤ t ∧ t + 50 * 1200 ≤ again.clock)) = some true := by decide +kernel

/-- Cores that take a team and none; a slot that is free; a context with a line that is refused; a join word here, refused, and not read
yet; teams that are saved together; a saved team's place. -/
theorem witness_SwardEvents_effects :
    let one := waitingLaunch (fun l => l) (fun l => { l with hdr := fitting })
    let saved := onTeam (fun t => { t with life := .saved }) sp
    let torn := saved.modDie false fun d => { d with faulty := [saved.slotAddr (saved.team 0) / 128] }
    let joins := fun (va : Nat) => one.modLaunch 1 fun x => { x with final := (1, 0), phase := 3, crec := { x.crec with join := va } }
    let found := fun (s : State) => match s.swLine 0 (launchWho 1) (s.launch 1).crec.join true (.atomic false) with
      | .ok (l, _) => if l.own = .here then 1 else 0 | .error (.fault ..) => 2 | .error (.wait _) => 3
    let stack := (joins 0x18000).modStack 0 fun x => { x with recentring := [] }
    (one.coresFor 0 fitting 0 [] []).map (·.length) = some fitting.cores ∧ one.coresFor 0 { fitting with acc := 65 } 0 [] [] = none ∧
      (one.bestCluster [0] fitting 0 [] []).map (·.1) = some 0 ∧ one.bestCluster [0] { fitting with acc := 65 } 0 [] [] = none ∧
      1 < one.launches.length ∧ (one.slotsUsed 0).length < (one.ten 0).nslot ∧
      ((torn.contextBytes 0).any fun r => torn.listed r.1 r.2) = true ∧ ((saved.dies.all fun d => d.poison.isEmpty && d.faulty.isEmpty) &&
        saved.cores.all fun c => c.frames.all (·.bad.isEmpty)) = true ∧
      found (joins 0x18000) = 1 ∧ found (joins 0x30000) = 2 ∧ (stack.ten 0).joinWait = [] ∧ one.boot.hold = false := by decide +kernel
/-- A spawn whose record page is not mapped, or not in the TLBs; a join whose word a peer holds. -/
theorem witness_SpawnAndJoin_finds :
    let s := withS okMem [0, 0x18000, 8, 32]
    let i := Instr.spawn k0 ⟨0, 0, 0, 0, 0⟩
    let finds := fun (va : Nat) (s : State) => match (ctx s i).s.xlateAll 0 (ctx s i).G 0 pc0 .load [(0, va)] with | .ok _ => 0 | .fault .. => 1 | .wait .. => 2
    let cold := { s with cores := s.cores.map fun c => { c with tlb := [] }, ctlb := s.ctlb.map fun _ => [] }
    finds 0x18000 s = 0 ∧ finds 0x18000 cold = 2 ∧ finds (2 ^ 56) s = 1 := by decide +kernel
/-- Candidates: one that is not wholly in bounds, one in use with an edge; a queue that is empty, and one whose best is beyond the worst
result of a full one; reads of a node. -/
theorem witness_WaitEvents_walk :
    let w := walking.walkDesc 0 0 0
    let e : WalkAt := ⟨w, okRec.toNat, 0, 0, 7, pc0, 0⟩
    let at_ := fun (cq rq : CQ) => (⟨walking, cq, rq, [], 0, false, [], []⟩ : WStep)
    let empty : CQ := ⟨3, []⟩
    let ends := fun (x : WStep) => match e.step x with | .ok y => if y.fin then 1 else 0 | .error _ => 2
    ends (at_ empty empty) = 1 ∧ ends (at_ ⟨3, [(9 * 2 ^ 32, 0)]⟩ ⟨1, [(5, 0)]⟩) = 1 ∧ ends (at_ ⟨3, [(2 ^ 32 - 1, 0)]⟩ empty) = 0 ∧
      recIn okRec.toNat ((0 * w.nodeb : Nat) : Int) w.recLen = true ∧ recIn okRec.toNat (((2 ^ 32 - 1) * w.nodeb : Nat) : Int) w.recLen = false ∧
      (match e.read true 0x18000 8 (at_ empty empty) with | .ok (bs, _) => bs.length | .error _ => 0) = 8 ∧ 0x18000 % 128 + 8 ≤ 128 ∧
      (match walking.walkBring 0 0 0 0 with | .ok _ (_, some _) => 1 | .ok .. => 2 | _ => 0) = 1 ∧
      (match e.commit (at_ ⟨3, []⟩ ⟨2, []⟩) with | .ok _ => true | .error _ => false) = true ∧
      (List.range 40).all (fun b => (walking.frameOf 0 ((0x100 + b) / 4096)).isSome && (walking.frameOf 0 ((0x200 + b) / 4096)).isSome) = true := by decide +kernel
/-- Items for lanes that are done, and no items. -/
theorem witness_GroupEvents_refill :
    let s := laneStates [(.done, 0), (.exited, 0)] okMem
    let items := onTeam (fun t => { t with items := [[5, 6]] }) s
    (((List.range (s.group 0).gw).filter fun l => ((s.group 0).laneAt l).st == .done).zip (items.share 0)).length = 2 ∧ s.share 0 = [] ∧
      ((s.group 0).v.all fun v => v.lanes.length == (s.group 0).gw) = true ∧ 8 + 1 < (s.group 0).v.length := by decide +kernel
/-- A queue whose header cannot be corrected, one with an invalid header, and an entry that cannot be corrected. -/
def badRead (s : State) (a : Nat) : Bool := match (s.spoilWord 0 a).bringRead 0 0 [(0, 16)] with | .bad .. => true | _ => false
def badQueue (s : State) (a : Nat) : Bool :=
  match s.cqRead 0 0 with | some q => (match (s.spoilWord 0 a).bringQueue 0 0 0 q with | .bad .. => true | _ => false) | none => false
theorem witness_SearchWords_bad : badRead queued 4 = true ∧ badRead queued 20 = false ∧ badQueue queued 20 = true ∧ badQueue queued 60 = false ∧
    (sp.cqRead 0 0).isNone = true ∧ (queued.spoilWord 0 4).spBad 0 4 1 = some 4 := by decide +kernel

end Sys2Proof.Tests
end

/-! # Memory: what is read back, and its canonical form (00 R7, 04 R93, 10 R247; log 1) -/

namespace Sys2Proof.Machine

/-! ## Reading what was written (00 R7, 10 R247) -/

/-- No address up to `lo` is listed, so each of them reads 0. -/
theorem Cells.read_of_above {lo x : Nat} {m : List Host.Cell} (h : Cells.above lo m = true) (hx : x ≤ lo) : Cells.read m x = 0#8 := by
  induction m generalizing lo with
  | nil => rfl
  | cons c m ih =>
    simp only [Cells.above, Bool.and_eq_true, decide_eq_true_eq] at h
    obtain ⟨⟨hlt, -⟩, hm⟩ := h
    rw [Cells.read, if_neg (by omega)]
    exact ih hm (by omega)

theorem Cells.above_of_wf_cons {c : Host.Cell} {m : List Host.Cell} (h : Cells.wf (c :: m) = true) : Cells.above c.1 m = true := by
  simp only [Cells.wf, Bool.and_eq_true] at h
  exact h.2

theorem Cells.read_write {m : List Host.Cell} (h : Cells.wf m = true) (x : Nat) (v : Byte) (y : Nat) :
    Cells.read (Cells.write m x v) y = if y = x then v else Cells.read m y := by
  induction m with
  | nil => by_cases hv : v = 0#8 <;> simp [Cells.write, Cells.read, hv]
  | cons c m ih =>
    obtain ⟨a, b⟩ := c
    have hab : Cells.above a m = true := Cells.above_of_wf_cons h
    rcases Nat.lt_trichotomy x a with hlt | rfl | hgt
    · -- the new byte stands before the list, which holds nothing at `x`
      have h0 : Cells.read ((a, b) :: m) x = 0#8 := by
        rw [Cells.read, if_neg (by omega), Cells.read_of_above hab (by omega)]
      by_cases hv : v = 0#8
      · by_cases hy : y = x <;> simp [Cells.write, hlt, hv, hy, h0]
      · simp [Cells.write, hlt, hv, Cells.read]
    · -- the head is the byte that is written
      have h0 : Cells.read m x = 0#8 := Cells.read_of_above hab le_rfl
      by_cases hv : v = 0#8
      · by_cases hy : y = x <;> simp [Cells.write, Cells.read, hv, hy, h0]
      · by_cases hy : y = x <;> simp [Cells.write, Cells.read, hv, hy]
    · have hrec := ih (Cells.wf_of_above hab)
      by_cases hy : y = a
      · simp [Cells.write, Cells.read, hy, show ¬ x < a by omega, show ¬ x = a by omega, show ¬ a = x by omega]
      · simp [Cells.write, Cells.read, hy, show ¬ x < a by omega, show ¬ x = a by omega, hrec]

theorem Cells.read_writeN_outside {m : List Host.Cell} (h : Cells.wf m = true) {x y : Nat} {bs : List Byte}
    (hy : y < x ∨ x + bs.length ≤ y) : Cells.read (Cells.writeN m x bs) y = Cells.read m y := by
  induction bs generalizing m x with
  | nil => rfl
  | cons b bs ih =>
    simp only [List.length_cons] at hy
    rw [Cells.writeN, ih (Cells.write_wf h x b) (by omega), Cells.read_write h, if_neg (by omega)]

theorem Cells.read_writeN_inside {m : List Host.Cell} (h : Cells.wf m = true) (x : Nat) {bs : List Byte} {k : Nat} (hk : k < bs.length) :
    Cells.read (Cells.writeN m x bs) (x + k) = bs[k] := by
  induction bs generalizing m x k with
  | nil => simp at hk
  | cons b bs ih =>
    have hw := Cells.write_wf h x b
    cases k with
    | zero => rw [Cells.writeN, Cells.read_writeN_outside hw (by omega), Cells.read_write h]; simp
    | succ k =>
      rw [Cells.writeN, show x + (k + 1) = x + 1 + k by omega, ih hw (x + 1) (by simpa using hk)]
      rfl

theorem Cells.readN_writeN {m : List Host.Cell} (h : Cells.wf m = true) (x : Nat) (bs : List Byte) :
    Cells.readN (Cells.writeN m x bs) x bs.length = bs := by
  induction bs generalizing m x with
  | nil => rfl
  | cons b bs ih =>
    have hw := Cells.write_wf h x b
    have hb : Cells.read (Cells.writeN m x (b :: bs)) x = b := Cells.read_writeN_inside h x (k := 0) (by simp)
    rw [List.length_cons, Cells.readN, hb, Cells.writeN, ih hw]

@[simp] theorem leBytes_length (n v : Nat) : (leBytes n v).length = n := by
  induction n generalizing v with
  | zero => rfl
  | succ n ih => simp [leBytes, ih]

theorem leBytes_getElem {n v k : Nat} (hk : k < (leBytes n v).length) : (leBytes n v)[k] = BitVec.ofNat 8 (v / 2 ^ (8 * k)) := by
  induction n generalizing v k with
  | zero => simp [leBytes] at hk
  | succ n ih =>
    cases k with
    | zero => simp [leBytes]
    | succ k =>
      simp only [leBytes, List.getElem_cons_succ, ih]
      rw [Nat.div_div_eq_div_mul, show 8 * (k + 1) = 8 + 8 * k by omega, Nat.pow_add]

theorem leNat_leBytes (n v : Nat) : leNat (leBytes n v) = v % 2 ^ (8 * n) := by
  induction n generalizing v with
  | zero => simp [leBytes, leNat, Nat.mod_one]
  | succ n ih =>
    rw [leBytes, leNat, ih, BitVec.toNat_ofNat, show 8 * (n + 1) = 8 + 8 * n by omega, Nat.pow_add, Nat.mod_mul]

end Sys2Proof.Machine

namespace Sys2Proof

open Machine

/-- Settles O7: a byte reads as `Cells.read_write` says, and a number is its little-endian bytes, one after the other. -/
theorem bytesOfMemory : Obligations.BytesOfMemory := by
  unfold Obligations.BytesOfMemory
  refine ⟨fun m a v h => ⟨Cells.write_wf h a v, Cells.read_write h a v⟩, fun m a n v h => ⟨?_, fun k hk => ?_, fun b hb => ?_⟩⟩
  · have hread := Cells.readN_writeN h a (leBytes n v)
    rw [leBytes_length] at hread
    rw [Cells.readLE, Cells.writeLE, hread, leNat_leBytes]
  · rw [Cells.writeLE, Cells.read_writeN_inside h a (by simpa using hk), leBytes_getElem]
  · exact Cells.read_writeN_outside h (by simpa using hb)

end Sys2Proof

namespace Sys2Proof

open Machine

/-! ## What a result holds

Every operation of the model that answers states is taken once: where the state it is given has canonical memory, so has each state
that it answers. `MemWf` says it of a state; the predicates below say it of the results that carry states. -/

/-- Every state in a result of the scratchpad is canonical. -/
def Machine.SpRes.Wf {β : Type} : SpRes β → Prop
  | .ok s _ | .starve s _ | .bad s _ _ => MemWf s

def Machine.XAll.Wf : XAll → Prop
  | .ok _ => True
  | .fault s _ _ _ _ | .wait s _ => MemWf s

def Machine.Fetch.Wf : Fetch → Prop
  | .word _ => True
  | .trap s _ _ _ | .wait s _ => MemWf s

def Machine.Rel.Wf : Rel → Prop
  | .ok | .wait => True
  | .dead s _ | .refused s _ => MemWf s

/-- What a word answers; `fixed` carries no state of its own. -/
def Machine.Res.Wf : Res → Prop
  | .fixed _ => True
  | .go s | .yield s | .jump s | .out s _ | .hold s _ | .trap s _ _ _ _ | .trapF s _ | .stall s _ _ => MemWf s

def Machine.SFail.Wf : SFail → Prop
  | .wait s | .fault s _ _ => MemWf s

/-- What a command of an engine waits for is asked in a later state: the asking keeps canonical memory. -/
def Machine.EFail.Wf : EFail → Prop
  | .halt s _ _ => MemWf s
  | .wait ask => ∀ s, MemWf s → MemWf (ask s)
  | .frame _ => True

def Machine.WFail.Wf : WFail → Prop
  | .wait s _ | .fault s _ _ _ | .starve s _ _ => MemWf s

def Machine.SubRes.Wf : SubRes → Prop
  | .done s | .dropped s => MemWf s
  | .full => True

def Machine.Taken.Wf : Taken → Prop
  | .accepted s | .full s _ | .reading s => MemWf s

def Machine.CsrWrite.Wf : CsrWrite → Prop
  | .done s => MemWf s
  | .priv | .refused => True

/-- `P` of an error, `Q` of a value. -/
def ExceptWf {ε α : Type} (P : ε → Prop) (Q : α → Prop) : Except ε α → Prop
  | .error e => P e
  | .ok a => Q a

def OptionWf (o : Option State) : Prop := ∀ t, o = some t → MemWf t

/-- The next state of a step, where there is one. -/
def OutcomeWf (o : Host.Outcome State Fault Refusal) : Prop := ∀ t, o = .next t → MemWf t

section Results

variable {β : Type} {s : State} {r : SpRes β}

theorem Machine.SpRes.Wf.ok {b : β} (h : r.Wf) (e : r = .ok s b) : MemWf s := by subst e; exact h
theorem Machine.SpRes.Wf.starve {ps : List Nat} (h : r.Wf) (e : r = .starve s ps) : MemWf s := by subst e; exact h
theorem Machine.SpRes.Wf.bad {lane va : Nat} (h : r.Wf) (e : r = .bad s lane va) : MemWf s := by subst e; exact h

theorem Machine.XAll.Wf.fault {r : XAll} {c l v i : Nat} (h : r.Wf) (e : r = .fault s c l v i) : MemWf s := by subst e; exact h
theorem Machine.XAll.Wf.wait {r : XAll} {w : Wait} (h : r.Wf) (e : r = .wait s w) : MemWf s := by subst e; exact h

theorem Machine.Fetch.Wf.trap {r : Fetch} {c v : Nat} {n : Option Nat} (h : r.Wf) (e : r = .trap s c v n) : MemWf s := by subst e; exact h
theorem Machine.Fetch.Wf.wait {r : Fetch} {w : Wait} (h : r.Wf) (e : r = .wait s w) : MemWf s := by subst e; exact h

theorem Machine.Rel.Wf.dead {r : Rel} {p : Nat} (h : r.Wf) (e : r = .dead s p) : MemWf s := by subst e; exact h
theorem Machine.Rel.Wf.refused {r : Rel} {c : Nat} (h : r.Wf) (e : r = .refused s c) : MemWf s := by subst e; exact h

theorem Machine.SubRes.Wf.done {r : SubRes} (h : r.Wf) (e : r = .done s) : MemWf s := by subst e; exact h
theorem Machine.SubRes.Wf.dropped {r : SubRes} (h : r.Wf) (e : r = .dropped s) : MemWf s := by subst e; exact h

theorem Machine.Taken.Wf.accepted {r : Taken} (h : r.Wf) (e : r = .accepted s) : MemWf s := by subst e; exact h
theorem Machine.Taken.Wf.full {r : Taken} {bs : List Byte} (h : r.Wf) (e : r = .full s bs) : MemWf s := by subst e; exact h
theorem Machine.Taken.Wf.reading {r : Taken} (h : r.Wf) (e : r = .reading s) : MemWf s := by subst e; exact h

theorem Machine.CsrWrite.Wf.done {r : CsrWrite} (h : r.Wf) (e : r = .done s) : MemWf s := by subst e; exact h

end Results

section Except

variable {ε α β : Type} {P : ε → Prop} {Q : α → Prop} {R : β → Prop} {x : Except ε α}

theorem ExceptWf.ok {a : α} (h : ExceptWf P Q x) (e : x = .ok a) : Q a := by subst e; exact h
theorem ExceptWf.error {b : ε} (h : ExceptWf P Q x) (e : x = .error b) : P b := by subst e; exact h

theorem ExceptWf.ite {p : Prop} [Decidable p] {y : Except ε α} (hx : ExceptWf P Q x) (hy : ExceptWf P Q y) :
    ExceptWf P Q (if p then x else y) := by
  split
  · exact hx
  · exact hy

theorem ExceptWf.bind {f : α → Except ε β} (h : ExceptWf P Q x) (hf : ∀ a, Q a → ExceptWf P R (f a)) : ExceptWf P R (x >>= f) := by
  cases x with
  | error e => exact h
  | ok a => exact hf a h

theorem ExceptWf.map {f : α → β} (h : ExceptWf P Q x) (hf : ∀ a, Q a → R (f a)) : ExceptWf P R (x.map f) := by
  cases x with
  | error e => exact h
  | ok a => exact hf a h

theorem ExceptWf.foldlM {γ : Type} {f : α → γ → Except ε α} (hf : ∀ a c, Q a → ExceptWf P Q (f a c)) (l : List γ) {a : α} (h : Q a) :
    ExceptWf P Q (l.foldlM f a) := by
  induction l generalizing a with
  | nil => exact h
  | cons c l ih => exact (hf a c h).bind fun b hb => ih hb

end Except

/-! ## The state's own operations -/

section State

variable {s : State}

theorem MemWf.ite {c : Prop} [Decidable c] {a b : State} (ha : MemWf a) (hb : MemWf b) : MemWf (if c then a else b) := by
  split
  · exact ha
  · exact hb

/-- A fold over states keeps canonical memory when its step does. -/
theorem MemWf.foldl {α : Type} {f : State → α → State} {l : List α} (h : MemWf s) (hf : ∀ t a, MemWf t → MemWf (f t a)) :
    MemWf (l.foldl f s) :=
  State.foldl_inv hf l h

/-- A fold whose value has a state as its second part. -/
theorem MemWf.foldl_snd {α β : Type} {f : β × State → α → β × State} {l : List α} {b : β} (h : MemWf s)
    (hf : ∀ r a, MemWf r.2 → MemWf (f r a).2) : MemWf (l.foldl f (b, s)).2 :=
  List.foldlRecOn (motive := fun r => MemWf r.2) l f h fun r hr a _ => hf r a hr

theorem MemWf.setGroups (h : MemWf s) {gs : List Group} : MemWf { s with groups := gs } := h.of_eq rfl rfl

theorem MemWf.setSent (h : MemWf s) {ps : List Sent} : MemWf { s with sent := ps } := h.of_eq rfl rfl

variable {g l tid ten core page n pa va code peer id : Nat}

theorem MemWf.draw (h : MemWf s) : MemWf s.draw.2 := h.of_eq rfl rfl

theorem MemWf.freeBytes (h : MemWf s) : MemWf (s.freeBytes n).2 := by
  induction n generalizing s with
  | zero => exact h
  | succ n ih => exact ih h.draw

theorem MemWf.countErr (h : MemWf s) {d : Bool} {i : Nat} : MemWf (s.countErr d i) := h.modDie _ _

/-! ### The L1 and the scratchpad -/

theorem MemWf.l1Read (h : MemWf s) {a : Acc} {fresh : Bool} {bs : List Byte} : MemWf (s.l1Read core a fresh bs).2 := by
  have hfar : MemWf (match a.own with | .here => s.touch a.pa 0 false | _ => s) := by
    split
    · exact h.touch _ _ _
    · exact h
  unfold State.l1Read
  dsimp only
  split
  · exact hfar
  split
  · split
    · exact hfar.modCore _ _
    · exact h
  · exact hfar.modCore _ _

theorem MemWf.l1Store (h : MemWf s) {own : Owner} {bs : List Byte} : MemWf (s.l1Store core own pa bs) := by
  cases own with
  | here => exact h.modCore _ _
  | host | peer => exact h

theorem MemWf.l1Atomic (h : MemWf s) {own : Owner} : MemWf (s.l1Atomic core own pa n) := by
  cases own with
  | here => exact h.modCore _ _
  | host | peer => exact h

theorem MemWf.l1Acquire (h : MemWf s) {scope : Nat} : MemWf (s.l1Acquire core scope) := h.ite (h.modCore _ _)

theorem MemWf.l1All (h : MemWf s) : MemWf (s.l1All core) := h.modCore _ _

theorem MemWf.stbFill (h : MemWf s) : MemWf (s.stbFill core tid page) := h.ite (h.modCore _ _)

theorem MemWf.modFrame (h : MemWf s) {f : Frame → Frame} : MemWf (s.modFrame tid page f) := h.modCore _ _

theorem MemWf.spWrite1 (h : MemWf s) {addr : Nat} {b : Byte} : MemWf (s.spWrite1 tid addr b) := h.modFrame.markDirty _ _

theorem MemWf.fillPage (h : MemWf s) {keep : List (Nat × Nat)} : ExceptWf (fun _ => True) MemWf (s.fillPage tid page keep) := by
  unfold State.fillPage
  have hs := h.stbFill (core := s.portCore (s.team tid) (page * 4096)) (tid := tid) (page := page)
  dsimp only
  split
  · exact hs.modFrame
  split
  · trivial
  split
  · trivial
  next frame old _ =>
  refine MemWf.sptCount (MemWf.l0Mod (MemWf.modCore ?_ _ _) _ _ _) _ _
  refine MemWf.ite (MemWf.touchAll (MemWf.touchAll ?_ _ _ _) _ _ _) ?_ <;>
  · cases old with
    | none => exact hs
    | some f => exact hs.dropFrame f true

end State

end Sys2Proof

namespace Sys2Proof

open Machine

/-! ### Register images, context images and teams -/

theorem Machine.Cells.putLines_wf {m : List Host.Cell} (h : Cells.wf m = true) {a k r : Nat} {v : VReg} :
    Cells.wf (putLines m a k r v) = true :=
  Cells.foldl_wf (fun _ _ hm => Cells.writeN_wf (Cells.write_wf hm _ _) _ _) _ h

section Contexts

variable {s : State} {g l tid ten core page n pa va code peer id : Nat}

theorem MemWf.evictReg (h : MemWf s) {r : Nat} : MemWf (s.evictReg g r) := by
  unfold State.evictReg
  dsimp only
  split
  · exact h
  · exact (h.setMem (Cells.putLines_wf h.mem)).modGroup _ _

theorem MemWf.fitLines (h : MemWf s) : MemWf (State.fitLines core g n s) := by
  induction n generalizing s with
  | zero => exact h
  | succ n ih =>
    unfold State.fitLines
    split
    · exact h
    split
    · exact h
    split
    · exact ih h.evictReg
    · exact h

theorem MemWf.writeImage (h : MemWf s) : MemWf (s.writeImage g) := by
  refine MemWf.modGroup (h.setMem ?_) _ _
  refine Cells.foldl_wf (fun _ _ hm => Cells.putLines_wf hm) _ ?_
  exact Cells.foldl_wf (fun _ _ hm => Cells.writeLE_wf hm _ _ _) _ (Cells.clear_wf h.mem _ _)

theorem MemWf.readImage (h : MemWf s) : MemWf (s.readImage g) := h.modGroup _ _

theorem MemWf.writeTeam (h : MemWf s) {tiles : List (List (List Lane32))} : MemWf (s.writeTeam tid tiles) := by
  refine h.setMem (Cells.foldl_wf (fun _ _ hm => Cells.writeN_wf hm _ _) _ ?_)
  refine Cells.foldl_wf (fun _ _ hm => Cells.foldl_wf (fun _ _ hm => Cells.writeN_wf (Cells.clear_wf hm _ _) _ _) _ hm) _ ?_
  exact Cells.foldl_wf (fun _ _ hm => Cells.writeLE_wf hm _ _ _) _ (Cells.clear_wf h.mem _ _)

theorem MemWf.setLife (h : MemWf s) {life : Life} : MemWf (s.setLife tid life) := (h.modTeam _ _).wrMem _ _ _

theorem MemWf.putQueue (h : MemWf s) {q : Nat} : MemWf (s.putQueue tid q) := by
  unfold State.putQueue
  dsimp only
  split
  · exact MemWf.ite (h.foldl fun _ _ ht => ht.wrMem _ _ _) h
  · exact h

theorem MemWf.runOn (h : MemWf s) : MemWf (s.runOn tid) :=
  h.ite (h.foldl fun _ _ ht => MemWf.ite (ht.setLife.modTeam _ _) ht)

theorem MemWf.haltLaunch (h : MemWf s) : MemWf (s.haltLaunch l) :=
  (h.modLaunch _ _).foldl fun _ _ ht => MemWf.ite ht.setLife ht

theorem MemWf.readTeam (h : MemWf s) : MemWf (s.readTeam tid) := h.modTeam _ _

/-! ### Peers, lanes and leases -/

theorem MemWf.modPeer (h : MemWf s) {f : PeerUse → PeerUse} : MemWf (s.modPeer peer f) := h.of_eq rfl rfl

theorem MemWf.repace (h : MemWf s) {k : Nat} : MemWf (s.repace peer k) := h.ite h.modPeer

theorem MemWf.setLane (h : MemWf s) {o : OLane} : MemWf (s.setLane o) :=
  MemWf.foldl (s := { s with optics := _ }) (h.of_eq rfl rfl) fun _ _ ht => ht.repace

theorem MemWf.queueTo (h : MemWf s) : MemWf (s.queueTo peer n) := h.of_eq rfl rfl

theorem MemWf.leaveLive (h : MemWf s) : MemWf (s.leaveLive l) := by
  unfold State.leaveLive
  dsimp only
  split
  · exact MemWf.ite h.modPeer h
  · exact h

theorem MemWf.retune (h : MemWf s) {p : Option Nat} : MemWf (s.retune l p) := by
  unfold State.retune
  dsimp only
  split
  · exact h.leaveLive.setLane
  split
  · exact h.leaveLive.setLane
  · exact h.leaveLive.setLane

theorem MemWf.giveBack (h : MemWf s) {x : LeaseLane} : MemWf (s.giveBack x) := h.retune

theorem MemWf.endLease (h : MemWf s) : MemWf (s.endLease tid id) := by
  unfold State.endLease
  split
  · exact h
  · exact (h.foldl fun _ _ ht => ht.giveBack).modTeam _ _

theorem MemWf.setDead (h : MemWf s) : MemWf (s.setDead peer) :=
  MemWf.foldl (s := { s with peers := _, deadpeer := _ }) (h.of_eq rfl rfl) fun _ _ ht => ht.foldl fun _ _ hu => hu.endLease

/-! ### Translation -/

theorem MemWf.tlbFill (h : MemWf s) {e : TlbEnt} : MemWf (s.tlbFill core e) := h.of_eq rfl rfl

theorem MemWf.walkFill (h : MemWf s) {d : Bool} {leaf size : Nat} {es : List (Nat × Nat)} :
    MemWf (s.walkFill d core ten va leaf size es) := h.tlbFill.modDie _ _

theorem MemWf.atsAsk (h : MemWf s) {who : Nat} {how : How} : MemWf (s.atsAsk core ten who va how) := h.ite (h.of_eq rfl rfl)

theorem MemWf.atsForget (h : MemWf s) {who : Nat} : MemWf (s.atsForget who) := h.of_eq rfl rfl

theorem MemWf.pendWalk (h : MemWf s) {pc : Word} : OptionWf (s.pendWalk core ten g pc va) := by
  unfold State.pendWalk
  dsimp only
  split
  · rintro t ⟨⟩; exact h.modDie _ _
  split
  · rintro t ⟨⟩
  · rintro t ⟨⟩; exact h.modDie _ _

/-- A walk is pending where one finds a place; else nothing changes. -/
theorem MemWf.pendWalk_getD (h : MemWf s) {pc : Word} : MemWf ((s.pendWalk core ten g pc va).getD s) := by
  cases e : s.pendWalk core ten g pc va with
  | none => exact h
  | some t => exact h.pendWalk t e

theorem MemWf.xlateAll (h : MemWf s) {G : Group} {pc : Word} {how : How} {reqs : List (Nat × Nat)} :
    (s.xlateAll g G ten pc how reqs).Wf := by
  unfold State.xlateAll
  dsimp only
  split
  · exact h.atsForget
  have hask : ∀ rs : List (Nat × Nat × XRes),
      MemWf (rs.foldl (fun s r => if r.2.2 == .ats then s.atsAsk G.core ten g r.2.1 how else s) s) :=
    fun rs => h.foldl fun _ _ ht => MemWf.ite ht.atsAsk ht
  split
  · refine List.foldlRecOn (motive := fun o : State × Bool => MemWf o.1) _ _ (hask _) fun o ho r _ => ?_
    split
    · next t e => exact ho.pendWalk t e
    · exact ho
  split
  · exact hask _
  split
  · exact hask _
  split
  · exact hask _
  · trivial

end Contexts

end Sys2Proof

namespace Sys2Proof

open Machine

/-! ### Fault records, stops and answers -/

section Faults

variable {s : State} {g l tid ten core page n pa va code peer id : Nat}

theorem MemWf.writeRec (h : MemWf s) {r : FRec} : MemWf (s.writeRec ten r) := by
  unfold State.writeRec
  have hput : ∀ (a : Nat) (fs : List (Nat × Nat × Nat)), MemWf (fs.foldl (fun s f => s.wrMem (a + f.1) f.2.1 f.2.2) s) :=
    fun a fs => h.foldl fun _ _ ht => ht.wrMem _ _ _
  dsimp only
  split
  · exact ((hput _ _).modTen _ _).modGroup _ _
  · exact ((hput _ _).modTen _ _).modGroup _ _
  · exact (((hput _ _).modTen _ _).modTeam _ _).putQueue
  · exact (hput _ _).modTen _ _

theorem MemWf.fqFlushN (h : MemWf s) {k : Nat} : MemWf (s.fqFlushN ten k) := by
  induction k generalizing s with
  | zero => exact h
  | succ k ih =>
    unfold State.fqFlushN
    dsimp only
    split
    · exact h
    · exact MemWf.ite (ih (h.modTen _ _).writeRec) h

theorem MemWf.fqFlush (h : MemWf s) : MemWf (s.fqFlush ten) := h.fqFlushN

theorem MemWf.post (h : MemWf s) {r : FRec} : MemWf (s.post ten r) :=
  h.writeRec.ite ((h.modTen _ _).ite (h.modTen _ _))

theorem MemWf.note (h : MemWf s) {info team cr cslot : Nat} : MemWf (s.note ten code info va team cr cslot) := h.post

theorem MemWf.unask (h : MemWf s) : MemWf (s.unask g) := h.of_eq rfl rfl

theorem MemWf.park (h : MemWf s) {stage : Stage} : MemWf (s.park g stage) := (h.modGroup _ _).writeImage

theorem MemWf.haltStop (h : MemWf s) : MemWf (s.haltStop g) := MemWf.ite h.unask.park h

theorem MemWf.finishStop (h : MemWf s) : MemWf (s.finishStop g) := by
  unfold State.finishStop
  dsimp only
  split
  · split
    · exact h
    · exact h.park.post
  · exact h

theorem MemWf.groupFault (h : MemWf s) {f : Flt} : MemWf (s.groupFault g f) := by
  have hstop : ∀ fs : Group → Group, MemWf ((s.unask g).modGroup g fs) := fun _ => h.unask.modGroup _ _
  exact ((hstop _).runOn.haltLaunch.ite (hstop _).runOn).finishStop

theorem MemWf.complete (h : MemWf s) {o : OWord} {ws : List RegWrite} : MemWf (s.complete g o ws) :=
  (h.modGroup _ _).l1Acquire.finishStop

theorem MemWf.takeBack (h : MemWf s) {o : OWord} : MemWf (s.takeBack g o) := h.modGroup _ _

theorem MemWf.takeBackFor (h : MemWf s) {o : OWord} {stay : List Nat} : MemWf (s.takeBackFor g o stay) := h.takeBack.modGroup _ _

theorem MemWf.arrivalTimeout (h : MemWf s) {o : OWord} : MemWf (s.arrivalTimeout g o) := h.takeBack.groupFault

theorem MemWf.expireWaits (h : MemWf s) : MemWf (s.expireWaits g) := h.foldl fun _ _ ht => MemWf.ite ht.arrivalTimeout ht

theorem MemWf.joinEnqueue (h : MemWf s) {team : Nat} {og : Option Nat} : MemWf (s.joinEnqueue ten va team og) := h.modTen _ _

theorem MemWf.setBands (h : MemWf s) {bs : List (List Nat)} : MemWf (s.setBands ten bs) := by
  refine (h.setMem (Cells.foldl_wf (fun m c hm => ?_) _ h.mem)).modTen _ _
  dsimp only
  split
  · exact hm
  · exact Cells.writeN_wf (Cells.clear_wf hm _ _) _ _

theorem MemWf.unqueue (h : MemWf s) : MemWf (s.unqueue l) := h.setBands

theorem MemWf.retire (h : MemWf s) : MemWf (s.retire g) := (h.modGroup _ _).modCore _ _

theorem MemWf.freeCores (h : MemWf s) {life : Life} : MemWf (s.freeCores tid life) := by
  have hg : MemWf ((s.team tid).groups.foldl (fun s g => s.retire g) s) := h.foldl fun _ _ ht => ht.retire
  have hl : MemWf ((s.team tid).leases.foldl (fun s l => s.endLease tid l.id) ((s.team tid).groups.foldl (fun s g => s.retire g) s)) :=
    hg.foldl fun _ _ ht => ht.endLease
  exact hl.of_eq rfl rfl

theorem MemWf.freePages (h : MemWf s) : MemWf (s.freePages tid) := h.of_eq rfl rfl

theorem MemWf.freeTeam (h : MemWf s) {life : Life} : MemWf (s.freeTeam tid life) := h.freeCores.freePages

theorem MemWf.discardTeams (h : MemWf s) {p : Team → Bool} : MemWf (s.discardTeams p) :=
  h.foldl fun _ _ ht => ht.ite (ht.freeTeam.ite (ht.freePages.ite ht))

theorem MemWf.discard (h : MemWf s) {status fcode : Nat} : MemWf (s.discard l status fcode) := (h.discardTeams.modLaunch _ _).unqueue

theorem MemWf.setFroz (h : MemWf s) {b : Bool} : MemWf (s.setFroz ten b) := h.modTen _ _

theorem MemWf.voidRecs (h : MemWf s) {p : FRec → Bool} : MemWf (s.voidRecs ten p) := (h.foldl fun _ _ ht => ht.wrMem _ _ _).modTen _ _

theorem MemWf.uncontained (h : MemWf s) : MemWf (s.uncontained ten code) := by
  unfold State.uncontained
  extract_lets s1 s2 s3 s4 s5
  have h1 : MemWf s1 := h.setFroz
  have h2 : MemWf s2 := h1.of_eq rfl rfl
  have h4 : MemWf s4 := h2.discardTeams.voidRecs.setBands
  have h5 : MemWf s5 := h4.of_eq rfl rfl
  exact h5.ite h5.post

theorem MemWf.uncontain (h : MemWf s) {d : Bool} : MemWf (s.uncontain ten code d) := h.uncontained.countErr

theorem MemWf.resumeGroup (h : MemWf s) : MemWf (s.resumeGroup g) := h.uncontain.ite (h.readImage.modGroup _ _)

theorem MemWf.answerGroup (h : MemWf s) {action : Nat} : MemWf (s.answerGroup g action) := by
  unfold State.answerGroup
  dsimp only
  split
  · exact h
  split
  · exact (h.modGroup _ _).post
  · exact (h.modGroup _ _).resumeGroup.ite ((h.modGroup _ _).modGroup _ _)

theorem MemWf.wake (h : MemWf s) : MemWf (s.wake tid) := h.foldl fun _ _ ht => ht.resumeGroup.ite ht

theorem MemWf.unhalt (h : MemWf s) : MemWf (s.unhalt l) := (h.modLaunch _ _).foldl fun _ _ ht => ht.setLife.wake.ite ht

theorem MemWf.answerQueue (h : MemWf s) {q action : Nat} : MemWf (s.answerQueue tid q action) := (h.modTeam _ _).putQueue

theorem MemWf.answer (h : MemWf s) {action : Nat} : MemWf (s.answer ten n action) := by
  unfold State.answer
  split
  · exact h
  have hs : ∀ f : Tenancy → Tenancy, MemWf ((s.wrMem (s.fqSlot ten n + 10) 1 1).modTen ten f) := fun _ => (h.wrMem _ _ _).modTen _ _
  refine MemWf.fqFlush ?_
  split
  · exact (hs _).discard.ite (hs _).answerGroup
  · exact (hs _).discard.ite (hs _).answerGroup.unhalt
  · exact (hs _).discard.ite (hs _).answerQueue
  · exact hs _

theorem MemWf.fetch (h : MemWf s) {pc : Word} : (s.fetch g pc).Wf := by
  unfold State.fetch
  dsimp only
  split
  · exact h
  split
  · exact h
  split
  · next e => exact h.xlateAll.wait e
  · next e => exact h.xlateAll.fault e
  split
  · exact h
  split
  · exact h
  split
  · exact h
  split
  · exact h
  split
  · trivial
  · exact h

end Faults

end Sys2Proof

namespace Sys2Proof

open Machine Host

/-! ## A word that issues -/

section Issue

variable {s : State} {x : Ctx} {i : Instr} {c : Ctl} {g tid ten core : Nat}

theorem MemWf.issueDone (h : MemWf s) : MemWf (issueDone x s) := h.modGroup _ _
theorem MemWf.goOn (h : MemWf s) : MemWf (goOn x s) := h.modGroup _ _
theorem MemWf.addWord (h : MemWf s) {o : OWord} : MemWf (addWord x o s) := h.modGroup _ _
theorem MemWf.addFixed (h : MemWf s) {rs : List (Nat × List RegName × List RegWrite)} : MemWf (addFixed x rs s) := h.modGroup _ _
theorem MemWf.backOut (h : MemWf s) {G : Group} : MemWf (s.backOut g G) := h.modGroup _ _
theorem MemWf.stallAt (h : MemWf s) {G : Group} {pc : Word} {w : Wait} {b : Bool} : MemWf (stallAt g G pc w b s) := h.modGroup _ _

theorem MemWf.finish (hx : MemWf x.s) {G : Group} {r : Res} (hr : r.Wf) : MemWf (finish x G r) := by
  cases r with
  | fixed rs => exact hx.addFixed.goOn.issueDone
  | go s => exact MemWf.issueDone (MemWf.goOn hr)
  | yield s => exact MemWf.issueDone (MemWf.goOn hr)
  | jump s => exact MemWf.issueDone (MemWf.modGroup hr _ _)
  | out s o => exact MemWf.issueDone (MemWf.goOn (MemWf.addWord hr))
  | hold s o => exact MemWf.issueDone (MemWf.addWord hr)
  | trap s c l va i => exact MemWf.groupFault (MemWf.backOut hr)
  | trapF s f => exact MemWf.groupFault (MemWf.backOut hr)
  | stall s w b => exact MemWf.stallAt hr

theorem OutcomeWf.next (h : MemWf s) : OutcomeWf (.next s) := by rintro t ⟨⟩; exact h
theorem OutcomeWf.fault {r : Fault} : OutcomeWf (.fault r) := by rintro t ⟨⟩
theorem OutcomeWf.refused {r : Refusal} : OutcomeWf (.refused r) := by rintro t ⟨⟩

/-- The shared operation of every word that issues: only what the word's own meaning answers is left to show. -/
theorem MemWf.word (h : MemWf s) {k : Ctx → Res} (hk : ∀ x : Ctx, MemWf x.s → (k x).Wf) : OutcomeWf (word i c k s) := by
  unfold Machine.word
  dsimp only
  split
  · exact .fault
  split
  · exact .fault
  split
  · exact .fault
  split
  · exact .next (h.modGroup _ _).stallAt
  split
  · exact .next (h.modGroup _ _).backOut.groupFault
  · exact .next (MemWf.finish (h.modGroup _ _) (hk _ (h.modGroup _ _)))

/-- A word with a fixed latency writes registers and may fault; it answers no state of its own. -/
theorem MemWf.fixedWord (h : MemWf s) {k : Comp} : OutcomeWf (fixedWord i c s k) := by
  refine h.word fun x hx => ?_
  split
  · trivial
  · exact hx

theorem MemWf.groupWide (h : MemWf s) {k : Ctx → Res} (hk : ∀ x : Ctx, MemWf x.s → (k x).Wf) : OutcomeWf (groupWide i c s k) := by
  refine h.word fun x hx => ?_
  split
  · exact hx
  · exact hk x hx

theorem MemWf.event (h : MemWf s) {r : Option State} (hr : OptionWf r) : OutcomeWf (event s r) := by
  cases r with
  | none => exact .next h
  | some t => exact .next (hr t rfl)

theorem OptionWf.none : OptionWf none := by rintro t ⟨⟩
theorem OptionWf.some (h : MemWf s) : OptionWf (some s) := by rintro t ⟨⟩; exact h

theorem OptionWf.ite {p : Prop} [Decidable p] {a b : Option State} (ha : OptionWf a) (hb : OptionWf b) : OptionWf (if p then a else b) := by
  split
  · exact ha
  · exact hb

theorem OptionWf.bind {α : Type} {o : Option α} {f : α → Option State} (hf : ∀ a, OptionWf (f a)) : OptionWf (o.bind f) := by
  cases o with
  | none => exact .none
  | some a => exact hf a

theorem OptionWf.map {α : Type} {o : Option α} {f : α → State} (hf : ∀ a, MemWf (f a)) : OptionWf (o.map f) := by
  cases o with
  | none => exact .none
  | some a => exact .some (hf a)

theorem MemWf.onWait (h : MemWf s) {id : Nat} {k : OWord → Option State} (hk : ∀ o, OptionWf (k o)) : OutcomeWf (onWait s g id k) :=
  h.event (OptionWf.ite (.bind hk) .none)

/-! ### Releases, accesses and messages -/

theorem Machine.Res.Wf.ite {p : Prop} [Decidable p] {a b : Res} (ha : a.Wf) (hb : b.Wf) : (if p then a else b).Wf := by
  split
  · exact ha
  · exact hb

theorem MemWf.relUpTo (h : MemWf s) {scope : Nat} {old : Nat → Bool} : (s.relUpTo g scope old).Wf := by
  unfold State.relUpTo
  dsimp only
  split
  · split
    · exact h.of_eq rfl rfl
    · exact h
  · split <;> trivial

theorem MemWf.relCheck (h : MemWf s) {scope : Nat} : (s.relCheck g scope).Wf := h.relUpTo

theorem MemWf.fenced (hx : MemWf x.s) {k : Res} (hk : k.Wf) : (x.fenced k).Wf := by
  unfold Ctx.fenced
  split
  · exact hk
  split
  · exact hk
  · exact hx
  · next e => exact hx.relUpTo.dead e
  · next e => exact hx.relUpTo.refused e

theorem MemWf.released (hx : MemWf x.s) {scope : Nat} {k : Res} (hk : k.Wf) : (x.released scope k).Wf := by
  unfold Ctx.released
  split
  · exact hk
  · exact hx
  · next e => exact hx.relCheck.dead e
  · next e => exact hx.relCheck.refused e

theorem MemWf.releasedAll (hx : MemWf x.s) {scope : Nat} {k : Res} (hk : k.Wf) : (x.releasedAll scope k).Wf :=
  Res.Wf.ite hx (hx.released hk)

theorem MemWf.relThen (hx : MemWf x.s) {scope : Nat} {un : Bool} {k : Res} (hk : k.Wf) : (x.relThen scope un k).Wf :=
  hk.ite ((hx.fenced hk).ite (hx.released hk))

theorem MemWf.access (hx : MemWf x.s) {how : How} {reqs : List (Nat × Nat)} {k : List XLine → Res} (hk : ∀ ls, (k ls).Wf) :
    (x.access how reqs k).Wf := by
  unfold Ctx.access
  split
  · next e => exact hx.xlateAll.fault e
  · next e => exact hx.xlateAll.wait e
  · exact Res.Wf.ite hx (hk _)

theorem MemWf.forwardTo (h : MemWf s) {kind : SentKind} {team word peer pa va bytes : Nat} {cnt : Bool} {op : RemoteOp} :
    MemWf (s.forwardTo kind ten team g word peer pa va bytes cnt op).2 := by
  unfold State.forwardTo
  extract_lets src q s1
  have h1 : MemWf s1 := h.of_eq rfl rfl
  exact h1.ite (h1.emit _)

theorem MemWf.forget (h : MemWf s) {kind : SentKind} {who : Nat} : MemWf (s.forget kind who) := h.of_eq rfl rfl

theorem MemWf.askLine (h : MemWf s) {kind : SentKind} {team who word peer pa va : Nat} {cnt : Bool} :
    MemWf (s.askLine kind ten team who word peer pa va cnt) := h.forwardTo

theorem MemWf.sendWord (h : MemWf s) {G : Group} {o : OWord} : MemWf (s.sendWord g G o).2 := by
  refine h.foldl_snd fun r m hr => ?_
  dsimp only
  split
  · exact hr.forwardTo
  · exact hr

theorem MemWf.outWord (hx : MemWf x.s) {o : OWord} : (x.outWord o).Wf := Res.Wf.ite hx hx.sendWord

theorem MemWf.sendHeld (h : MemWf s) : MemWf (s.sendHeld g) := by
  refine h.foldl fun t o ht => ?_
  dsimp only
  split
  · exact ht
  · exact ht.sendWord.modGroup _ _

theorem MemWf.storeOut (hx : MemWf x.s) {as : List Acc} : (x.storeOut as).Wf := hx.outWord

theorem MemWf.lateFault (h : MemWf s) {o : OWord} {lane va : Nat} : MemWf (s.lateFault g o lane va) := by
  unfold State.lateFault
  extract_lets s1
  have h1 : MemWf s1 := h.of_eq rfl rfl
  exact h1.takeBackFor.groupFault

end Issue

end Sys2Proof

namespace Sys2Proof

open Machine Host

/-! ## Buffer records, loads, stores and atomics -/

section Accesses

variable {s : State} {x : Ctx} {c : Ctl} {g core word : Nat}

theorem MemWf.setRec (hx : MemWf x.s) {d code v : Nat} {a : BitVec 7} : (x.setRec d a code v).Wf := by
  unfold Ctx.setRec
  split
  · exact hx
  · exact hx.modGroup _ _

theorem MemWf.execBrecSet (h : MemWf s) {f : F64} : OutcomeWf (execBrecSet c f s) := h.groupWide fun _ hx => hx.setRec
theorem MemWf.execBrecx (h : MemWf s) {f : W128} : OutcomeWf (execBrecx c f s) := h.groupWide fun _ hx => hx.setRec

theorem MemWf.execBrecGet (h : MemWf s) {f : F64} : OutcomeWf (execBrecGet c f s) := by
  refine h.groupWide fun x hx => ?_
  split
  · exact hx
  · exact hx.modGroup _ _

theorem MemWf.execBchk (h : MemWf s) {f : F64} : OutcomeWf (execBchk c f s) :=
  h.word fun _ hx => Res.Wf.ite hx (Res.Wf.ite hx (hx.modGroup _ _))

theorem MemWf.execLd (h : MemWf s) {f : M96} : OutcomeWf (execLd c f s) := by
  refine h.word fun x hx => Res.Wf.ite hx ?_
  split
  · exact hx
  · exact hx.access fun _ => hx.outWord

theorem MemWf.execSt (h : MemWf s) {f : M96} : OutcomeWf (execSt c f s) := by
  refine h.word fun x hx => Res.Wf.ite hx ?_
  split
  · exact hx
  · exact hx.access fun _ => hx.relThen hx.storeOut

/-! ### Assembled lines -/

theorem MemWf.fetchAcc (h : MemWf s) {keys : List Nat} {bs : List Byte} {cls : Nat} {a : Acc} : MemWf (s.fetchAcc keys bs cls a).2 := by
  unfold State.fetchAcc
  split
  · exact h.touch _ _ _
  · exact h
  · exact h

theorem MemWf.fetchPlanes (h : MemWf s) {keys : List Nat} {bs bytes : List Byte} {r : AsmReq} {p k : Nat} :
    MemWf (s.fetchPlanes keys bs r p k bytes).2 := h.foldl_snd fun _ _ hr => hr.fetchAcc

theorem MemWf.asmGet (h : MemWf s) {keys : List Nat} {bs : List Byte} {r : AsmReq} {k : Nat} {fresh : Bool} :
    MemWf (s.asmGet core keys bs r k fresh).2 := by
  unfold State.asmGet
  dsimp only
  split
  · split
    · exact h
    · have hold : ∀ l : AsmLine, MemWf (if (r.cached && !fresh) = true then (l.exps, s) else s.fetchAcc keys bs 0 r.exp).2 := fun l => by
        split
        · exact h
        · exact h.fetchAcc
      exact ((hold _).fetchPlanes.modCore _ _).ite (((hold _).fetchPlanes.modCore _ _).ite (hold _).fetchPlanes)
  · exact (h.fetchAcc.fetchPlanes.modCore _ _).ite h.fetchAcc.fetchPlanes

theorem MemWf.asmRefine (h : MemWf s) {keys : List Nat} {bs : List Byte} {r : AsmReq} {p k : Nat} {fresh : Bool} :
    MemWf (s.asmRefine core keys bs r p k fresh).2 := h.fetchPlanes.modCore _ _

theorem MemWf.planeLoad (hx : MemWf x.s) {f : M96} {refine : Bool} : (x.planeLoad f refine).Wf := by
  unfold Ctx.planeLoad
  dsimp only
  refine Res.Wf.ite hx ?_
  split
  · exact hx
  · exact Res.Wf.ite hx (hx.access fun _ => hx.outWord)

theorem MemWf.execLdpl (h : MemWf s) {f : M96} : OutcomeWf (execLdpl c f s) := h.word fun _ hx => hx.planeLoad
theorem MemWf.execLdrf (h : MemWf s) {f : M96} : OutcomeWf (execLdrf c f s) := h.word fun _ hx => hx.planeLoad

theorem MemWf.execStpl (h : MemWf s) {f : M96} : OutcomeWf (execStpl c f s) := by
  refine h.word fun x hx => Res.Wf.ite hx ?_
  split
  · exact hx
  · exact hx.access fun _ => hx.relThen hx.storeOut

/-! ### What an access does at its home -/

theorem MemWf.atomHome (h : MemWf s) {k : Option Nat} {own : Owner} {pa n : Nat} {new : Nat → Nat} :
    MemWf (s.atomHome k own pa n new).2 := by
  have ht : MemWf (match own with | .here => s.touch pa 0 true | _ => s) := by
    cases own with
    | here => exact h.touch _ _ _
    | host | peer => exact h
  unfold State.atomHome
  dsimp only
  split
  · exact (ht.homeWrite _ _ _).l1Atomic
  · exact ht.homeWrite _ _ _

theorem MemWf.atomAcc (h : MemWf s) {op ty d : Nat} {ret : Bool} {a : Acc} : MemWf (s.atomAcc core op ty ret d a).2 := by
  unfold State.atomAcc
  extract_lets r
  exact (h.atomHome : MemWf r.2)

theorem MemWf.storeAcc (h : MemWf s) {a : Acc} : MemWf (s.storeAcc core a) := by
  unfold State.storeAcc
  cases a.own with
  | here => exact ((h.touch _ _ _).homeWrite _ _ _).l1Store
  | host => exact (h.homeWrite _ _ _).l1Store
  | peer => exact h

theorem MemWf.performBatch (h : MemWf s) {o : OWord} {b : List Acc} {bs : List Byte} : MemWf (s.performBatch g o b bs).2.2 := by
  unfold State.performBatch
  dsimp only
  split
  · exact h.foldl_snd fun _ _ hr => hr.l1Read
  · refine h.foldl_snd fun r q hr => ?_
    split
    · exact hr.asmRefine
    · exact hr.asmGet
  · refine h.foldl_snd fun r a hr => ?_
    split
    · exact hr
    · dsimp only
      exact hr.atomAcc
  · exact h.joinEnqueue.ite h
  · exact h.foldl fun _ _ ht => ht.storeAcc
  · exact h
  · exact h
  · exact h

theorem MemWf.afterBatch (h : MemWf s) {o : OWord} {rest : OKind} {ws : List RegWrite} : MemWf (s.afterBatch g o rest ws) :=
  h.complete.ite ((h.l1Acquire.ite h).modGroup _ _)

theorem MemWf.fillLost (h : MemWf s) {k : OKind} {b : List Acc} {bs : List Byte} : MemWf (s.fillLost k b bs).2 := by
  refine h.foldl_snd fun r i hr => ?_
  split
  · exact hr.freeBytes
  · exact hr

theorem MemWf.landBatch (h : MemWf s) {o : OWord} {b : List Acc} {bs : List Byte} : MemWf (s.landBatch g o b bs) := by
  unfold State.landBatch
  split
  · exact h.lateFault
  · have hl : MemWf (if b.any s.lostAcc then s.fillLost o.kind b bs else (bs, s)).2 := by
      split
      · exact h.fillLost
      · exact h
    revert hl
    generalize (if b.any s.lostAcc then s.fillLost o.kind b bs else (bs, s)) = p
    obtain ⟨bs', s'⟩ := p
    intro hl
    dsimp only
    have hp : MemWf (s'.performBatch g o b bs').2.2 := hl.performBatch
    exact hp.setSent.afterBatch

theorem MemWf.execLoadDataLand (h : MemWf s) {bs : List Byte} : OutcomeWf (execLoadDataLand g word bs s) := by
  refine h.event (.bind fun o => .bind fun b => ?_)
  split
  · exact .some h.lateFault
  · exact OptionWf.ite (.some h.landBatch) .none

theorem MemWf.execStoreAck (h : MemWf s) : OutcomeWf (execStoreAck g word s) := by
  refine h.event (.bind fun o => ?_)
  split
  · exact .bind fun b => OptionWf.ite (.some h.performBatch.afterBatch) .none
  · exact .none

theorem MemWf.execMemUncorrectableLate (h : MemWf s) {va : Word} : OutcomeWf (execMemUncorrectableLate g word va s) := by
  refine h.event (.bind fun o => ?_)
  split
  · exact .some h.lateFault
  · exact .map fun _ => h.lateFault
  · exact .map fun _ => h.lateFault
  · exact .map fun _ => h.lateFault
  · exact .map fun _ => h.lateFault
  · exact .some h.lateFault
  · exact .some h.lateFault
  · exact .none

/-! ### Prefetch, fences and atomics -/

theorem MemWf.prefWalks (hx : MemWf x.s) {vas : List Nat} : OptionWf (x.prefWalks vas) := by
  refine List.foldlRecOn (motive := OptionWf) vas _ (.some hx) fun o ho va _ => ?_
  rintro t e
  obtain ⟨s, rfl, e'⟩ := Option.bind_eq_some_iff.mp e
  have hs := ho s rfl
  split at e'
  · cases e'; exact hs
  · exact hs.pendWalk t e'

theorem MemWf.prefLinear (h : MemWf s) {l2 : Bool} {va : Nat} : MemWf (x.prefLinear l2 s va) := by
  unfold Ctx.prefLinear
  split
  · exact h
  · exact (h.touch _ _ _).ite h.l1Read

theorem MemWf.prefPlane (h : MemWf s) {l2 : Bool} {r k e : Nat} : MemWf (x.prefPlane l2 r k s e) := by
  unfold Ctx.prefPlane
  dsimp only
  split
  · exact h
  split
  · exact h.foldl fun _ _ ht => ht.touch _ _ _
  split
  · exact h
  · exact h.asmGet

theorem MemWf.execPref (h : MemWf s) {f : M96} : OutcomeWf (execPref c f s) := by
  refine h.word fun x hx => Res.Wf.ite hx (Res.Wf.ite hx ?_)
  split
  · exact hx
  · next t e =>
    have ht := hx.prefWalks t e
    exact Res.Wf.ite (MemWf.foldl ht fun _ _ hu => hu.prefPlane) (MemWf.foldl ht fun _ _ hu => hu.prefLinear)

theorem MemWf.execFenceAr (h : MemWf s) {f : F64} : OutcomeWf (execFenceAr c f s) := h.groupWide fun _ hx => hx.released hx.l1Acquire

theorem MemWf.execFenceAcq (h : MemWf s) {f : F64} : OutcomeWf (execFenceAcq c f s) := h.groupWide fun _ hx => Res.Wf.ite hx.l1Acquire hx

theorem MemWf.execFenceRel (h : MemWf s) {f : F64} : OutcomeWf (execFenceRel c f s) := by
  refine h.groupWide fun x hx => ?_
  split
  · exact Res.Wf.ite hx (hx.modGroup _ _)
  · exact hx.released (hx.modGroup _ _)

theorem MemWf.execFenceSysAll (h : MemWf s) {f : F64} : OutcomeWf (execFenceSysAll c f s) := h.groupWide fun _ hx => hx.releasedAll hx.l1All

theorem MemWf.execAtom (h : MemWf s) {f : M96} : OutcomeWf (execAtom c f s) := by
  refine h.word fun x hx => Res.Wf.ite hx ?_
  split
  · exact hx
  refine hx.access fun ls => Res.Wf.ite hx (hx.relThen ?_)
  split
  · exact hx
  extract_lets now later known r
  have hr : MemWf r.2 := hx.foldl_snd fun t a ht => by dsimp only; exact ht.atomAcc
  exact Res.Wf.ite (MemWf.outWord (x := { x with s := r.2 }) hr) (Res.Wf.ite hr hr.l1Acquire)

theorem ufcRead_wf {ds : List RegName} {ws : List RegWrite} : (ufcRead x ds ws).Wf := Res.Wf.ite trivial trivial

theorem MemWf.execUfc (h : MemWf s) {f : F64} : OutcomeWf (execUfc c f s) := h.word fun _ _ => ufcRead_wf
theorem MemWf.execUfcClr (h : MemWf s) {f : F64} : OutcomeWf (execUfcClr c f s) := h.word fun _ _ => ufcRead_wf

end Accesses

end Sys2Proof

namespace Sys2Proof

open Machine Host

/-! ## The scratchpad -/

section Scratchpad

variable {s : State} {x : Ctx} {c : Ctl} {g core tid word : Nat}

theorem OptionWf.getD {o : Option State} (ho : OptionWf o) (h : MemWf s) : MemWf (o.getD s) := by
  cases o with
  | none => exact h
  | some t => exact ho t rfl

/-- A fold whose value has a state as its first part. -/
theorem MemWf.foldl_fst {α β : Type} {f : State × β → α → State × β} {l : List α} {b : β} (h : MemWf s)
    (hf : ∀ r a, MemWf r.1 → MemWf (f r a).1) : MemWf (l.foldl f (s, b)).1 :=
  List.foldlRecOn (motive := fun r => MemWf r.1) l f h fun r hr a _ => hf r a hr

theorem MemWf.bring (h : MemWf s) {pages : List Nat} : (s.bring core tid pages).Wf := by
  refine List.foldlRecOn (motive := SpRes.Wf) pages _ h fun r hr p _ => ?_
  split
  · next t u =>
    have ht : MemWf (t.stbFill core tid p) := MemWf.stbFill hr
    dsimp only
    split
    · next e => exact ht.fillPage.ok e
    · exact ht
    · exact ht
  · exact hr

theorem MemWf.bringRead (h : MemWf s) {rs : List (Nat × Nat)} : (s.bringRead core tid rs).Wf := by
  unfold State.bringRead
  split
  · next e =>
    split
    · exact h.bring.ok e
    · exact h.bring.ok e
  · exact h.bring

theorem MemWf.spRoundsFrom {β : Type} {reads : State → SAcc → Bool} {f : State → β → SAcc → State × β}
    (hf : ∀ s b a, MemWf s → MemWf (f s b a).1) {n : Nat} {s0 : Option State} {b : β} {as : List SAcc} (h0 : OptionWf s0) (h : MemWf s) :
    (spRoundsFrom s0 core tid reads f n s b as).Wf := by
  induction n generalizing s0 s b as with
  | zero => exact h
  | succ n ih =>
    unfold Machine.spRoundsFrom
    split
    · exact h
    dsimp only
    split
    · next e =>
      have h1 := h.bring.ok e
      split
      · exact h0.getD h1
      · exact ih (.some (h0.getD h)) (h1.foldl_fst fun r a hr => hf _ _ _ hr)
    · next e => exact h0.getD (h.bring.starve e)
    · next e => exact h0.getD (h.bring.bad e)

theorem MemWf.spRounds {β : Type} {reads : State → SAcc → Bool} {f : State → β → SAcc → State × β} (h : MemWf s)
    (hf : ∀ s b a, MemWf s → MemWf (f s b a).1) {n : Nat} {b : β} {as : List SAcc} : (spRounds core tid reads f n s b as).Wf :=
  spRoundsFrom hf .none h

theorem MemWf.starve (h : MemWf s) {ps : List Nat} : (x.starve s ps).Wf := h.modGroup _ _

theorem MemWf.feTry (h : MemWf s) {sz d : Nat} {take : Bool} {b : List RegWrite × List SAcc} {a : SAcc} :
    MemWf (feTry tid sz d take s b a).1 := by
  unfold Machine.feTry
  split
  · exact MemWf.ite (h.feSet _ _ _) h
  · exact h

theorem MemWf.spLoad (hx : MemWf x.s) {f : M96} {own : Bool} : (x.spLoad f own).Wf := by
  unfold Ctx.spLoad
  dsimp only
  refine Res.Wf.ite hx ?_
  split
  · exact hx
  refine Res.Wf.ite hx (Res.Wf.ite ?_ ?_)
  · split
    · next e => exact (hx.spRounds fun _ _ _ hs => hs).ok e
    · next e => exact ((hx.spRounds fun _ _ _ hs => hs).starve e).starve
    · next e => exact (hx.spRounds fun _ _ _ hs => hs).bad e
  · split
    · exact hx
    split
    · next e =>
      have hs := (hx.spRounds fun _ _ _ hs => hs.feTry).ok e
      exact Res.Wf.ite hs (hs.modGroup _ _)
    · next e => exact ((hx.spRounds fun _ _ _ hs => hs.feTry).starve e).starve
    · next e => exact (hx.spRounds fun _ _ _ hs => hs.feTry).bad e

theorem MemWf.spStore (hx : MemWf x.s) {f : M96} {own : Bool} : (x.spStore f own).Wf := by
  unfold Ctx.spStore
  dsimp only
  refine Res.Wf.ite hx ?_
  split
  · exact hx
  refine Res.Wf.ite hx (hx.relThen ?_)
  split
  · next e => exact (hx.spRounds fun _ _ _ hs => ((hs.spWrite _ _ _).feSet _ _ _).ite (hs.spWrite _ _ _)).ok e
  · next e => exact ((hx.spRounds fun _ _ _ hs => ((hs.spWrite _ _ _).feSet _ _ _).ite (hs.spWrite _ _ _)).starve e).starve
  · next e => exact (hx.spRounds fun _ _ _ hs => ((hs.spWrite _ _ _).feSet _ _ _).ite (hs.spWrite _ _ _)).bad e

theorem MemWf.execLds (h : MemWf s) {f : M96} : OutcomeWf (execLds c f s) := h.word fun _ hx => hx.spLoad
theorem MemWf.execLdsr (h : MemWf s) {f : M96} : OutcomeWf (execLdsr c f s) := h.word fun _ hx => hx.spLoad
theorem MemWf.execSts (h : MemWf s) {f : M96} : OutcomeWf (execSts c f s) := h.word fun _ hx => hx.spStore
theorem MemWf.execStsr (h : MemWf s) {f : M96} : OutcomeWf (execStsr c f s) := h.word fun _ hx => hx.spStore

theorem MemWf.execAtoms (h : MemWf s) {f : M96} : OutcomeWf (execAtoms c f s) := by
  refine h.word fun x hx => Res.Wf.ite hx ?_
  split
  · exact hx
  refine Res.Wf.ite hx (hx.relThen ?_)
  split
  · next e =>
    have hs := (hx.spRounds fun _ _ _ hs => hs.spWrite _ _ _).ok e
    exact Res.Wf.ite hs hs.l1Acquire
  · next e => exact ((hx.spRounds fun _ _ _ hs => hs.spWrite _ _ _).starve e).starve
  · next e => exact (hx.spRounds fun _ _ _ hs => hs.spWrite _ _ _).bad e

theorem MemWf.feTest (h : MemWf s) {pend : List Nat} : (s.feTest core tid pend).Wf := h.spRounds fun _ _ _ hs => hs

theorem MemWf.execFeWait (h : MemWf s) {f : M96} : OutcomeWf (execFeWait c f s) := by
  refine h.groupWide fun x hx => ?_
  dsimp only
  refine Res.Wf.ite hx (Res.Wf.ite hx ?_)
  split
  · exact hx
  refine Res.Wf.ite hx ?_
  split
  · next e => exact hx.feTest.ok e
  · next e => exact hx.feTest.ok e
  · next e => exact (hx.feTest.starve e).starve
  · next e => exact hx.feTest.bad e

theorem MemWf.starveWait (h : MemWf s) {pages : List Nat} : MemWf (s.starveWait g pages) := h.modGroup _ _

theorem MemWf.starveNew (h : MemWf s) {s0 : State} {pages : List Nat} : OptionWf (s0.starveNew s g pages) :=
  OptionWf.ite .none (.some h.starveWait)

theorem MemWf.queueFaultWait (h : MemWf s) {o : OWord} {stay : List Nat} {lane q code : Nat} :
    MemWf (s.queueFaultWait g o stay lane q code) := h.takeBackFor.groupFault

theorem MemWf.acceptTile (h : MemWf s) {pc : Word} {tile : Nat} {op : TOp} : MemWf (s.acceptTile g word pc tile op) := h.modCore _ _

theorem MemWf.tileFeTest (h : MemWf s) {pend : List Nat} {got : List (Nat × List Byte)} : (s.tileFeTest core tid pend got).Wf :=
  h.spRounds fun _ _ _ hs => hs

theorem MemWf.execFeLaneAttempt (h : MemWf s) : OutcomeWf (execFeLaneAttempt g word s) := by
  refine h.onWait fun o => ?_
  split
  · dsimp only
    split
    · exact .some h.queueFaultWait
    split
    · next e =>
      have ht := (h.spRounds fun _ _ _ hs => hs.feTry).ok e
      exact OptionWf.ite (.some ht.complete) (OptionWf.ite .none (.some (ht.modGroup _ _)))
    · next e => exact ((h.spRounds fun _ _ _ hs => hs.feTry).starve e).starveNew
    · next e => exact .some ((h.spRounds fun _ _ _ hs => hs.feTry).bad e).lateFault
  · dsimp only
    split
    · exact .some h.queueFaultWait
    split
    · next e =>
      have ht := h.tileFeTest.ok e
      exact OptionWf.ite .none (OptionWf.ite (.some (ht.modGroup _ _).acceptTile) (OptionWf.ite .none (.some (ht.modGroup _ _))))
    · next e => exact (h.tileFeTest.starve e).starveNew
    · next e => exact .some (h.tileFeTest.bad e).lateFault
  · exact .none

theorem MemWf.execFeWaitSatisfy (h : MemWf s) : OutcomeWf (execFeWaitSatisfy g word s) := by
  refine h.onWait fun o => ?_
  split
  · dsimp only
    split
    · exact .some h.queueFaultWait
    split
    · next e =>
      have ht := h.feTest.ok e
      exact OptionWf.ite (.some ht.complete) (OptionWf.ite .none (.some (ht.modGroup _ _)))
    · next e => exact (h.feTest.starve e).starveNew
    · next e => exact .some (h.feTest.bad e).lateFault
  · exact .none

/-! ### Pinned pages and page fills -/

theorem MemWf.execSpin (h : MemWf s) {f : F64} : OutcomeWf (execSpin c f s) := by
  refine h.groupWide fun x hx => ?_
  dsimp only
  split
  · exact hx
  refine Res.Wf.ite hx (Res.Wf.ite hx ?_)
  split
  · next e => exact MemWf.foldl (hx.bring.ok e) fun _ _ ht => ht.l0Mod _ _ _
  · next e => exact (hx.bring.starve e).starve
  · next e => exact hx.bring.bad e

theorem MemWf.execSunpin (h : MemWf s) {f : F64} : OutcomeWf (execSunpin c f s) := by
  refine h.groupWide fun x hx => ?_
  split
  · exact hx
  · exact hx.foldl fun _ _ ht => ht.l0Mod _ _ _

theorem MemWf.unpinned (h : MemWf s) {page : Nat} : MemWf (s.unpinned tid page) := h.modTeam _ _

theorem MemWf.execPageFill (h : MemWf s) {page : Nat} : OutcomeWf (execPageFill tid page s) := by
  refine h.event (OptionWf.ite ?_ .none)
  split
  · next e =>
    have ht := h.fillPage.ok e
    exact .some ht.unpinned.setGroups
  · exact OptionWf.ite (.some h.unpinned) .none

theorem MemWf.execSpadStarvedTimeout (h : MemWf s) : OutcomeWf (execSpadStarvedTimeout g s) := by
  refine h.event (OptionWf.ite ?_ .none)
  split
  · exact .some h.groupFault
  · exact .map fun o => (h.modCore _ _).takeBackFor.groupFault

end Scratchpad

/-! ## Engine commands -/

section Commands

variable {s : State} {x : Ctx} {c : Ctl} {g word q : Nat}

theorem MemWf.accept (h : MemWf s) {op : Nat → CmdOp} {addr : Nat} {b : Rec256} {off : Int} {rel : Bool} :
    MemWf (x.accept s q op addr b off rel) := h.modTeam _ _

theorem MemWf.command (hx : MemWf x.s) {chk : Except (Nat × Nat) State} (hc : ∀ t, chk = .ok t → MemWf t) : (x.command q chk).Wf := by
  refine Res.Wf.ite hx (Res.Wf.ite hx ?_)
  split
  · exact hx
  · exact Res.Wf.ite hx (hc _ rfl)

theorem MemWf.dataCmd (hx : MemWf x.s) {w : W128} {kinds : List Nat} {fields : Nat → Bool} {chk : Nat → Int → CmdCheck} {len : Nat → Nat}
    {op : CmdOp} : (x.dataCmd w kinds fields chk len op).Wf := by
  refine hx.command fun t e => ?_
  split at e
  · cases e
  split at e
  · cases e
  · cases e; exact hx.accept

theorem MemWf.execPcopy (h : MemWf s) {w : W128} : OutcomeWf (execPcopy c w s) := h.groupWide fun _ hx => hx.dataCmd
theorem MemWf.execPcopyRf (h : MemWf s) {w : W128} : OutcomeWf (execPcopyRf c w s) := h.groupWide fun _ hx => hx.dataCmd
theorem MemWf.execPstore (h : MemWf s) {w : W128} : OutcomeWf (execPstore c w s) := h.groupWide fun _ hx => hx.dataCmd

theorem MemWf.execPfill (h : MemWf s) {w : W128} : OutcomeWf (execPfill c w s) := by
  refine h.groupWide fun x hx => hx.command fun t e => ?_
  split at e
  · cases e
  · cases e; exact hx.accept

theorem MemWf.execPxform (h : MemWf s) {w : W128} : OutcomeWf (execPxform c w s) := by
  refine h.groupWide fun x hx => hx.command fun t e => ?_
  split at e
  · cases e
  split at e
  · cases e
  · cases e; exact hx.accept

theorem MemWf.execQmark (h : MemWf s) {f : F64} : OutcomeWf (execQmark c f s) := by
  refine h.groupWide fun x hx => hx.command fun t e => ?_
  split at e
  · cases e
  · cases e; exact hx.accept

theorem MemWf.masked (hx : MemWf x.s) {qs : List Nat} {room : Bool} {k : Res} (hk : k.Wf) : (x.masked qs room k).Wf := by
  refine Res.Wf.ite hx (Res.Wf.ite hx ?_)
  split
  · exact hx
  · exact hk

theorem MemWf.execQfence (h : MemWf s) {f : F64} : OutcomeWf (execQfence c f s) :=
  h.groupWide fun _ hx => hx.masked (hx.foldl fun _ _ ht => ht.accept)

theorem MemWf.execQwait (h : MemWf s) {f : F64} : OutcomeWf (execQwait c f s) :=
  h.groupWide fun _ hx => hx.masked (Res.Wf.ite hx.l1Acquire hx)

theorem MemWf.execQwaitSatisfy (h : MemWf s) : OutcomeWf (execQwaitSatisfy g word s) := by
  refine h.onWait fun o => ?_
  split
  · refine OptionWf.ite (.some h.complete) ?_
    split
    · exact .some h.queueFaultWait
    · exact .none
  · exact .none

theorem MemWf.execTokwaitTake (h : MemWf s) : OutcomeWf (execTokwaitTake g word s) := by
  refine h.onWait fun o => ?_
  split
  · exact OptionWf.ite (.some (h.modCore _ _).complete) .none
  · exact .none

end Commands

end Sys2Proof

namespace Sys2Proof

open Machine Host

/-! ## The engines perform their commands

A part of a command answers the next state, or the reason why it goes no further: `EngWf`. -/

/-- A part of a command that answers a state. -/
def EngWf : Except EFail State → Prop := ExceptWf EFail.Wf MemWf

/-- A part of a command that answers a value and a state. -/
def EngWf₂ {α : Type} : Except EFail (α × State) → Prop := ExceptWf EFail.Wf fun p => MemWf p.2

theorem EngWf₂.foldlM {α γ : Type} {f : α × State → γ → Except EFail (α × State)} {l : List γ} {a : α} {s : State} (h : MemWf s)
    (hf : ∀ p c, MemWf p.2 → EngWf₂ (f p c)) : EngWf₂ (l.foldlM f (a, s)) := ExceptWf.foldlM hf l h

section Engines

variable {s : State} {e : Eng} {team q va n : Nat}

theorem MemWf.engLine (h : MemWf s) {how : How} : ExceptWf EFail.Wf (fun _ => True) (e.line s va how) := by
  unfold Eng.line
  split
  · exact h
  split
  · split
    · exact h
    split
    · exact fun _ ht => ht
    · trivial
  · exact h.atsForget
  · exact h
  · exact fun _ ht => ht
  · exact fun _ ht => ht.pendWalk_getD
  · exact fun _ ht => ht.pendWalk_getD
  · exact fun _ ht => ht.atsAsk

theorem MemWf.engRead (h : MemWf s) {cls : Nat} : EngWf₂ (e.read s va n cls) := by
  unfold Eng.read
  split
  · next er => exact h.engLine.error er
  split
  · exact h.touch _ _ _
  · exact h
  split
  · exact h
  · exact h
  · exact fun _ ht => ht
  · exact fun _ ht => ht.askLine

theorem MemWf.engWriteLine (h : MemWf s) {ws : List EngByte} : EngWf (e.writeLine s ws) := by
  unfold Eng.writeLine
  split
  · exact h
  split
  · next er => exact h.engLine.error er
  dsimp only
  split
  · exact h.forwardTo
  · refine MemWf.homeWrite ?_ _ _ _
    split
    · exact h.touch _ _ _
    · exact h

theorem MemWf.engWrites (h : MemWf s) {ws : List EngByte} : EngWf (e.writes s ws) :=
  ExceptWf.foldlM (fun _ _ ht => ht.engWriteLine) _ h

theorem MemWf.engPages (h : MemWf s) {addr : Nat} {rd : Bool} : EngWf (e.pages s addr n rd) := by
  have hb : (if rd = true then s.bringRead (s.portCore (s.team e.tid) addr) e.tid [(addr, n)]
      else s.bring (s.portCore (s.team e.tid) addr) e.tid (pagesOf addr n)).Wf := by
    split
    · exact h.bringRead
    · exact h.bring
  unfold Eng.pages
  dsimp only
  split
  · next er => exact hb.ok er
  · trivial
  · next er => exact hb.bad er

theorem MemWf.engSpGet (h : MemWf s) {addr : Nat} : EngWf₂ (e.spGet s addr n) := h.engPages.map fun _ ht => ht

theorem MemWf.engSpPut (h : MemWf s) {addr : Nat} {bs : List Byte} : EngWf (e.spPut s addr bs) :=
  h.engPages.map fun _ ht => ht.spWriteFull _ _ _

theorem MemWf.engByteAt (h : MemWf s) {o : Int} : EngWf₂ (e.byteAt s o) := by
  unfold Eng.byteAt
  dsimp only
  split
  · exact h.engRead.map fun _ ht => ht
  · exact h

theorem MemWf.engBytesAt (h : MemWf s) {o : Int} : EngWf₂ (e.bytesAt s o n) := by
  unfold Eng.bytesAt
  dsimp only
  split
  · exact h.engRead
  · exact .foldlM h fun p i hp => (MemWf.engByteAt hp).map fun _ ht => ht

theorem MemWf.engExps (h : MemWf s) {o : Int} : EngWf₂ (e.exps s o) := by
  refine .foldlM h fun p b hp => ?_
  dsimp only
  split
  · exact (MemWf.engRead hp).map fun _ ht => ht
  · exact hp

theorem MemWf.engPlanes (h : MemWf s) {o : Int} {p k : Nat} {bs : List Byte} : EngWf₂ (e.planes s o p k bs) := by
  refine .foldlM h fun p j hp => ?_
  split
  · exact hp
  · exact (MemWf.engRead hp).map fun _ ht => ht

theorem MemWf.engPcopy (h : MemWf s) {k u : Nat} : EngWf (e.pcopy n k u s) := by
  unfold Eng.pcopy
  dsimp only
  split
  · exact h.engExps.bind fun ⟨_, _⟩ h1 => (MemWf.engPlanes h1).bind fun ⟨_, _⟩ h2 => MemWf.engSpPut h2
  · exact ExceptWf.foldlM (fun t i ht => ht.engBytesAt.bind fun ⟨_, _⟩ h1 => MemWf.engSpPut h1) _ h

theorem MemWf.engPcopyRf (h : MemWf s) {k u : Nat} : EngWf (e.pcopyRf k u s) := by
  refine h.engSpGet.bind fun ⟨_, _⟩ h1 => ?_
  dsimp only
  split
  · exact h1
  · exact (MemWf.engPlanes h1).bind fun ⟨_, _⟩ h2 => MemWf.engSpPut h2

theorem MemWf.engPstore (h : MemWf s) {k u : Nat} : EngWf (e.pstore n k u s) := by
  unfold Eng.pstore
  dsimp only
  split
  · exact h.engSpGet.bind fun ⟨_, _⟩ h1 => MemWf.engWrites h1
  · exact h.engSpGet.bind fun ⟨_, _⟩ h1 => MemWf.engWrites h1

theorem MemWf.engPfill (h : MemWf s) {v : Lane32} {fe u : Nat} : EngWf (e.pfill v fe u s) :=
  h.engPages.bind fun _ ht => MemWf.ite (ht.spWrite _ _ _) ((ht.spWrite _ _ _).feSet _ _ _)

theorem MemWf.engElemAt (h : MemWf s) {o : Int} : EngWf₂ (e.elemAt s o n) := by
  unfold Eng.elemAt
  split
  · exact h.engBytesAt
  · exact h

theorem MemWf.engSrcBytes (h : MemWf s) {dir i : Nat} : EngWf₂ (e.srcBytes dir s i n) := by
  unfold Eng.srcBytes
  split
  · exact h.engElemAt
  split
  · exact h.engSpGet
  · exact h.engSpGet

theorem MemWf.engSrcElems (h : MemWf s) {dir : Nat} {is : List Nat} : EngWf₂ (e.srcElems dir n is s) :=
  .foldlM h fun _ _ hb => (MemWf.engSrcBytes hb).map fun _ ht => ht

theorem MemWf.engDstElems (h : MemWf s) {dir i : Nat} {vs : List Nat} : EngWf (e.dstElems dir n i vs s) := by
  unfold Eng.dstElems
  split
  · exact h
  split
  · exact h.engSpPut
  · exact h.engWrites

theorem MemWf.engConvert (h : MemWf s) {pol p dir u : Nat} : EngWf (e.convert n pol p dir u s) :=
  h.engSrcElems.bind fun ⟨_, _⟩ h1 => (MemWf.engDstElems h1).bind fun _ ht => ExceptWf.ite ht ht

theorem MemWf.engGather (h : MemWf s) {p u : Nat} : EngWf (e.gather p u s) := by
  refine h.engSpGet.bind fun ⟨_, _⟩ h1 => ?_
  dsimp only
  split
  · exact h1
  split
  · exact h1
  · exact (MemWf.engElemAt h1).bind fun ⟨_, _⟩ h2 => MemWf.engSpPut h2

theorem MemWf.engTranspose (h : MemWf s) {p u : Nat} : EngWf (e.transpose n p u s) :=
  ExceptWf.foldlM (fun _ _ ht => ht.engElemAt.bind fun ⟨_, _⟩ h1 => MemWf.engSpPut h1) _ h

theorem MemWf.engQuantise (h : MemWf s) {pol p dir u : Nat} : EngWf (e.quantise pol p dir u s) := by
  refine h.engSrcElems.bind fun ⟨_, _⟩ h1 => ?_
  dsimp only
  split
  · exact h1
  · exact MemWf.engSpPut h1

theorem MemWf.engInstalled (h : MemWf s) : EngWf (e.installed s) := by
  have hw : EngWf ((Config.routineWrites s.free).foldlM (fun (s : State) (w : Bool × Nat × List Byte) =>
      if w.1 then
        if s.spaceLen (s.team e.tid) < w.2.1 + w.2.2.length then .error (.halt s 0x20 w.2.1) else e.spPut s w.2.1 w.2.2
      else e.writes s (w.2.2.zipIdx.map fun b => (w.2.1 + b.2, 0, 0xFF#8, b.1))) s) := by
    refine ExceptWf.foldlM (fun t w ht => ?_) _ h
    split
    · split
      · exact ht
      · exact ht.engSpPut
    · exact ht.engWrites
  unfold Eng.installed
  split
  · next er => exact (hw.ok er).draw
  · next er => exact MemWf.draw (hw.error er)
  · next er => exact hw.error er

theorem MemWf.engRoutine (h : MemWf s) {rt pol p dir u : Nat} : EngWf (e.routine n rt pol p dir u s) := by
  unfold Eng.routine
  split
  · exact h.engConvert
  split
  · exact h.engGather
  split
  · exact h.engTranspose
  split
  · exact h.engQuantise
  · exact h.engInstalled

/-! ### The queue after a command -/

variable {tid : Nat}

theorem MemWf.popCmd (h : MemWf s) : MemWf (s.popCmd tid q) := h.forget.modTeam _ _

theorem MemWf.modHead (h : MemWf s) {o : Option Nat} {f : Cmd → Cmd} : MemWf (s.modHead tid q o f) := h.modTeam _ _

theorem MemWf.haltQueue (h : MemWf s) {code : Nat} {pc : Word} : MemWf (s.haltQueue tid q code va pc) :=
  (h.forget.modHead.modTeam _ _).putQueue.post

theorem MemWf.closeCmd (h : MemWf s) {c : Cmd} : MemWf (s.closeCmd tid q c) := by
  unfold State.closeCmd
  dsimp only
  split
  · exact h.setSent.haltQueue
  · exact MemWf.ite h.modHead h.popCmd

theorem MemWf.cmdStarves (h : MemWf s) {k page : Nat} {c : Cmd} : MemWf (s.cmdStarves tid q k page c) := MemWf.ite h.haltQueue h.modHead

/-- The parts of a command are performed in order until one goes no further. -/
theorem MemWf.engRun (h : MemWf s) {f : Nat → State → Except EFail State} (hf : ∀ u t, MemWf t → EngWf (f u t)) {k : Nat} :
    MemWf (e.run f n k s).2.1 ∧ ∀ r, (e.run f n k s).2.2 = some r → r.Wf := by
  induction n generalizing k s with
  | zero => exact ⟨h, by rintro r ⟨⟩⟩
  | succ n ih =>
    unfold Eng.run
    have hk := hf k s h
    split
    · next er => exact ih (hk.ok er).forget
    · next er => exact ⟨h, by rintro r ⟨⟩; exact hk.error er⟩

theorem MemWf.performHead (h : MemWf s) {k : Eng → Option (Nat → State → Except EFail State)}
    (hk : ∀ e f, k e = some f → ∀ u t, MemWf t → EngWf (f u t)) : OutcomeWf (performHead tid q s k) := by
  refine h.event (.bind fun c => ?_)
  rintro t e
  obtain ⟨f, hf, rfl⟩ := Option.map_eq_some_iff.mp e
  obtain ⟨hs, hr⟩ := h.engRun (hk _ f hf) (e := ⟨tid, q, c⟩) (n := c.lines - c.pos) (k := c.pos)
  split
  · exact h.haltQueue
  split
  · exact h.closeCmd
  dsimp only
  split
  · exact hs.closeCmd
  · next er => exact MemWf.modHead (hr _ er _ hs)
  · exact hs.cmdStarves
  · next er => exact MemWf.haltQueue (hr _ er)

theorem MemWf.execPcopyPerform (h : MemWf s) : OutcomeWf (execPcopyPerform team q s) := by
  refine h.performHead fun e f hf u t ht => ?_
  split at hf
  · cases hf; exact ht.engPcopy
  · cases hf

theorem MemWf.execPcopyRfPerform (h : MemWf s) : OutcomeWf (execPcopyRfPerform team q s) := by
  refine h.performHead fun e f hf u t ht => ?_
  split at hf
  · cases hf; exact ht.engPcopyRf
  · cases hf

theorem MemWf.execPstorePerform (h : MemWf s) : OutcomeWf (execPstorePerform team q s) := by
  refine h.performHead fun e f hf u t ht => ?_
  split at hf
  · cases hf; exact ht.engPstore
  · cases hf

theorem MemWf.execPfillPerform (h : MemWf s) : OutcomeWf (execPfillPerform team q s) := by
  refine h.performHead fun e f hf u t ht => ?_
  split at hf
  · cases hf; exact ht.engPfill
  · cases hf

theorem MemWf.execQmarkPerform (h : MemWf s) : OutcomeWf (execQmarkPerform team q s) := by
  refine h.performHead fun e f hf u t ht => ?_
  split at hf
  · cases hf; exact ht.engSpPut
  · cases hf

theorem MemWf.execPxformRoutineRun (h : MemWf s) : OutcomeWf (execPxformRoutineRun team q s) := by
  refine h.performHead fun e f hf u t ht => ?_
  split at hf
  · cases hf
    dsimp only
    split
    · exact ht
    split
    · exact ht
    · exact ht.engRoutine
  · cases hf

theorem MemWf.closeFences (h : MemWf s) : MemWf (s.closeFences tid) := by
  refine h.foldl fun t q ht => ?_
  split
  · exact MemWf.ite ht.popCmd ht
  · exact ht

end Engines

end Sys2Proof

namespace Sys2Proof

open Machine Host

/-! ## Sward: launches, teams, joins and completions -/

section Sward

variable {s : State} {x : Ctx} {c : Ctl} {l tid ten core cl n va : Nat}

/-- A result of an access of Sward: a value and a state, or why there is none. -/
def SwWf {α : Type} : Except SFail (α × State) → Prop := ExceptWf SFail.Wf fun p => MemWf p.2

theorem SwWf.foldlM {α γ : Type} {f : α × State → γ → Except SFail (α × State)} {l : List γ} {a : α} (h : MemWf s)
    (hf : ∀ p c, MemWf p.2 → SwWf (f p c)) : SwWf (l.foldlM f (a, s)) := ExceptWf.foldlM hf l h

theorem SwWf.ok {α : Type} {r : Except SFail (α × State)} (h : SwWf r) {a : α} (e : r = .ok (a, s)) : MemWf s := by subst e; exact h
theorem SwWf.error {α : Type} {r : Except SFail (α × State)} (h : SwWf r) {f : SFail} (e : r = .error f) : f.Wf := by subst e; exact h
theorem SwWf.wait {α : Type} {r : Except SFail (α × State)} (h : SwWf r) (e : r = .error (.wait s)) : MemWf s := h.error e
theorem SwWf.fault {α : Type} {r : Except SFail (α × State)} (h : SwWf r) {code : Nat} (e : r = .error (.fault s code va)) : MemWf s :=
  h.error e

theorem MemWf.swWalk (h : MemWf s) : MemWf (s.swWalk ten va) := by
  unfold State.swWalk
  split
  · exact h
  split
  · exact h.walkFill
  · exact h

theorem MemWf.swLine (h : MemWf s) {who : Nat} {b : Bool} {how : How} : SwWf (s.swLine ten who va b how) := by
  unfold State.swLine
  split
  · exact h
  dsimp only
  split
  · split
    · exact h.swWalk
    split
    · exact h.swWalk
    · exact h.swWalk
  · exact h.swWalk.atsForget
  · exact h.swWalk
  · exact h.swWalk
  · exact h.swWalk.atsAsk

theorem MemWf.swRead (h : MemWf s) {who : Nat} : SwWf (s.swRead ten who va n) := by
  unfold State.swRead
  split
  · next e => exact h.swLine.error e
  · next e =>
    have ht := h.swLine.ok e
    split
    · split
      · exact ht
      · exact ht.forget
      · exact ht
      · exact ht.askLine
    · exact ht
    · exact ht.touch _ _ _

theorem MemWf.swRecord (h : MemWf s) {who : Nat} : SwWf (s.swRecord ten who va) := by
  have hb : SwWf ((linePieces va 64).foldlM (fun (b : List Byte × State) p =>
      (b.2.swRead ten who p.1 p.2).map fun g => (b.1 ++ g.1, g.2)) ([], s)) :=
    .foldlM h fun _ _ hp => ExceptWf.map (MemWf.swRead hp) fun _ ht => ht
  exact ExceptWf.map hb fun _ ht => MemWf.forget ht

theorem MemWf.swWrite (h : MemWf s) {who off : Nat} {x : XLine} {bs : List Byte} : MemWf (s.swWrite ten who va x off bs) := by
  unfold State.swWrite
  dsimp only
  split
  · exact h.forwardTo
  · exact h.homeWrite _ _ _
  · exact (h.touch _ _ _).homeWrite _ _ _

/-! ### Submission -/

theorem MemWf.reject (h : MemWf s) {r : CRec} {crva status : Nat} {o : Origin} : MemWf (s.reject ten r crva o status) := h.of_eq rfl rfl

theorem MemWf.readHalf (h : MemWf s) {b : Bool} : MemWf (s.readHalf ten va b).2 := by
  unfold State.readHalf
  split
  · next e => exact (h.swLine.ok e).touch _ _ _
  · exact h

theorem MemWf.readHeader (h : MemWf s) {r : CRec} : MemWf (s.readHeader ten r).2 := by
  unfold State.readHeader
  split
  · exact h
  · exact h.readHalf.readHalf

theorem Machine.SubRes.Wf.ite {p : Prop} [Decidable p] {a b : SubRes} (ha : a.Wf) (hb : b.Wf) : (if p then a else b).Wf := by
  split
  · exact ha
  · exact hb

theorem MemWf.submit (h : MemWf s) {bs : List Byte} {crva : Nat} {o : Origin} {b : Bool} : (s.submit ten bs crva o b).Wf := by
  unfold State.submit
  have hh := h.readHeader (ten := ten) (r := parseRec bs)
  dsimp only
  refine SubRes.Wf.ite h (SubRes.Wf.ite h.reject (SubRes.Wf.ite h.reject (SubRes.Wf.ite h.reject ?_)))
  split
  · next e => rw [e] at hh; exact MemWf.reject hh
  · next e =>
    rw [e] at hh
    refine SubRes.Wf.ite (MemWf.reject hh) (SubRes.Wf.ite (MemWf.reject hh) (SubRes.Wf.ite (SubRes.Wf.ite (MemWf.reject hh) trivial) ?_))
    refine MemWf.modTen (MemWf.setBands ?_) _ _
    exact MemWf.of_eq hh rfl rfl

theorem MemWf.submit_state (h : MemWf s) {r : SubRes} (hr : r.Wf) : MemWf (r.state s) := by
  cases r with
  | done t => exact hr
  | dropped t => exact hr
  | full => exact h

/-! ### Admission -/

theorem MemWf.takeTiles (h : MemWf s) {cores : List Nat} {vals : List (List (List Lane32))} : MemWf (s.takeTiles tid cores n vals) :=
  (h.foldl fun _ _ ht => ht.modCore _ _).modTeam _ _

theorem MemWf.buildSpt (h : MemWf s) : MemWf (s.buildSpt tid) := by
  refine h.setMem (Cells.foldl_wf (fun _ _ hm => Cells.writeLE_wf hm _ _ _) _ ?_)
  exact Cells.foldl_wf (fun _ _ hm => Cells.writeLE_wf hm _ _ _) _ (Cells.clear_wf (Cells.clear_wf h.mem _ _) _ _)

theorem MemWf.unbar (h : MemWf s) {idx : Nat} {b : Bool} : MemWf (s.unbar l idx b) := h.of_eq rfl rfl

theorem MemWf.noteAdmit (h : MemWf s) {idx : Nat} : MemWf (s.noteAdmit l idx) := h.of_eq rfl rfl

theorem MemWf.fitTeam (h : MemWf s) : MemWf (s.fitTeam tid) := h.foldl fun _ _ ht => ht.fitLines

theorem MemWf.startTeam (h : MemWf s) {cores : List Nat} : MemWf (s.startTeam l cl cores) := by
  unfold State.startTeam
  extract_lets L hd tid slot idx n s1 src team s2 s3 s4 s5 s6 s7 all s8
  have h1 : MemWf s1 := h.noteAdmit
  have h2 : MemWf s2 := h1.of_eq rfl rfl
  have h3 : MemWf s3 := h2.modLaunch _ _
  have h4 : MemWf s4 := h3.takeTiles.buildSpt
  have h5 : MemWf s5 := h4.foldl fun _ _ ht => ht.setGroups
  have h6 : MemWf s6 := h5.foldl fun _ _ ht => ht.l1Acquire
  have h7 : MemWf s7 := h6.fitTeam.writeTeam
  exact (h7.unqueue.ite h7).unbar

theorem MemWf.restoreTeam (h : MemWf s) {cores : List Nat} : MemWf (s.restoreTeam tid cl cores) := by
  unfold State.restoreTeam
  extract_lets t hd n s1 moved gone s2 tiles s3 pins s4 s5 s6 s7 s8
  have h2 : MemWf s2 := h.noteAdmit.foldl fun _ _ ht => ht.dropFrame _ _
  have h3 : MemWf s3 := h2.readTeam.setLife.modTeam _ _
  have h5 : MemWf s5 := (h3.modTeam _ _).takeTiles
  have h6 : MemWf s6 := h5.foldl fun _ _ ht => ht.modGroup _ _
  have h7 : MemWf s7 := h6.foldl fun _ _ ht => ht.l1All
  have h8 : MemWf s8 := h7.wake.foldl fun _ _ ht => ht.expireWaits
  exact h8.fitTeam.unbar

theorem MemWf.resumeTeam (h : MemWf s) {cores : List Nat} : MemWf (s.resumeTeam tid cl cores) := h.uncontain.ite h.restoreTeam

theorem MemWf.voidRecords (h : MemWf s) : MemWf (s.voidRecords l) := h.voidRecs

theorem MemWf.preempt (h : MemWf s) {tids : List Nat} {hot : Bool} : MemWf (s.preempt tids hot) :=
  h.foldl fun _ _ ht => ht.ite (ht.voidRecords.discard.ite (ht.setLife.modTeam _ _))

theorem MemWf.saveTeam (h : MemWf s) : MemWf (s.saveTeam tid) := by
  unfold State.saveTeam
  extract_lets t vals s1 s2
  have h1 : MemWf s1 := h.foldl fun _ _ ht => ht.unask.park.ite ht
  have h2 : MemWf s2 := h1.of_eq rfl rfl
  exact (h2.modTeam _ _).writeTeam

theorem MemWf.finishTeams (h : MemWf s) : MemWf s.finishTeams := by
  refine h.foldl fun t i ht => ?_
  have hf := (ht.freeCores (tid := i) (life := .finished)).modLaunch (t.team i).launch fun l => { l with tfin := l.tfin + 1 }
  exact (hf.ite hf.freePages).ite (ht.freePages.ite (ht.freePages.ite ht))

/-! ### Joins and spawns -/

theorem MemWf.joinWord (h : MemWf s) {k : Option Nat} {own : Owner} {pa : Nat} : MemWf (s.joinWord k own pa).2.2 := by
  unfold State.joinWord
  extract_lets r
  exact (h.atomHome : MemWf r.2)

theorem MemWf.takeRecord (h : MemWf s) {team : Nat} {o : Origin} {bytes : Option (List Byte)} : (s.takeRecord ten va team o bytes).Wf := by
  have hgo : ∀ (bs : List Byte) (t : State), MemWf t → (match t.submit ten bs va o (va % 64 == 0) with
      | .done s | .dropped s => Taken.accepted s
      | .full => .full t bs).Wf := by
    intro bs t ht
    split
    · next e => exact ht.submit.done e
    · next e => exact ht.submit.dropped e
    · exact ht
  unfold State.takeRecord
  dsimp only
  split
  · exact hgo _ _ h
  split
  · next e => exact h.swRecord.wait e
  · next e => exact (h.swRecord.fault e).note
  · next e => exact hgo _ _ (h.swRecord.ok e)

theorem MemWf.takeJoins (h : MemWf s) {kept js : List JoinRec} : MemWf (s.takeJoins ten kept js) := by
  induction js generalizing s kept with
  | nil => exact h.modTen _ _
  | cons j js ih =>
    unfold State.takeJoins
    dsimp only
    split
    · exact ih h
    split
    · exact ih h
    split
    · next e =>
      have ht := h.takeRecord.accepted e
      split
      · exact ih ht.complete
      · exact ih ht
    · next e => exact ih (h.takeRecord.full e)
    · next e => exact ih (h.takeRecord.reading e)

theorem MemWf.takeJoin (h : MemWf s) : MemWf (s.takeJoin ten) := h.takeJoins

theorem MemWf.execSpawn (h : MemWf s) {f : F64} : OutcomeWf (execSpawn c f s) := by
  refine h.groupWide fun x hx => ?_
  dsimp only
  split
  · exact hx
  refine hx.access fun _ => Res.Wf.ite hx (hx.releasedAll ?_)
  split
  · exact hx.modTen _ _
  split
  · next e => exact hx.takeRecord.accepted e
  · next e => exact (hx.takeRecord.full e).modTen _ _
  · next e => exact (hx.takeRecord.reading e).modTen _ _

theorem MemWf.execJoinc (h : MemWf s) {f : F64} : OutcomeWf (execJoinc c f s) := by
  refine h.groupWide fun x hx => ?_
  dsimp only
  split
  · exact hx
  refine hx.access fun ls => Res.Wf.ite hx (hx.relThen ?_)
  split
  · exact hx
  split
  · exact hx
  split
  · exact hx.outWord
  · show MemWf _
    split
    · exact hx.joinWord.joinEnqueue
    · exact hx.joinWord

theorem MemWf.winDrop (h : MemWf s) : MemWf (s.winDrop ten) := h.modTen _ _

theorem MemWf.execLaunchWindowWrite (h : MemWf s) {page off : Nat} {bytes : List Byte} : OutcomeWf (execLaunchWindowWrite page off bytes s) := by
  refine h.event (OptionWf.ite .none (.bind fun ten => OptionWf.ite .none ?_))
  split
  · next e => exact .some (h.submit.done e)
  · next e => exact .some (h.submit.dropped e).winDrop
  · exact .none

theorem MemWf.execLaunchDatagram (h : MemWf s) {d : Datagram} : OutcomeWf (execLaunchDatagram d s) := by
  refine h.event (OptionWf.ite .none ?_)
  split
  · exact .none
  · exact OptionWf.ite .none (.some (h.submit_state h.submit))

theorem MemWf.execMcSubmit (h : MemWf s) {bytes : List Byte} : OutcomeWf (execMcSubmit ten bytes s) :=
  h.event (OptionWf.ite (.some (h.submit_state h.submit)) .none)

theorem MemWf.placeAll (h : MemWf s) {items : List (Option Nat × Nat × List Nat)} : MemWf (s.placeAll l items) := by
  refine h.foldl fun t it ht => ?_
  split
  · exact ht.resumeTeam
  · exact ht.startTeam

theorem MemWf.execAdmissionDecision (h : MemWf s) : OutcomeWf (execAdmissionDecision cl s) :=
  h.event (.bind fun _ => OptionWf.ite .none (.some h.placeAll))

/-! ### Pre-emption -/

theorem MemWf.execPreemptBand (h : MemWf s) {band : Nat} : OutcomeWf (execPreemptBand ten band s) :=
  h.event (.bind fun _ => OptionWf.ite .none (.bind fun _ => OptionWf.ite .none (.some (h.modLaunch _ _).preempt)))

theorem MemWf.execPreemptProgress (h : MemWf s) : OutcomeWf (execPreemptProgress tid s) := by
  refine h.event (OptionWf.ite .none ?_)
  split
  · exact OptionWf.ite .none (.some ((h.modLaunch _ _).modTeam _ _).preempt)
  · exact .none

theorem MemWf.execPreemptThermal (h : MemWf s) : OutcomeWf (execPreemptThermal core s) :=
  h.event (OptionWf.ite .none (.some (h.modCore _ _).preempt))

theorem MemWf.resumeHot (h : MemWf s) : MemWf (s.resumeHot tid) := by
  unfold State.resumeHot
  refine h.ite ?_
  split
  · exact h.placeAll
  · exact h

theorem MemWf.execTeamSaved (h : MemWf s) : OutcomeWf (execTeamSaved tid s) :=
  h.event (OptionWf.ite (.some (MemWf.foldl (h.foldl fun _ _ ht => ht.saveTeam) fun _ _ ht => ht.resumeHot)) .none)

/-! ### Completion -/

theorem MemWf.finalJoin (h : MemWf s) : MemWf (s.finalJoin l) := by
  unfold State.finalJoin
  dsimp only
  split
  · next e => exact h.swLine.wait e
  · next e => exact (h.swLine.fault e).note.modLaunch _ _
  · next e =>
    have ht := h.swLine.ok e
    split
    · exact (ht.modLaunch _ _).forwardTo
    split
    · exact (ht.modLaunch _ _).joinWord.joinEnqueue
    · exact (ht.modLaunch _ _).joinWord

theorem MemWf.dropCmpl (h : MemWf s) {code : Nat} : MemWf (s.dropCmpl l code va) := h.forget.note.modLaunch _ _

theorem MemWf.writeCmpl (h : MemWf s) {off phase : Nat} {bs : List Byte} : MemWf (s.writeCmpl l off phase bs) := by
  unfold State.writeCmpl
  dsimp only
  split
  · next e => exact h.swLine.wait e
  · next e => exact (h.swLine.fault e).dropCmpl
  · next e => exact (h.swLine.ok e).swWrite.modLaunch _ _

theorem MemWf.afterAck (h : MemWf s) {k : State} (hk : MemWf k) : MemWf (s.afterAck l k) := h.dropCmpl.ite (h.ite hk)

theorem MemWf.completeStep (h : MemWf s) : MemWf (s.completeStep l) := by
  unfold State.completeStep
  dsimp only
  refine h.ite (MemWf.ite ?_ (MemWf.ite (h.afterAck h.writeCmpl) (MemWf.ite (h.afterAck (h.modLaunch _ _))
    (MemWf.ite (h.finalJoin.ite (h.modLaunch _ _)) (h.ite (MemWf.modLaunch ?_ _ _))))))
  · split
    · exact h
    · exact MemWf.ite ((h.modLaunch _ _).modLaunch _ _) (h.modLaunch _ _).writeCmpl
  · split
    · exact h.emit _
    · exact MemWf.ite ((h.modTen _ _).ite h.winDrop) h
    · exact h

theorem MemWf.execLaunchCompletion (h : MemWf s) : OutcomeWf (execLaunchCompletion l s) :=
  h.event (.some (h.foldl fun _ _ ht => ht.completeStep))

end Sward

end Sys2Proof

namespace Sys2Proof

open Machine Host

/-! ## Errors of the machine, the memory stacks and power -/

section Errors

variable {s : State} {ten code line stack channel : Nat} {d : Bool}

theorem MemWf.uncontainAll (h : MemWf s) : MemWf (s.uncontainAll code d) := h.foldl fun _ _ ht => ht.uncontain

theorem MemWf.execUncontainedFault (h : MemWf s) {code : BitVec 8} : OutcomeWf (execUncontainedFault ten code d s) :=
  h.event (OptionWf.ite (.some h.uncontain) .none)

theorem MemWf.poisonLine (h : MemWf s) : MemWf (s.poisonLine line) := by
  unfold State.poisonLine
  dsimp only
  split
  · exact h
  split
  · exact h.modDie _ _
  · exact h.uncontainAll

theorem MemWf.execPoisonEntryClear (h : MemWf s) {i : Nat} {v : Word} : OutcomeWf (execPoisonEntryClear d i v s) :=
  h.event (OptionWf.ite (.some (h.modDie _ _)) .none)

theorem MemWf.execErrorCounterClear (h : MemWf s) {i : Nat} {v : Word} : OutcomeWf (execErrorCounterClear d i v s) :=
  h.event (OptionWf.ite (.some (h.modDie _ _)) .none)

theorem MemWf.dropL1 (h : MemWf s) : MemWf (s.dropL1 d line) := h.of_eq rfl rfl

theorem MemWf.dropEntries (h : MemWf s) {e : StorageError} : MemWf (s.dropEntries e) := by
  unfold State.dropEntries
  dsimp only
  split
  · exact h.of_eq rfl rfl
  · exact h.of_eq rfl rfl
  · exact h.modDie _ _
  · exact h.modDie _ _
  · exact h

theorem MemWf.spoilLine (h : MemWf s) : MemWf (s.spoilLine line) := h.modDie _ _

theorem MemWf.spoilWord (h : MemWf s) {tid addr : Nat} : MemWf (s.spoilWord tid addr) := h.modFrame

theorem MemWf.arrayError (h : MemWf s) {b : Bool} : MemWf (s.arrayError line b) := h.ite (h.countErr.ite h.countErr.spoilLine)

theorem MemWf.execStorageErrorDetect (h : MemWf s) {e : StorageError} : OutcomeWf (execStorageErrorDetect e s) := by
  refine h.event (.some ?_)
  cases e.what with
  | hbm => exact h.arrayError
  | l2 | msc => exact h.countErr.ite (h.countErr.poisonLine.ite h.countErr)
  | l1 => exact h.dropL1.countErr
  | scratchpad => exact h.ite h.spoilWord
  | registerCache | accStore | itemQueue => exact h.ite h.uncontain
  | tlb | stb | ats | walkCache => exact h.dropEntries.countErr
  | groupControl | queueControl | barrierControl => exact h.countErr.uncontain
  | swardControl | fabricControl => exact h.uncontainAll
  | faultQueue => exact h.uncontain

theorem MemWf.setPc (h : MemWf s) {p : Pseudo} : MemWf (s.setPc p) := h.of_eq rfl rfl

theorem MemWf.goOffline (h : MemWf s) {tens : List Nat} : MemWf (s.goOffline stack channel tens) := by
  unfold State.goOffline
  extract_lets s1 s2
  have h2 : MemWf s2 := MemWf.of_eq (s := s1) (h.modStack _ _) rfl rfl
  exact h2.foldl fun _ _ ht => ht.uncontain

theorem MemWf.execBurstCrcFail (h : MemWf s) {b : BurstCrc} : OutcomeWf (execBurstCrcFail b s) :=
  h.event (OptionWf.ite .none (.some ((h.countErr.modStack _ _).countErr.setPc.ite (h.countErr.modStack _ _).goOffline)))

theorem MemWf.execEyeRecentreDone (h : MemWf s) : OutcomeWf (execEyeRecentreDone stack channel s) :=
  h.event (OptionWf.ite (.some (h.modStack _ _)) .none)

theorem MemWf.execStackTraining (h : MemWf s) {o : Option Nat} : OutcomeWf (execStackTraining stack o s) := by
  refine h.event (OptionWf.ite .none (OptionWf.ite (.some (h.modStack _ _)) (.some ?_)))
  split
  · exact h.modStack _ _
  · exact h.of_eq rfl rfl

theorem MemWf.execRefreshTick (h : MemWf s) {r : Refresh} : OutcomeWf (execRefreshTick r s) :=
  h.event (OptionWf.ite (.some (h.modStack _ _)) .none)

theorem MemWf.selfRefresh (h : MemWf s) {b : Bool} : MemWf (s.selfRefresh stack b) := h.ite (h.modStack _ _)

theorem MemWf.execHeartbeatMiss (h : MemWf s) : OutcomeWf (execHeartbeatMiss stack s) := h.event (OptionWf.ite .none (.some (h.modStack _ _)))

theorem MemWf.heartbeat (h : MemWf s) : MemWf (s.heartbeat stack) := h.modStack _ _

theorem MemWf.burst (h : MemWf s) {key : Nat} {o : Option Nat} : MemWf (s.burst key o) := by
  unfold State.burst
  dsimp only
  split
  · exact h
  split
  · exact h.setPc
  · exact h.setPc

theorem MemWf.retag (h : MemWf s) : MemWf (s.retag ten) := h.of_eq rfl rfl

theorem MemWf.execHbmBurstServe (h : MemWf s) {is : List Nat} : OutcomeWf (execHbmBurstServe stack channel is s) :=
  h.event (OptionWf.ite .none (.map fun _ => h.setPc))

theorem MemWf.execThermalSample (h : MemWf s) {cores hbm : List (BitVec 12)} : OutcomeWf (execThermalSample cores hbm s) := by
  unfold Machine.execThermalSample
  extract_lets hs s1 new s2
  have h2 : MemWf s2 := h.of_eq rfl rfl
  refine h.event (.some ?_)
  split
  · exact h2.ite (MemWf.of_eq (h2.uncontainAll (code := 0x62)) rfl rfl)
  · exact h2

/-- Without power the device's memory is empty, and the host's stays. -/
theorem MemWf.unpowered (h : MemWf s) : MemWf s.unpowered := ⟨rfl, h.host⟩

theorem MemWf.execThermalPowerDown (h : MemWf s) : OutcomeWf (execThermalPowerDown s) := h.event (OptionWf.ite (.some h.unpowered) .none)

end Errors

/-! ## The fabric -/

section Fabric

variable {s : State} {x : Ctx} {c : Ctl} {g word tid peer id n : Nat}

theorem MemWf.spend (h : MemWf s) {addr e : Nat} : MemWf (s.spend addr e n) := h.ite (h.wrMem _ _ _)

theorem MemWf.channel (hx : MemWf x.s) {idx perm : Nat} {loc : Option (Nat × Nat)} {rem : Nat → Option (Nat × Nat)} {k : Nat → State → Res}
    (hk : ∀ e t, MemWf t → (k e t).Wf) : (x.channel idx perm n loc rem k).Wf := by
  unfold Ctx.channel
  dsimp only
  refine Res.Wf.ite (hk _ _ hx) ?_
  split
  · exact hx
  split
  · exact hx
  split
  · exact hx
  · exact Res.Wf.ite hx (Res.Wf.ite hx (Res.Wf.ite hx (hk _ _ (hx.spend.modGroup _ _))))

/-- A release that is looked at after the allowance has been spent keeps what was spent. -/
theorem MemWf.relAfter (h : MemWf s) {r : Rel} {k : Res} (hk : k.Wf) : (r.then s k).Wf := by
  cases r with
  | ok => exact hk
  | wait => exact h
  | dead t p => exact h.of_eq rfl rfl
  | refused t ch => exact h.of_eq rfl rfl

theorem MemWf.relDom (h : MemWf s) {rel : Bool} {k : Res} (hk : k.Wf) : (x.relDom rel s k).Wf := (h.relAfter hk).ite hk

theorem MemWf.track (h : MemWf s) {kind : SentKind} {entry idx : Nat} : MemWf (x.track s kind peer entry idx n).2 := h.of_eq rfl rfl

theorem MemWf.sendAll (h : MemWf s) {kind : SentKind} {idx e a : Nat} {ctr : Option Nat} {bs : List Byte} :
    MemWf (x.sendAll s kind idx e a ctr bs) := h.foldl fun _ _ ht => ht.track.ite (ht.track.emit _)

theorem MemWf.ask (h : MemWf s) {kind : SentKind} {idx e off : Nat} {op : RemoteOp} {o : OWord} : (x.ask s kind idx e off n op o).Wf :=
  Res.Wf.ite h (h.track.emit _)

theorem MemWf.execCsend (h : MemWf s) {f : M96} : OutcomeWf (execCsend c f s) :=
  h.groupWide fun _ hx => hx.channel fun _ _ ht => ht.relDom ht.sendAll

theorem MemWf.execCput (h : MemWf s) {w : W128} : OutcomeWf (execCput c w s) := by
  refine h.groupWide fun x hx => Res.Wf.ite hx (hx.channel fun e t ht => ht.relDom ?_)
  split
  · exact hx
  split
  · next er =>
    have hu := ht.bringRead.starve er
    refine MemWf.starve ?_
    exact ⟨hu.mem, ht.host⟩
  · next er => exact ht.bringRead.bad er
  · next er => exact (ht.bringRead.ok er).sendAll

theorem MemWf.execCget (h : MemWf s) {w : W128} : OutcomeWf (execCget c w s) := by
  refine h.groupWide fun x hx => Res.Wf.ite hx (hx.channel fun e t ht => ht.relDom ?_)
  split
  · exact hx
  · exact ht.ask

theorem MemWf.execCatom (h : MemWf s) {f : M96} : OutcomeWf (execCatom c f s) := by
  refine h.groupWide fun x hx => Res.Wf.ite hx (hx.channel fun e t ht => ?_)
  split
  next v u er =>
  have hu : MemWf u := by
    split at er
    · cases er; exact ht
    · cases er; exact ht.draw
  exact hu.relAfter hu.ask

theorem MemWf.execArrset (h : MemWf s) {f : F64} : OutcomeWf (execArrset c f s) := by
  refine h.groupWide fun x hx => Res.Wf.ite hx ?_
  split
  · exact hx
  next addr _ =>
  refine Res.Wf.ite hx ?_
  have hb : (if f.mod.getLsbD 1 = true then x.s.bringRead x.G.core x.tid [(addr, 8)] else x.s.bring x.G.core x.tid (pagesOf addr 16)).Wf := by
    split
    · exact hx.bringRead
    · exact hx.bring
  split
  · next er => exact (hb.starve er).starve
  · next er => exact hb.bad er
  · next er => exact (hb.ok er).spWrite _ _ _

theorem MemWf.execArrwait (h : MemWf s) {f : F64} : OutcomeWf (execArrwait c f s) := by
  refine h.groupWide fun x hx => ?_
  dsimp only
  split
  · exact hx
  refine Res.Wf.ite hx ?_
  split
  · next er => exact (hx.bringRead.starve er).starve
  · next er => exact hx.bringRead.bad er
  · next er =>
    split
    · exact hx.bringRead.ok er
    · exact hx.bringRead.ok er

theorem MemWf.execArrwaitSatisfy (h : MemWf s) : OutcomeWf (execArrwaitSatisfy g word s) := by
  refine h.onWait fun o => ?_
  split
  · dsimp only
    split
    · next er => exact .map fun _ => (h.bringRead.ok er).complete
    · next er => exact .some (h.bringRead.bad er).lateFault
    · exact .none
  · exact .none

theorem MemWf.execArrwaitTimeout (h : MemWf s) : OutcomeWf (execArrwaitTimeout g word s) := by
  refine h.onWait fun o => ?_
  split
  · refine OptionWf.ite (.some h.arrivalTimeout) ?_
    split
    · next er => exact OptionWf.ite (.some (h.bring.ok er).arrivalTimeout) .none
    · exact .none
  · exact .none

/-! ### What arrives -/

theorem MemWf.addCount (h : MemWf s) {ctr : Option Nat} : MemWf (s.addCount tid ctr n) := by
  cases ctr with
  | none => exact h
  | some a => exact h.spWrite _ _ _

theorem MemWf.land (h : MemWf s) {addr : Nat} {bs : List Byte} {ctr : Option Nat} : OptionWf (s.land tid addr bs ctr) := by
  unfold State.land
  split
  · next er => exact .some (MemWf.spWriteFull (h.bring.ok er) _ _ _).addCount
  · exact .none

theorem OptionWf.map_state {o : Option State} {f : State → State} (ho : OptionWf o) (hf : ∀ t, MemWf t → MemWf (f t)) : OptionWf (o.map f) := by
  cases o with
  | none => exact .none
  | some t => exact .some (hf t (ho t rfl))

theorem MemWf.execPacketArrival (h : MemWf s) {p : PacketIn} : OutcomeWf (execPacketArrival p s) := by
  refine h.event ?_
  split
  · refine .bind fun q => .bind fun o => ?_
    split
    · exact OptionWf.ite .none (h.land.map_state fun t ht => ht.complete.ite (ht.modGroup _ _))
    · exact .none
  · refine OptionWf.ite (.some (h.emit _)) ?_
    split
    · exact .some (h.emit _)
    · exact OptionWf.ite (.some (h.emit _)) (h.land.map_state fun t ht => ht.emit _)

theorem MemWf.setNack (h : MemWf s) {entry : Nat} : MemWf (s.setNack entry) := h.wrMem _ _ _

theorem MemWf.dropSent (h : MemWf s) : MemWf (s.dropSent id) := h.setSent

theorem MemWf.faultHeld (h : MemWf s) {o : OWord} {code info : Nat} : MemWf (s.faultHeld g o code info) := h.takeBack.groupFault

theorem MemWf.accepted (h : MemWf s) {o : OWord} : MemWf (s.accepted g o) := by
  unfold State.accepted
  split
  · exact h.complete.ite (h.modGroup _ _)
  · exact h.modGroup _ _

theorem MemWf.execPacketAck (h : MemWf s) {a : AckIn} : OutcomeWf (execPacketAck id a s) := by
  refine h.event (.bind fun q => ?_)
  generalize q.kind = k
  have hd : MemWf (s.dropSent id) := h.dropSent
  cases k with
  | send | put =>
    cases a with
    | done v => exact .some hd
    | unbound => exact .some h.setSent.setNack
    | translated | refused | readOnly | unordered | data => exact .none
  | get =>
    cases a with
    | done v => exact OptionWf.ite (.some hd) .none
    | translated => exact .map fun _ => h.accepted
    | refused => exact .map fun _ => hd.faultHeld
    | unbound => exact .map fun _ => hd.setNack.faultHeld
    | readOnly | unordered | data => exact .none
  | atom =>
    cases a with
    | done v =>
      refine .some ?_
      split
      · split
        · exact hd.complete
        · exact hd
      · exact hd
    | translated | unordered => exact .bind fun _ => OptionWf.ite (.some h.accepted) .none
    | refused | readOnly => exact .map fun _ => hd.faultHeld
    | unbound => exact .map fun _ => hd.setNack.faultHeld
    | data => exact .none
  | join =>
    cases a with
    | done v => exact .some (hd.ite hd.joinEnqueue)
    | refused => exact .some hd.note
    | translated | unbound | readOnly | unordered | data => exact .none
  | fwdStore | engStore | swStore =>
    cases a with
    | done | refused => exact .some hd
    | translated | unbound | readOnly | unordered | data => exact .none
  | engLoad | swLoad =>
    cases a with
    | data bs => exact OptionWf.ite .none (.some h.setSent)
    | done | translated | unbound | refused | readOnly | unordered => exact .none
  | purge =>
    cases a with
    | done v => exact .some hd
    | translated | unbound | refused | readOnly | unordered | data => exact .none
  | fwdLoad => exact .none

theorem MemWf.loseWord (h : MemWf s) {q : Sent} : MemWf (s.loseWord q) := by
  unfold State.loseWord
  split
  · exact h.note
  split
  · exact h
  split
  · exact h.complete.ite h.faultHeld
  · exact h.draw.complete.ite h.faultHeld
  · exact h

theorem MemWf.killPeer (h : MemWf s) : MemWf (s.killPeer peer) := by
  unfold State.killPeer
  extract_lets mine s1 s2
  have h1 : MemWf s1 := h.setDead
  have h2 : MemWf s2 := h1.of_eq rfl rfl
  exact h2.foldl fun _ _ ht => ht.loseWord

theorem MemWf.execSourceTimeout (h : MemWf s) : OutcomeWf (execSourceTimeout id s) := h.event (.map fun _ => h.killPeer)

theorem MemWf.execFecLockLossTimeout (h : MemWf s) : OutcomeWf (execFecLockLossTimeout peer s) := by
  refine h.event ?_
  split
  · exact OptionWf.ite (.some h.modPeer.killPeer) .none
  · exact .none

theorem MemWf.answerPeer (h : MemWf s) {a : AckIn} : MemWf (s.answerPeer peer n a) := h.queueTo.emit _

theorem MemWf.execFabricRequestArrival (h : MemWf s) {r : FabricReq} : OutcomeWf (execFabricRequestArrival r s) := by
  unfold Machine.execFabricRequestArrival
  extract_lets t no line
  have ht : MemWf t := by
    unfold t
    split
    · exact h.foldl fun _ _ hu => hu.swWalk.ite hu
    · exact h
  have hno : ∀ a, MemWf (no a) := fun a => ht.emit _
  refine ht.event (.some ?_)
  split
  · exact hno _
  split
  · exact hno _
  dsimp only
  split
  · exact hno _
  split
  · split
    · exact hno _
    · exact MemWf.emit (MemWf.answerPeer ((hno _).foldl_snd fun _ _ hu => hu.touch _ _ _)) _
  · split
    · exact hno _
    · exact (hno _).atomHome.answerPeer
  · exact hno _

theorem MemWf.countAccess (h : MemWf s) {pa src : Nat} : MemWf (s.countAccess pa src) := by
  unfold State.countAccess
  dsimp only
  split
  · exact h.modDie _ _
  split
  · exact h.modDie _ _
  · exact h.modDie _ _

theorem MemWf.performOp (h : MemWf s) {pa : Nat} {op : RemoteOp} : MemWf (s.performOp pa op).2 := by
  unfold State.performOp
  split <;> dsimp only
  · exact h.touch _ _ _
  · exact (h.touch _ _ _).homeWrite _ _ _
  · exact (h.touch _ _ _).homeWrite _ _ _
  · exact h.atomHome
  · exact h.joinWord

theorem MemWf.execForwardedAccessArrival (h : MemWf s) {a : FwdAccess} : OutcomeWf (execForwardedAccessArrival a s) := by
  unfold Machine.execForwardedAccessArrival
  extract_lets s1
  have h1 : MemWf s1 := h.countAccess.ite h
  refine h.event (.some ?_)
  split
  · exact h1.emit _
  · exact h1.performOp.answerPeer

end Fabric

end Sys2Proof

namespace Sys2Proof

open Machine Host

/-! ## Leases and optical lanes -/

section Lanes

variable {s : State} {x : Ctx} {c : Ctl} {tid peer lane n k : Nat}

theorem MemWf.takeLane {now : Nat} {don : Option Nat} {st : State × List LeaseLane × Nat} (h : MemWf st.1) :
    MemWf (takeLane peer now don st lane).1 := by
  unfold Machine.takeLane
  split
  · exact h
  · exact h.retune

theorem MemWf.grant (h : MemWf s) : MemWf (s.grant peer n).1 :=
  h.foldl_fst fun _ _ hr => hr.foldl_fst fun _ _ ht => ht.takeLane

theorem MemWf.leaseEntry (hx : MemWf x.s) {idx : Nat} {dead : Bool} {k : Nat → Res} (hk : ∀ p, (k p).Wf) : (x.leaseEntry idx dead k).Wf := by
  unfold Ctx.leaseEntry
  dsimp only
  split
  · exact hx
  · exact Res.Wf.ite hx (hk _)

theorem MemWf.execLease (h : MemWf s) {f : F64} : OutcomeWf (execLease c f s) := by
  refine h.groupWide fun x hx => Res.Wf.ite hx (hx.leaseEntry fun p => ?_)
  have hg : ∀ n, MemWf (x.s.grant p n).1 := fun n => hx.grant
  exact Res.Wf.ite (hx.modGroup _ _) ((hg _).modTeam _ _)

theorem MemWf.execLrel (h : MemWf s) {f : F64} : OutcomeWf (execLrel c f s) := h.groupWide fun _ hx => hx.endLease

theorem MemWf.execLqry (h : MemWf s) {f : F64} : OutcomeWf (execLqry c f s) := h.groupWide fun _ hx => hx.leaseEntry fun _ => hx.modGroup _ _

theorem MemWf.execLeaseLanesLive (h : MemWf s) {lease : Nat} : OutcomeWf (execLeaseLanesLive tid lease s) :=
  h.event (OptionWf.ite (.map fun _ => h.complete) .none)

theorem MemWf.execLeaseExpiry (h : MemWf s) {lease : Nat} : OutcomeWf (execLeaseExpiry tid lease s) := by
  refine h.event ?_
  split
  · exact OptionWf.ite (.some h.endLease) .none
  · exact .none

theorem MemWf.reclaim (h : MemWf s) {y : LeaseLane} : MemWf (s.reclaim y) := by
  unfold State.reclaim
  extract_lets s1
  have h1 : MemWf s1 := h.giveBack
  exact h1.of_eq rfl rfl

theorem MemWf.execLaneReclaim (h : MemWf s) : OutcomeWf (execLaneReclaim peer s) :=
  h.event (OptionWf.ite (.map fun _ => h.reclaim.modPeer) .none)

theorem MemWf.goLive (h : MemWf s) : MemWf (s.goLive lane) := by
  unfold State.goLive
  dsimp only
  split
  · exact h.setLane.modPeer
  · exact h.setLane

theorem MemWf.execLaneRetuneDone (h : MemWf s) : OutcomeWf (execLaneRetuneDone lane s) := h.event (OptionWf.ite (.some h.goLive) .none)

theorem MemWf.execTuningTimeout (h : MemWf s) : OutcomeWf (execTuningTimeout lane s) := h.event (OptionWf.ite (.some h.setLane) .none)

theorem MemWf.execLaneRelockAttempt (h : MemWf s) {locked : Bool} : OutcomeWf (execLaneRelockAttempt lane locked s) :=
  h.event (OptionWf.ite (.some (h.goLive.ite h.setLane)) .none)

theorem MemWf.execLaneLossOfLock (h : MemWf s) : OutcomeWf (execLaneLossOfLock lane s) := by
  unfold Machine.execLaneLossOfLock
  extract_lets o f again
  have ha : ∀ t, MemWf t → MemWf (again t) := by
    intro t ht
    unfold again f
    split
    · exact ht.of_eq rfl rfl
    · exact ht
  exact h.event (OptionWf.ite (.some (ha _ h.leaveLive.setLane)) (OptionWf.ite (.some (ha _ h.setLane)) .none))

theorem MemWf.execFlitRetransmit (h : MemWf s) : OutcomeWf (execFlitRetransmit k s) := by
  have ha : ∀ (t : State) (p : Nat), MemWf t → OptionWf (if (t.liveTo p).isEmpty then none else some (t.queueTo p 256)) :=
    fun t p ht => OptionWf.ite .none (.some ht.queueTo)
  refine h.event ?_
  split
  · exact ha _ _ (h.of_eq rfl rfl)
  · exact .bind fun q => OptionWf.ite .none (ha _ _ h)

end Lanes

/-! ## Bring-up and measurement -/

section Boot

variable {s : State} {peer n : Nat}

theorem MemWf.setBoot (h : MemWf s) {f : Boot → Boot} : MemWf (s.setBoot f) := h.of_eq rfl rfl

theorem MemWf.holdAt (h : MemWf s) : MemWf (s.holdAt n) := h.setBoot

theorem MemWf.execPowerOnReset (h : MemWf s) : OutcomeWf (execPowerOnReset s) := h.event (.some (h.unpowered.of_eq rfl rfl))

theorem MemWf.execRailsInRange (h : MemWf s) {a b : Bool} {x y : Bundle} : OutcomeWf (execRailsInRange a b x y s) :=
  h.event (OptionWf.ite .none (OptionWf.ite (.some h.holdAt) (.some (h.setBoot.setBoot.ite (h.setBoot.setBoot.ite h.setBoot.holdAt)))))

theorem MemWf.tuneBase (h : MemWf s) : MemWf (s.tuneBase n) := h.setLane

theorem MemWf.execHbmTrainingDone (h : MemWf s) : OutcomeWf (execHbmTrainingDone s) :=
  h.event (OptionWf.ite (.some (h.setBoot.foldl fun _ _ ht => ht.tuneBase)) .none)

theorem MemWf.execOpticalCalibrationDone (h : MemWf s) : OutcomeWf (execOpticalCalibrationDone s) :=
  h.event (OptionWf.ite (.some h.setBoot) .none)

theorem MemWf.execPcieLinkUp (h : MemWf s) {up : Option (Nat × Nat)} : OutcomeWf (execPcieLinkUp up s) := by
  refine h.event (OptionWf.ite (.some ?_) .none)
  split
  · exact h.of_eq rfl rfl
  · exact h.holdAt

theorem MemWf.linkStatus (h : MemWf s) : MemWf s.linkStatus := (h.emit _).ite h

theorem MemWf.noteBase (h : MemWf s) : MemWf s.noteBase := h.setBoot.ite h

theorem MemWf.killBase (h : MemWf s) : MemWf (s.killBase peer) := h.setBoot.ite h.setBoot.killPeer

theorem MemWf.startSward (h : MemWf s) : MemWf s.startSward := by
  unfold State.startSward
  extract_lets s1 s2
  have h2 : MemWf s2 := h.of_eq rfl rfl
  exact h2.foldl fun _ _ ht => ht.killBase

theorem MemWf.execEthernetLinkDone (h : MemWf s) {a b : Bool} : OutcomeWf (execEthernetLinkDone a b s) := by
  refine h.event (OptionWf.ite (.some (MemWf.startSward ?_)) .none)
  exact h.of_eq rfl rfl

theorem MemWf.execBaseLaneDeadTimeout (h : MemWf s) : OutcomeWf (execBaseLaneDeadTimeout peer s) :=
  h.event (OptionWf.ite (.some h.killBase) .none)

theorem MemWf.execFrontPortLinkChange (h : MemWf s) {port : Nat} {up : Bool} : OutcomeWf (execFrontPortLinkChange port up s) :=
  h.event (OptionWf.ite (.some (h.of_eq rfl rfl)) .none)

theorem MemWf.execMeasurementExtend (h : MemWf s) {ten routine : Nat} : OutcomeWf (execMeasurementExtend ten routine s) :=
  h.event (OptionWf.ite (.map fun _ => h.setBoot) .none)

theorem MemWf.execAttestationRequest (h : MemWf s) {nonce : BitVec 256} : OutcomeWf (execAttestationRequest nonce s) :=
  h.event (OptionWf.ite .none (.some h.setBoot))

theorem MemWf.execReportReady (h : MemWf s) {dbg : Bool} : OutcomeWf (execReportReady dbg s) :=
  h.event (OptionWf.ite (.some h.setBoot) .none)

end Boot

/-! ## Barriers, branches and the group's own words -/

section Control

variable {s : State} {x : Ctx} {c : Ctl} {g word : Nat}

theorem MemWf.arrive (hx : MemWf x.s) {f : F64} {k : State → Res} (hk : ∀ t, MemWf t → (k t).Wf) : (x.arrive f k).Wf := by
  unfold Ctx.arrive
  dsimp only
  refine Res.Wf.ite hx (Res.Wf.ite hx ?_)
  split
  · exact Res.Wf.ite hx (hk _ ((hx.modGroup _ _).modTeam _ _))
  · exact hx.released hx

theorem MemWf.barWait (h : MemWf s) {i : Nat} : (x.barWait i s).Wf := Res.Wf.ite h.l1Acquire h

theorem MemWf.execBarArv (h : MemWf s) {f : F64} : OutcomeWf (execBarArv c f s) := h.word fun _ hx => hx.arrive fun _ ht => ht

theorem MemWf.execBarWt (h : MemWf s) {f : F64} : OutcomeWf (execBarWt c f s) := h.groupWide fun _ hx => (hx.ite (hx.modGroup _ _)).barWait

theorem MemWf.execBarSync (h : MemWf s) {f : F64} : OutcomeWf (execBarSync c f s) := h.word fun _ hx => hx.arrive fun _ ht => ht.barWait

theorem MemWf.execBarWaitRelease (h : MemWf s) : OutcomeWf (execBarWaitRelease g word s) := by
  refine h.onWait fun o => ?_
  split
  · exact OptionWf.ite (.some h.complete) .none
  · exact .none

theorem MemWf.branch (hx : MemWf x.s) {dst : List (Nat × Word)} {ws : List RegWrite} : (x.branch dst ws).Wf := by
  unfold Ctx.branch
  split
  · exact hx
  · exact hx.modGroup _ _

theorem MemWf.execNop (h : MemWf s) {f : F64} : OutcomeWf (execNop c f s) := h.word fun _ hx => hx
theorem MemWf.execBra (h : MemWf s) {f : J64} : OutcomeWf (execBra c f s) := h.word fun _ hx => hx.branch
theorem MemWf.execBrc (h : MemWf s) {f : J64} : OutcomeWf (execBrc c f s) := h.word fun _ hx => hx.branch
theorem MemWf.execBrx (h : MemWf s) {f : F64} : OutcomeWf (execBrx c f s) := h.word fun _ hx => hx.branch
theorem MemWf.execCall (h : MemWf s) {f : J64} : OutcomeWf (execCall c f s) := h.word fun _ hx => hx.branch
theorem MemWf.execCallx (h : MemWf s) {f : F64} : OutcomeWf (execCallx c f s) := h.word fun _ hx => hx.branch
theorem MemWf.execRet (h : MemWf s) {f : F64} : OutcomeWf (execRet c f s) := h.word fun _ hx => hx.branch

theorem MemWf.exitLanes (h : MemWf s) {ls : List Nat} : MemWf (s.exitLanes g ls) := by
  have hm : ∀ (f : Group → Group) (t : Nat) (k : Team → Team), MemWf ((s.modGroup g f).modTeam t k) := fun _ _ _ => (h.modGroup _ _).modTeam _ _
  exact ((hm _ _ _).modCore _ _).ite (hm _ _ _)

theorem MemWf.execExit (h : MemWf s) {f : F64} : OutcomeWf (execExit c f s) := h.word fun _ hx => hx.exitLanes

theorem MemWf.execMeet (h : MemWf s) {f : J64} : OutcomeWf (execMeet c f s) :=
  h.word fun _ hx => Res.Wf.ite hx (Res.Wf.ite hx (hx.modGroup _ _))

theorem MemWf.execMeetw (h : MemWf s) {f : F64} : OutcomeWf (execMeetw c f s) := h.word fun _ hx => hx.modGroup _ _

theorem MemWf.execDone (h : MemWf s) {f : F64} : OutcomeWf (execDone c f s) := h.word fun _ hx => Res.Wf.ite hx.exitLanes (hx.modGroup _ _)

theorem MemWf.setShare (h : MemWf s) {q : List Word} : MemWf (s.setShare g q) := h.modTeam _ _

theorem MemWf.refillPop (h : MemWf s) {r : Refill} : MemWf (s.refillPop g r) := h.ite (h.setShare.modGroup _ _).l1Acquire

theorem MemWf.execRefill (h : MemWf s) {f : F64} : OutcomeWf (execRefill c f s) :=
  h.groupWide fun _ hx => Res.Wf.ite hx (hx.modGroup _ _).refillPop

theorem MemWf.execIqPush (h : MemWf s) {f : F64} : OutcomeWf (execIqPush c f s) :=
  h.groupWide fun _ hx => Res.Wf.ite hx (Res.Wf.ite hx (hx.released hx.setShare))

theorem MemWf.execIqLoad (h : MemWf s) {f : F64} : OutcomeWf (execIqLoad c f s) := by
  refine h.groupWide fun x hx => Res.Wf.ite hx ?_
  have hs : ∀ (q : List Word) (k : Group → Group), MemWf ((x.s.setShare x.g q).modGroup x.g k) := fun _ _ => hx.setShare.modGroup _ _
  exact (hs _ _).ite (hs _ _).l1Acquire

theorem MemWf.execIqCount (h : MemWf s) {f : F64} : OutcomeWf (execIqCount c f s) := h.groupWide fun _ hx => hx.modGroup _ _

theorem MemWf.execYield (h : MemWf s) {f : F64} : OutcomeWf (execYield c f s) := h.groupWide fun _ hx => hx

theorem MemWf.setHolder (h : MemWf s) {G : Group} {o : Option Nat} : MemWf (s.setHolder G o) := h.modCore _ _

theorem MemWf.execTokpass (h : MemWf s) {f : F64} : OutcomeWf (execTokpass c f s) := h.groupWide fun _ hx => hx.setHolder.ite hx

theorem MemWf.execTokwait (h : MemWf s) {f : F64} : OutcomeWf (execTokwait c f s) := by
  refine h.groupWide fun x hx => ?_
  split
  · exact hx.setHolder
  · exact Res.Wf.ite hx hx

theorem MemWf.onGroup (h : MemWf s) {p : Group → Bool} {f : Group → Group} : OutcomeWf (onGroup s g p f) :=
  h.event (OptionWf.ite (.some (h.modGroup _ _)) .none)

theorem MemWf.refillAttempt (h : MemWf s) : MemWf (s.refillAttempt g) := by
  unfold State.refillAttempt
  dsimp only
  split
  · exact h.exitLanes
  · exact MemWf.ite (h.modGroup _ _) h.refillPop

theorem MemWf.execRefillAttempt (h : MemWf s) : OutcomeWf (execRefillAttempt g s) := h.event (OptionWf.ite (.some h.refillAttempt) .none)

theorem MemWf.execGroupRetire (h : MemWf s) : OutcomeWf (execGroupRetire g s) := h.event (OptionWf.ite (.some h.retire) .none)

theorem MemWf.execRegisterCacheFill (h : MemWf s) {line : Nat} : OutcomeWf (execRegisterCacheFill g line s) :=
  h.event (OptionWf.ite (.some (h.modGroup _ _).fitLines) .none)

/-! ### Pairs and traps -/

theorem MemWf.execPaired (h : MemWf s) {p : Pair} : OutcomeWf (execPaired c p s) := by
  refine h.word fun x hx => ?_
  dsimp only
  split
  · trivial
  · exact hx
  · exact hx

theorem MemWf.execAssert (h : MemWf s) {f : M96} : OutcomeWf (execAssert c f s) := by
  refine h.word fun x hx => ?_
  split
  · exact hx
  · exact hx

theorem MemWf.execBrk (h : MemWf s) {f : F64} : OutcomeWf (execBrk c f s) := h.groupWide fun _ hx => hx
theorem MemWf.execChkOn (h : MemWf s) {f : F64} : OutcomeWf (execChkOn c f s) := h.groupWide fun _ hx => hx.modGroup _ _
theorem MemWf.execChkOff (h : MemWf s) {f : F64} : OutcomeWf (execChkOff c f s) := h.groupWide fun _ hx => hx.modGroup _ _

end Control

end Sys2Proof

namespace Sys2Proof

open Machine Host

/-! ## The matrix engine -/

section Matrix

variable {s : State} {x : Ctx} {c : Ctl} {core k : Nat}

theorem MemWf.tileOp (hx : MemWf x.s) {tile : BitVec 7} {dests : List RegName} {op : TOp} : (x.tileOp tile dests op).Wf :=
  Res.Wf.ite hx hx.acceptTile

theorem MemWf.execFmtset (h : MemWf s) {f : M96} : OutcomeWf (execFmtset c f s) := h.groupWide fun _ hx => Res.Wf.ite (hx.modGroup _ _) hx

theorem MemWf.execMma (h : MemWf s) {f : F64} : OutcomeWf (execMma c f s) :=
  h.groupWide fun _ hx => Res.Wf.ite hx (Res.Wf.ite hx hx.tileOp)

theorem MemWf.execAccZero (h : MemWf s) {f : F64} : OutcomeWf (execAccZero c f s) := h.groupWide fun _ hx => hx.tileOp
theorem MemWf.execAccRd (h : MemWf s) {f : F64} : OutcomeWf (execAccRd c f s) := h.groupWide fun _ hx => hx.tileOp
theorem MemWf.execAccRdx (h : MemWf s) {f : F64} : OutcomeWf (execAccRdx c f s) := h.groupWide fun _ hx => hx.tileOp
theorem MemWf.execAccMax (h : MemWf s) {f : F64} : OutcomeWf (execAccMax c f s) := h.groupWide fun _ hx => hx.tileOp
theorem MemWf.execAccScl (h : MemWf s) {f : F64} : OutcomeWf (execAccScl c f s) := h.groupWide fun _ hx => hx.tileOp

/-- A tile's length and its number of granules stand as variables here: the kernel would count the literals down when it
compares two matches. -/
theorem MemWf.execAccLd (h : MemWf s) {f : M96} : OutcomeWf (execAccLd c f s) := by
  obtain ⟨len, hlen⟩ : ∃ n, n = 16384 := ⟨_, rfl⟩
  obtain ⟨n, hn⟩ : ∃ n, n = 1024 := ⟨_, rfl⟩
  unfold Machine.execAccLd
  rw [← hlen, ← hn]
  refine h.groupWide fun x hx => ?_
  dsimp only
  refine Res.Wf.ite hx ?_
  split
  · exact hx
  next a _ =>
  refine Res.Wf.ite hx ?_
  have hb : (if (fld f.c 0 2 == 0) = true then x.s.bringRead x.G.core x.tid [(a, len)] else x.s.bring x.G.core x.tid (pagesOf a len)).Wf := by
    split
    · exact hx.bringRead
    · exact hx.bring
  split
  · next e => exact (hb.starve e).starve
  · next e => exact hb.bad e
  next t _ e =>
  have ht := hb.ok e
  refine Res.Wf.ite (MemWf.tileOp (x := { x with s := t }) ht) ?_
  split
  · exact ht
  split
  · next e => exact MemWf.tileOp (x := { x with s := _ }) (ht.tileFeTest.ok e)
  · next e => exact ht.tileFeTest.ok e
  · next e => exact (ht.tileFeTest.starve e).starve
  · next e => exact ht.tileFeTest.bad e

/-- The length is a variable as in `MemWf.execAccLd`. -/
theorem MemWf.execAccDrn (h : MemWf s) {f : M96} : OutcomeWf (execAccDrn c f s) := by
  obtain ⟨len, hlen⟩ : ∃ n, n = 16384 := ⟨_, rfl⟩
  unfold Machine.execAccDrn
  rw [← hlen]
  refine h.groupWide fun x hx => Res.Wf.ite hx ?_
  split
  · exact hx
  split
  · next e => exact (hx.bring.starve e).starve
  · next e => exact hx.bring.bad e
  · next e => exact MemWf.tileOp (x := { x with s := _ }) (hx.bring.ok e)

theorem MemWf.setTile (h : MemWf s) {n : Nat} {t : List Lane32} : MemWf (s.setTile core n t) := h.modCore _ _

theorem MemWf.dropOp (h : MemWf s) {o : TileOp} : MemWf (s.dropOp core o) := h.modCore _ _

theorem MemWf.opDone (h : MemWf s) {o : TileOp} {ws : List RegWrite} : MemWf (s.opDone core o ws) := by
  unfold State.opDone
  dsimp only
  split
  · exact h.dropOp.complete
  · exact h.dropOp

theorem MemWf.arithCheck (h : MemWf s) {o : TileOp} : MemWf (s.arithCheck core o) := by
  refine MemWf.groupFault ?_
  split
  · exact h.dropOp.takeBackFor
  · exact h.dropOp

theorem MemWf.residueFail (h : MemWf s) {o : TileOp} : MemWf (s.residueFail core o) := by
  refine MemWf.foldl_snd h.arithCheck.countErr fun r y hr => ?_
  split
  · exact hr.opDone
  · exact hr.arithCheck

theorem MemWf.execMultiplyPipePerform (h : MemWf s) {b : Bool} : OutcomeWf (execMultiplyPipePerform core b s) := by
  refine h.event (.map fun o => ?_)
  split
  · exact h.residueFail.ite h.setTile.opDone
  · exact h

theorem MemWf.execAccPortPerform (h : MemWf s) {b : Bool} : OutcomeWf (execAccPortPerform core b s) := by
  refine h.event (.map fun o => ?_)
  dsimp only
  split
  · exact h
  · exact h.setTile.opDone
  · exact h.arithCheck.countErr.ite h.opDone
  · exact h.opDone
  · exact h.setTile.opDone
  · exact h.setTile.opDone
  · exact MemWf.opDone (MemWf.ite (MemWf.setTile (h.modCore _ _)) (h.modCore _ _))

theorem MemWf.execDrainGranuleLand (h : MemWf s) : OutcomeWf (execDrainGranuleLand core k s) := by
  refine h.event ?_
  split
  · exact .none
  split
  · next e => exact .some (MemWf.modCore ((h.bring.ok e).spWriteFull _ _ _) _ _)
  · next e => exact .some (MemWf.modCore (h.bring.bad e) _ _)
  · exact .none

end Matrix

/-! ## Shoot-downs, translation services and control registers -/

section Privileged

variable {s : State} {x : Ctx} {c : Ctl} {ten tid addr n : Nat}

theorem MemWf.execPageWalk (h : MemWf s) {die : Bool} : OutcomeWf (execPageWalk die s) := by
  refine h.event (.map fun p => ?_)
  dsimp only
  split
  · exact MemWf.foldl (h.modDie _ _) fun _ _ ht => ht.walkFill
  · exact h.modDie _ _

theorem MemWf.shootLocal (h : MemWf s) : MemWf (s.shootLocal ten addr n) := h.of_eq rfl rfl

theorem MemWf.dropCopies (h : MemWf s) {own : Owner} : MemWf (s.dropCopies own addr n) := h.of_eq rfl rfl

theorem MemWf.shootPurge (h : MemWf s) : MemWf (s.shootPurge addr n).2 := h.dropCopies.foldl_snd fun _ _ hr => hr.of_eq rfl rfl

theorem MemWf.shoot (h : MemWf s) {want : Nat} {cmd : ShootCmd} : OptionWf (s.shoot ten want cmd) := by
  unfold State.shoot
  split
  · exact .none
  split
  · exact .some (h.modTen _ _)
  refine OptionWf.ite .none (.some (MemWf.modTen ?_ _ _))
  split
  · exact h.shootLocal
  · exact h.shootPurge

theorem MemWf.execShootdownLocal (h : MemWf s) {cmd : ShootCmd} : OutcomeWf (execShootdownLocal ten cmd s) := h.event h.shoot
theorem MemWf.execShootdownRosPurge (h : MemWf s) {cmd : ShootCmd} : OutcomeWf (execShootdownRosPurge ten cmd s) := h.event h.shoot

theorem MemWf.execShootdownComplete (h : MemWf s) : OutcomeWf (execShootdownComplete ten s) := by
  refine h.event ?_
  split
  · exact .none
  · exact OptionWf.ite (.some (h.modTen _ _)) .none

theorem MemWf.ackPurges (h : MemWf s) : MemWf s.ackPurges := by
  unfold State.ackPurges
  extract_lets ended
  exact MemWf.foldl (s := { s with purges := _ }) (h.of_eq rfl rfl) fun _ _ ht => ht.dropCopies.emit _

theorem MemWf.execRosPurgeReceive (h : MemWf s) {peer : Nat} : OutcomeWf (execRosPurgeReceive peer addr n s) := by
  unfold Machine.execRosPurgeReceive
  extract_lets len keep s1 s2
  have h1 : MemWf s1 := h.of_eq rfl rfl
  have h2 : MemWf s2 := h1.dropCopies
  exact h.event (.some (MemWf.ackPurges (s := { s2 with purges := _ }) (h2.of_eq rfl rfl)))

theorem MemWf.execAccessCounterWrite (h : MemWf s) {die : Bool} {i : Nat} {v : BitVec 16} : OutcomeWf (execAccessCounterWrite die i v s) :=
  h.event (.some (h.modDie _ _))

theorem MemWf.execMissedClear (h : MemWf s) {die : Bool} {v : Word} : OutcomeWf (execMissedClear die v s) :=
  h.event (OptionWf.ite (.some (h.modDie _ _)) .none)

theorem MemWf.priSend (h : MemWf s) : MemWf s.priSend := h.foldl fun _ _ ht => MemWf.ite (ht.of_eq rfl rfl) ht

theorem MemWf.dropReq (h : MemWf s) : MemWf (s.dropReq n) := h.of_eq rfl rfl

theorem MemWf.setPhase (h : MemWf s) {p : AtsReq → Bool} : MemWf (s.setPhase p n) := h.of_eq rfl rfl

theorem MemWf.execAtsCompletion (h : MemWf s) {a : AtsAnswer} : OutcomeWf (execAtsCompletion n a s) :=
  h.event (.map fun _ => MemWf.ite (h.dropReq.modDie _ _) h.setPhase.priSend)

theorem MemWf.execPriResponse (h : MemWf s) {code : PriCode} : OutcomeWf (execPriResponse n code s) := by
  refine h.event (.map fun _ => ?_)
  cases code with
  | success => exact h.dropReq.priSend
  | invalidRequest => exact h.setPhase.priSend
  | responseFailure => exact h.of_eq rfl rfl

theorem MemWf.execPriEnable (h : MemWf s) : OutcomeWf (execPriEnable s) :=
  h.event (.some (MemWf.priSend (s := { s with priOn := true }) (h.of_eq rfl rfl)))

theorem MemWf.execInvalidateRequest (h : MemWf s) {pasid : Nat} : OutcomeWf (execInvalidateRequest pasid addr n s) :=
  h.event (.some (h.of_eq rfl rfl))

theorem MemWf.execInvalidateCompletion (h : MemWf s) : OutcomeWf (execInvalidateCompletion n s) :=
  h.event (.bind fun _ => OptionWf.ite (.some (h.of_eq rfl rfl)) .none)

/-! ### Control registers -/

theorem MemWf.violation (h : MemWf s) : MemWf s.violation := h.of_eq rfl rfl

theorem Machine.CsrWrite.Wf.ite {p : Prop} [Decidable p] {a b : CsrWrite} (ha : a.Wf) (hb : b.Wf) : (if p then a else b).Wf := by
  split
  · exact ha
  · exact hb

theorem MemWf.tncfgWrite (h : MemWf s) {lv : Level} {w : Nat} {v : Word} : (s.tncfgWrite lv ten w v).Wf := by
  have hs : ∀ (p : Prop) [Decidable p] (f : Tenancy → Tenancy), MemWf (if p then s.modTen ten f else (s.modTen ten f).retag ten) :=
    fun p _ f => MemWf.ite (h.modTen _ _) (MemWf.retag (h.modTen _ _))
  exact CsrWrite.Wf.ite trivial (CsrWrite.Wf.ite trivial (MemWf.ite (hs _ _).violation (hs _ _)))

theorem MemWf.deadClear (h : MemWf s) {v : Word} : MemWf (s.deadClear n v) := by
  unfold State.deadClear
  extract_lets cleared s1 s2
  have h2 : MemWf s2 := h.of_eq rfl rfl
  exact h2.foldl fun _ _ ht => ht.modPeer.ite ht

theorem MemWf.csrWrite (h : MemWf s) {lv : Level} {v : Word} {r : Csr} : (s.csrWrite lv v r).Wf := by
  cases r with
  | tncfg t w => exact h.tncfgWrite
  | tnstat t => trivial
  | thallow c => exact h.modCore _ _
  | deadpeer k => exact h.deadClear
  | srcto => exact CsrWrite.Wf.ite trivial (CsrWrite.Wf.ite trivial (h.of_eq rfl rfl))
  | csrviol => exact h.of_eq rfl rfl

theorem MemWf.execCsrrd (h : MemWf s) {f : F64} : OutcomeWf (execCsrrd c f s) := by
  refine h.groupWide fun x hx => ?_
  split
  · exact hx
  · exact Res.Wf.ite hx (hx.releasedAll hx)

theorem MemWf.execCsrwr (h : MemWf s) {f : F64} : OutcomeWf (execCsrwr c f s) := by
  refine h.groupWide fun x hx => ?_
  dsimp only
  split
  · exact hx
  split
  · exact hx
  · exact hx
  · next e => exact Res.Wf.ite hx (hx.releasedAll (hx.csrWrite.done e).l1Acquire)

theorem MemWf.outerWrite (h : MemWf s) {who : Agent} {r : Csr} {v : Word} : MemWf (s.outerWrite who r v) := by
  unfold State.outerWrite
  split
  · next e => exact h.csrWrite.done e
  · exact h.violation
  · exact h.ite h.violation

theorem MemWf.execCsrWrite (h : MemWf s) {who : Agent} {v : Word} : OutcomeWf (execCsrWrite who addr n v s) := by
  refine h.event (.some ?_)
  split
  · exact h.outerWrite
  · exact h.violation

theorem MemWf.execTncfgWrite (h : MemWf s) {who : Agent} {v : Word} : OutcomeWf (execTncfgWrite who ten n v s) :=
  h.event (OptionWf.ite (.some h.outerWrite) .none)

theorem MemWf.execDeadpeerClear (h : MemWf s) {who : Agent} {v : Word} : OutcomeWf (execDeadpeerClear who n v s) :=
  h.event (OptionWf.ite (.some h.outerWrite) .none)

theorem MemWf.csrFor (h : MemWf s) {b : Bool} : MemWf (s.csrFor b addr n).1 := by
  unfold State.csrFor
  split
  · exact h
  · exact h.violation

theorem MemWf.execCsrHostRead (h : MemWf s) : OutcomeWf (execCsrHostRead addr n s) := h.event (.some (h.csrFor.emit _))

theorem MemWf.mcRead (h : MemWf s) : MemWf (s.mcRead addr n) := h.csrFor.emit _

theorem MemWf.hostRead (h : MemWf s) {bar : Nat} : MemWf (s.hostRead bar addr n) := (h.emit _).ite ((h.csrFor.emit _).ite (h.emit _))

/-! ### Fault answers and the scratchpad's page table -/

theorem MemWf.execSret (h : MemWf s) {f : F64} : OutcomeWf (execSret c f s) := by
  refine h.groupWide fun x hx => ?_
  dsimp only
  refine Res.Wf.ite hx (Res.Wf.ite hx ?_)
  split
  · next e => exact hx.xlateAll.fault e
  · next e => exact hx.xlateAll.wait e
  · exact hx
  · exact Res.Wf.ite hx (Res.Wf.ite hx (hx.released hx.answer))

theorem MemWf.execFaultAnswerWrite (h : MemWf s) {bs : List Byte} : OutcomeWf (execFaultAnswerWrite ten addr bs s) :=
  h.event (OptionWf.ite .none (.some (h.answer.ite (h.modTen _ _))))

theorem MemWf.teamAddr (hx : MemWf x.s) {k : Res} (hk : k.Wf) : (x.teamAddr addr n k).Wf := Res.Wf.ite hx (hx.released hk)

theorem MemWf.stbDrop (h : MemWf s) {pages : List Nat} : MemWf (s.stbDrop tid pages) := h.of_eq rfl rfl

theorem MemWf.execStbinv (h : MemWf s) {f : F64} : OutcomeWf (execStbinv c f s) := h.groupWide fun _ hx => hx.teamAddr hx.stbDrop

theorem MemWf.remap (h : MemWf s) {page back : Nat} {hdr : Option Nat} : MemWf (s.remap tid page back hdr) := by
  have hd : MemWf (match s.frameOf tid page with | some f => s.dropFrame f false | none => s) := by
    split
    · exact h.dropFrame _ _
    · exact h
  unfold State.remap
  dsimp only
  split
  · exact (hd.l0Mod _ _ _).wrMem _ _ _
  · exact hd.l0Mod _ _ _

theorem MemWf.execSpmap (h : MemWf s) {f : F64} : OutcomeWf (execSpmap c f s) := h.groupWide fun _ hx => Res.Wf.ite hx (hx.teamAddr hx.remap)

theorem MemWf.execSpunmap (h : MemWf s) {f : F64} : OutcomeWf (execSpunmap c f s) := by
  refine h.groupWide fun x hx => hx.teamAddr ?_
  show MemWf _
  split
  · exact (hx.l0Mod _ _ _).dropFrame _ _
  · exact hx.l0Mod _ _ _

end Privileged

end Sys2Proof

namespace Sys2Proof

open Machine Host

/-! ## Key slots, candidate queues and filters -/

section Search

variable {s : State} {x : Ctx} {c : Ctl} {g core tid addr base n tag : Nat}

theorem MemWf.askAll (hx : MemWf x.s) {as : List Acc} : MemWf (x.askAll tag as).2 := by
  refine MemWf.foldl_snd hx fun r a hr => ?_
  split
  · split
    · exact hr
    · exact hr.askLine
    · exact hr
  · exact hr

theorem MemWf.asking (hx : MemWf x.s) {as : List Acc} {k : State → Res} (hk : ∀ t, MemWf t → (k t).Wf) : (x.asking tag as k).Wf :=
  Res.Wf.ite (hk _ hx.askAll) hx.askAll

theorem MemWf.readAll (h : MemWf s) {as : List Acc} : MemWf (x.readAll s tag as).2 := by
  refine MemWf.foldl_snd h fun r a hr => ?_
  dsimp only
  split
  · exact hr
  · exact hr.l1Read

theorem MemWf.kvLanes (h : MemWf s) {f : F64} {da : List Acc} {bs : List Byte} : (x.kvLanes f s da bs).Wf := by
  unfold Ctx.kvLanes
  dsimp only
  refine Res.Wf.ite h ?_
  split
  · exact h
  refine MemWf.access (x := { x with s := _ }) h.l1Acquire fun ls => Res.Wf.ite h ?_
  split
  · exact h
  · exact MemWf.asking (x := { x with s := _ }) h.l1Acquire fun t ht => ht.readAll.unask

theorem MemWf.execKvslot (h : MemWf s) {f : F64} : OutcomeWf (execKvslot c f s) := by
  refine h.word fun x hx => ?_
  dsimp only
  refine Res.Wf.ite hx (Res.Wf.ite hx (Res.Wf.ite hx ?_))
  split
  · exact hx
  refine Res.Wf.ite hx (hx.access fun ls => Res.Wf.ite hx ?_)
  split
  · exact hx
  · exact hx.asking fun t ht => ht.readAll.kvLanes

theorem MemWf.execHamd (h : MemWf s) {f : F64} : OutcomeWf (execHamd c f s) := h.word fun _ hx => hx

theorem MemWf.cqWrite (h : MemWf s) {q : CQ} : MemWf (s.cqWrite tid addr q) := (h.spWrite _ _ _).spWrite _ _ _

theorem MemWf.bringQueue (h : MemWf s) {q : CQ} : (s.bringQueue core tid addr q).Wf := by
  unfold State.bringQueue
  split
  · next e =>
    split
    · exact h.bring.ok e
    · exact h.bring.ok e
  · exact h.bring

theorem MemWf.cq (hx : MemWf x.s) {f : F64} {k : State → Nat → CQ → Res} (hk : ∀ t a q, MemWf t → (k t a q).Wf) : (x.cq f k).Wf := by
  unfold Ctx.cq
  dsimp only
  split
  · exact hx
  refine Res.Wf.ite hx ?_
  split
  · next e => exact (hx.bringRead.starve e).starve
  · next e => exact hx.bringRead.bad e
  next s1 _ e =>
  have h1 : MemWf s1 := hx.bringRead.ok e
  split
  · exact h1
  split
  · exact h1
  split
  · next e => exact (h1.bringQueue.starve e).starve
  · next e => exact h1.bringQueue.bad e
  next s2 _ e =>
  have h2 : MemWf s2 := h1.bringQueue.ok e
  split
  · exact hk _ _ _ h2
  · exact h2

theorem MemWf.execCqInit (h : MemWf s) {f : F64} : OutcomeWf (execCqInit c f s) := by
  refine h.groupWide fun x hx => ?_
  dsimp only
  refine Res.Wf.ite hx ?_
  split
  · exact hx
  refine Res.Wf.ite hx ?_
  split
  · next e => exact (hx.bring.starve e).starve
  · next e => exact hx.bring.bad e
  · next e => exact (hx.bring.ok e).spWrite _ _ _

theorem MemWf.execCqPush (h : MemWf s) {f : F64} : OutcomeWf (execCqPush c f s) := h.groupWide fun _ hx => hx.cq fun _ _ _ ht => ht.cqWrite
theorem MemWf.execCqPop (h : MemWf s) {f : F64} : OutcomeWf (execCqPop c f s) := h.groupWide fun _ hx => hx.cq fun _ _ _ ht => ht.cqWrite
theorem MemWf.execCqTop (h : MemWf s) {f : F64} : OutcomeWf (execCqTop c f s) := h.groupWide fun _ hx => hx.cq fun _ _ _ ht => ht

theorem MemWf.execVfTest (h : MemWf s) {f : F64} : OutcomeWf (execVfTest c f s) := by
  refine h.groupWide fun x hx => ?_
  dsimp only
  split
  · exact hx
  refine Res.Wf.ite hx ?_
  split
  · next e => exact ((hx.spRounds fun _ _ _ hs => hs.ite hs.spWrite1).starve e).starve
  · next e => exact (hx.spRounds fun _ _ _ hs => hs.ite hs.spWrite1).bad e
  · next e => exact (hx.spRounds fun _ _ _ hs => hs.ite hs.spWrite1).ok e

theorem MemWf.execGwalk (h : MemWf s) {f : M96} : OutcomeWf (execGwalk c f s) := by
  refine h.groupWide fun x hx => ?_
  dsimp only
  refine Res.Wf.ite hx (Res.Wf.ite hx (Res.Wf.ite hx (Res.Wf.ite hx ?_)))
  split
  · next e => exact (hx.bringRead.starve e).starve
  · next e => exact hx.bringRead.bad e
  next s1 _ e =>
  have h1 : MemWf s1 := hx.bringRead.ok e
  refine Res.Wf.ite h1 ?_
  split
  · exact h1
  split
  · next e => exact (h1.bringRead.starve e).starve
  · next e => exact h1.bringRead.bad e
  next s2 _ e =>
  have h2 : MemWf s2 := h1.bringRead.ok e
  split
  · split
    · exact h2
    · exact h2.modCore _ _
  · exact h2

end Search

/-! ## The graph walk -/

/-- A walk step's part: what it fails with and the step it answers are canonical; `v` is the value it answers beside the step. -/
def WalkWf {α : Type} (r : Except WFail (α × WStep)) : Prop := ExceptWf WFail.Wf (fun v => MemWf v.2.s) r

/-- A part of a walk step that answers no value. -/
def StepWf (r : Except WFail WStep) : Prop := ExceptWf WFail.Wf (fun x => MemWf x.s) r

section Walk

variable {s : State} {e : WalkAt} {x : WStep} {va n g core tid base addr : Nat} {hdr : Bool}

theorem MemWf.walkLine (hx : MemWf x.s) : ExceptWf WFail.Wf (fun _ => True) (e.line x va) := by
  unfold WalkAt.line
  dsimp only
  split
  · exact hx.atsForget
  · trivial
  · exact hx
  · exact hx.pendWalk_getD
  · exact hx.pendWalk_getD
  · exact hx.atsAsk
  · trivial

theorem ExceptWf.mapM {ε α β : Type} {P : ε → Prop} {f : α → Except ε β} (hf : ∀ a, ExceptWf P (fun _ => True) (f a)) (l : List α) :
    ExceptWf P (fun _ => True) (l.mapM f) := by
  induction l with
  | nil => trivial
  | cons a l ih =>
    rw [List.mapM_cons]
    exact (hf a).bind fun _ _ => ih.bind fun _ _ => trivial

theorem MemWf.walkLines (hx : MemWf x.s) {ps : List (Nat × Nat)} : ExceptWf WFail.Wf (fun _ => True) (e.lines x ps) := by
  unfold WalkAt.lines
  extract_lets translated
  have ht : ExceptWf WFail.Wf (fun _ => True) (translated ()) := by
    refine ExceptWf.bind (Q := fun _ => True) (ExceptWf.mapM (fun p => hx.walkLine.map fun _ _ => trivial) ps) fun ls _ => ?_
    refine ExceptWf.bind (Q := fun _ => True) (ExceptWf.mapM (fun p => ?_) ls) fun ls _ => ?_
    · split
      · exact hx
      · trivial
    · split
      · exact hx
      · exact ExceptWf.ite hx trivial
  split
  · exact hx
  · exact ht

theorem MemWf.walkFetch (hx : MemWf x.s) {l : XLine} : WalkWf (e.fetch hdr l va n x) := by
  unfold WalkAt.fetch
  dsimp only
  split
  · split
    · exact hx
    · exact hx.askLine
    · exact hx
  refine ExceptWf.ite ?_ hx.l1Read
  show MemWf _
  dsimp only
  split
  · exact hx.touch _ _ _
  · exact hx

theorem MemWf.walkRead (hx : MemWf x.s) : WalkWf (e.read hdr va n x) := by
  unfold WalkAt.read
  extract_lets pieces fresh
  have hf : WalkWf (fresh ()) := by
    refine hx.walkLines.bind fun ls _ => ?_
    refine ExceptWf.bind (Q := fun b : List Byte × WStep => MemWf b.2.s)
      (ExceptWf.foldlM (fun b p hb => hb.walkFetch.bind fun _ ht => ht) _ hx) fun y hy => ?_
    exact MemWf.ite hy.forget.l1Acquire hy.forget
  split
  · exact ExceptWf.ite hx hf
  · exact hf

theorem MemWf.walkHeader (hx : MemWf x.s) {node : Nat} : WalkWf (e.header node x) :=
  ExceptWf.ite (hx.walkRead.map fun _ hb => hb) hx

theorem MemWf.walkVfBit (hx : MemWf x.s) {k : Nat} : WalkWf (e.vfBit k x) := by
  unfold WalkAt.vfBit
  split
  · next e => exact hx.bringRead.starve e
  · next e => exact hx.bringRead.bad e
  · next e => exact hx.bringRead.ok e

theorem MemWf.walkEdge (hx : MemWf x.s) {query m : Nat} : StepWf (e.edge query m x) := by
  refine ExceptWf.ite hx (hx.walkVfBit.bind fun a ha => ExceptWf.ite ha ?_)
  refine ExceptWf.bind (Q := fun v : (Nat × Nat) × WStep => MemWf v.2.s) (MemWf.walkHeader ?_) fun b hb => ExceptWf.ite hb ?_
  · exact ha
  exact hb.walkRead.bind fun d hd => ExceptWf.ite hd hd

theorem MemWf.walkAll (hx : MemWf x.s) : StepWf (e.step x) := by
  unfold WalkAt.step
  dsimp only
  split
  · exact hx
  refine ExceptWf.ite hx (ExceptWf.bind (Q := fun v : (Nat × Nat) × WStep => MemWf v.2.s) (MemWf.walkHeader ?_) fun a ha => ExceptWf.ite ha ?_)
  · exact hx
  exact ha.walkRead.bind fun b hb => ExceptWf.foldlM (fun _ _ hy => hy.walkEdge) _ hb

theorem MemWf.walkPut (hx : MemWf x.s) (h : MemWf s) {pages : List Nat} {f : State → State} (hf : ∀ t, MemWf t → MemWf (f t)) :
    ExceptWf WFail.Wf MemWf (e.put x s pages f) := by
  unfold WalkAt.put
  split
  · next r => exact hf _ (h.bring.ok r)
  · exact hx
  · exact hx

theorem MemWf.walkCommit (hx : MemWf x.s) : ExceptWf WFail.Wf MemWf (e.commit x) := by
  refine (hx.walkPut hx fun _ ht => ht.cqWrite).bind fun s1 h1 => ?_
  refine (hx.walkPut h1 fun _ ht => ht.cqWrite).bind fun s2 h2 => ?_
  exact ExceptWf.foldlM (fun _ _ ht => hx.walkPut ht fun _ hu => hu.spWrite1) _ h2

theorem MemWf.walkBring (h : MemWf s) : (s.walkBring core tid base addr).Wf := by
  unfold State.walkBring
  split
  · next e => exact h.bringRead.starve e
  · next e => exact h.bringRead.bad e
  next s1 _ e =>
  have h1 : MemWf s1 := h.bringRead.ok e
  dsimp only
  split
  · next e => exact h1.bringRead.starve e
  · next e => exact h1.bringRead.bad e
  next s2 _ e =>
  have h2 : MemWf s2 := h1.bringRead.ok e
  split
  · split
    · next e => exact h2.bring.starve e
    · next e => exact h2.bring.bad e
    next s3 _ e =>
    have h3 : MemWf s3 := h2.bring.ok e
    split
    · exact h3
    · exact h3
  · exact h2

theorem MemWf.walkDrop (h : MemWf s) {who : Nat} {f : Machine.Core → Machine.Core} : MemWf ((s.forget .swLoad who).modCore core f) := h.forget.modCore _ _

theorem MemWf.walkStep (h : MemWf s) {o : OWord} {stop : Bool} : MemWf (s.walkStep g o stop) := by
  unfold State.walkStep
  split
  case h_2 => exact h
  next addr n done dist d brec scope todo _ =>
  extract_lets G tid t base drop fault finish later wait
  have hfault : ∀ t code va info, MemWf t → MemWf (fault t code va info) := fun _ _ _ _ ht => ht.walkDrop.takeBack.groupFault
  have hfinish : ∀ t done dist fin, MemWf t → MemWf (finish t done dist fin) := fun _ _ _ _ ht => ht.walkDrop.complete
  have hlater : ∀ t done dist keep, MemWf t → MemWf (later t done dist keep) := fun _ _ _ _ ht => ht.modGroup _ _
  clear_value finish later
  have hwait : ∀ t ps keep, MemWf t → MemWf (wait t ps keep) := fun _ _ _ ht =>
    (hfinish _ _ _ _ ht).ite ((hlater _ _ _ _ ht).ite (hlater _ _ _ _ ht).starveWait)
  clear_value drop fault wait
  split
  · next e => exact hwait _ _ _ (h.walkBring.starve e)
  · next e => exact hfault _ _ _ _ (h.walkBring.bad e)
  · next e => exact hfault _ _ _ _ (h.walkBring.ok e)
  next s1 w q rq e =>
  have h1 : MemWf s1 := h.walkBring.ok e
  extract_lets e
  have hr : ∀ x : WStep, MemWf x.s → ExceptWf WFail.Wf (fun r : WStep × State => MemWf r.2)
      (do let x ← e.step x; pure (x, ← e.commit x)) :=
    fun x hx => hx.walkAll.bind fun y hy => hy.walkCommit.bind fun _ ht => ht
  have hs := hr ⟨s1, q, rq, [], 0, false, [], todo⟩ h1
  split
  · next r => exact hwait _ _ _ (hs.error r)
  · next r => exact hwait _ _ _ (hs.error r)
  · next r => exact hfault _ _ _ _ (hs.error r)
  · next r => exact (hfinish _ _ _ _ (hs.ok r)).ite (hlater _ _ _ _ (hs.ok r))

theorem MemWf.execGwalkStep (h : MemWf s) {stop : Bool} : OutcomeWf (execGwalkStep core stop s) := by
  refine h.event ?_
  split
  · exact .none
  split
  · exact .some (h.modCore _ _)
  · exact .some (h.modCore _ _).walkStep

end Walk

end Sys2Proof

namespace Sys2Proof

open Machine Host

/-! ## One instruction or event -/

/-- What an instruction or an event leaves has canonical memory: a word of fixed latency through `fixedWord`, an event of a group
alone through `onGroup`, every other one by the rule of its own. -/
theorem MemWf.exec {s : State} (h : MemWf s) (i : Instr) : OutcomeWf (exec i s) := by
  unfold Machine.exec
  cases i with
  | vote | ballot | elect | sadd | ssub | smul | smulh | sdiv | srem | sand | sor | sxor | sshl | sshr | ssar | smin | smax
  | scmp | ssel | smov | smovi | slea | spopc | sclz | sffs | sr | add | sub | mul | mulh | mad | abs | neg | min | max
  | and | or | xor | andn | not | shl | shr | sar | rot | bfe | bfi | popc | clz | ffs | brev | cmp | sel | mov | movi
  | cvti | addsat | subsat | avg | sad | dp4 | fadd | fsub | fmul | ffma | fmin | fmax | fcmp | fclass | frcp | frsq | fexp2
  | flog2 | fsqrt | frnd | fcvt | f2i | i2f | fpack | funpk | shfl | bcast | red | scan | matchLanes | compact | bfpcvt
  | bfpexpGet | bfpexpSet | plpack | plunpk | prec | precExp | ptrunc => exact h.fixedWord
  | nop => exact h.execNop
  | bra => exact h.execBra
  | brc => exact h.execBrc
  | brx => exact h.execBrx
  | call => exact h.execCall
  | callx => exact h.execCallx
  | ret => exact h.execRet
  | exit => exact h.execExit
  | meet => exact h.execMeet
  | meetw => exact h.execMeetw
  | refill => exact h.execRefill
  | done => exact h.execDone
  | yield => exact h.execYield
  | tokpass => exact h.execTokpass
  | tokwait => exact h.execTokwait
  | spawn => exact h.execSpawn
  | joinc => exact h.execJoinc
  | iqPush => exact h.execIqPush
  | iqLoad => exact h.execIqLoad
  | iqCount => exact h.execIqCount
  | ufc => exact h.execUfc
  | ufcClr => exact h.execUfcClr
  | brecSet => exact h.execBrecSet
  | brecGet => exact h.execBrecGet
  | brecx => exact h.execBrecx
  | bchk => exact h.execBchk
  | ld => exact h.execLd
  | st => exact h.execSt
  | ldpl => exact h.execLdpl
  | ldrf => exact h.execLdrf
  | stpl => exact h.execStpl
  | lds => exact h.execLds
  | sts => exact h.execSts
  | ldsr => exact h.execLdsr
  | stsr => exact h.execStsr
  | atom => exact h.execAtom
  | atoms => exact h.execAtoms
  | fenceAr => exact h.execFenceAr
  | fenceAcq => exact h.execFenceAcq
  | fenceRel => exact h.execFenceRel
  | fenceSysAll => exact h.execFenceSysAll
  | pref => exact h.execPref
  | spin => exact h.execSpin
  | sunpin => exact h.execSunpin
  | fmtset => exact h.execFmtset
  | mma => exact h.execMma
  | accZero => exact h.execAccZero
  | accRd => exact h.execAccRd
  | accRdx => exact h.execAccRdx
  | accMax => exact h.execAccMax
  | accScl => exact h.execAccScl
  | accLd => exact h.execAccLd
  | accDrn => exact h.execAccDrn
  | kvslot => exact h.execKvslot
  | hamd => exact h.execHamd
  | gwalk => exact h.execGwalk
  | cqInit => exact h.execCqInit
  | cqPush => exact h.execCqPush
  | cqPop => exact h.execCqPop
  | cqTop => exact h.execCqTop
  | vfTest => exact h.execVfTest
  | pcopy => exact h.execPcopy
  | pcopyRf => exact h.execPcopyRf
  | pstore => exact h.execPstore
  | pfill => exact h.execPfill
  | pxform => exact h.execPxform
  | qfence => exact h.execQfence
  | qmark => exact h.execQmark
  | qwait => exact h.execQwait
  | csend => exact h.execCsend
  | cput => exact h.execCput
  | cget => exact h.execCget
  | catom => exact h.execCatom
  | arrset => exact h.execArrset
  | arrwait => exact h.execArrwait
  | lease => exact h.execLease
  | lrel => exact h.execLrel
  | lqry => exact h.execLqry
  | barArv => exact h.execBarArv
  | barWt => exact h.execBarWt
  | barSync => exact h.execBarSync
  | feWait => exact h.execFeWait
  | assert => exact h.execAssert
  | brk => exact h.execBrk
  | csrrd => exact h.execCsrrd
  | csrwr => exact h.execCsrwr
  | sret => exact h.execSret
  | stbinv => exact h.execStbinv
  | spmap => exact h.execSpmap
  | spunmap => exact h.execSpunmap
  | chkOn => exact h.execChkOn
  | chkOff => exact h.execChkOff
  | paired => exact h.execPaired
  | fairnessTimerExpiry => exact h.onGroup
  | issueStarvationPromotion => exact h.onGroup
  | meetingRelease => exact h.onGroup
  | meetwRelease => exact h.onGroup
  | stuckGroupRelease => exact h.onGroup
  | refillAttempt => exact h.execRefillAttempt
  | groupRetire => exact h.execGroupRetire
  | loadDataLand => exact h.execLoadDataLand
  | storeAck => exact h.execStoreAck
  | memUncorrectableLate => exact h.execMemUncorrectableLate
  | multiplyPipePerform => exact h.execMultiplyPipePerform
  | accPortPerform => exact h.execAccPortPerform
  | drainGranuleLand => exact h.execDrainGranuleLand
  | pageFill => exact h.execPageFill
  | spadStarvedTimeout => exact h.execSpadStarvedTimeout
  | feLaneAttempt => exact h.execFeLaneAttempt
  | feWaitSatisfy => exact h.execFeWaitSatisfy
  | barWaitRelease => exact h.execBarWaitRelease
  | tokwaitTake => exact h.execTokwaitTake
  | qwaitSatisfy => exact h.execQwaitSatisfy
  | pcopyPerform => exact h.execPcopyPerform
  | pcopyRfPerform => exact h.execPcopyRfPerform
  | pstorePerform => exact h.execPstorePerform
  | pfillPerform => exact h.execPfillPerform
  | pxformRoutineRun => exact h.execPxformRoutineRun
  | qmarkPerform => exact h.execQmarkPerform
  | gwalkStep => exact h.execGwalkStep
  | packetArrival => exact h.execPacketArrival
  | packetAck => exact h.execPacketAck
  | fabricRequestArrival => exact h.execFabricRequestArrival
  | forwardedAccessArrival => exact h.execForwardedAccessArrival
  | sourceTimeout => exact h.execSourceTimeout
  | fecLockLossTimeout => exact h.execFecLockLossTimeout
  | arrwaitSatisfy => exact h.execArrwaitSatisfy
  | arrwaitTimeout => exact h.execArrwaitTimeout
  | leaseLanesLive => exact h.execLeaseLanesLive
  | leaseExpiry => exact h.execLeaseExpiry
  | laneReclaim => exact h.execLaneReclaim
  | laneRetuneDone => exact h.execLaneRetuneDone
  | tuningTimeout => exact h.execTuningTimeout
  | laneRelockAttempt => exact h.execLaneRelockAttempt
  | laneLossOfLock => exact h.execLaneLossOfLock
  | flitRetransmit => exact h.execFlitRetransmit
  | launchWindowWrite => exact h.execLaunchWindowWrite
  | launchDatagram => exact h.execLaunchDatagram
  | mcSubmit => exact h.execMcSubmit
  | admissionDecision => exact h.execAdmissionDecision
  | preemptBand => exact h.execPreemptBand
  | preemptProgress => exact h.execPreemptProgress
  | preemptThermal => exact h.execPreemptThermal
  | teamSaved => exact h.execTeamSaved
  | launchCompletion => exact h.execLaunchCompletion
  | faultAnswerWrite => exact h.execFaultAnswerWrite
  | uncontainedFault => exact h.execUncontainedFault
  | storageErrorDetect => exact h.execStorageErrorDetect
  | poisonEntryClear => exact h.execPoisonEntryClear
  | errorCounterClear => exact h.execErrorCounterClear
  | tncfgWrite => exact h.execTncfgWrite
  | deadpeerClear => exact h.execDeadpeerClear
  | csrWrite => exact h.execCsrWrite
  | shootdownLocal => exact h.execShootdownLocal
  | shootdownRosPurge => exact h.execShootdownRosPurge
  | shootdownComplete => exact h.execShootdownComplete
  | rosPurgeReceive => exact h.execRosPurgeReceive
  | pageWalk => exact h.execPageWalk
  | atsCompletion => exact h.execAtsCompletion
  | priResponse => exact h.execPriResponse
  | invalidateRequest => exact h.execInvalidateRequest
  | invalidateCompletion => exact h.execInvalidateCompletion
  | accessCounterWrite => exact h.execAccessCounterWrite
  | missedClear => exact h.execMissedClear
  | burstCrcFail => exact h.execBurstCrcFail
  | stackTraining => exact h.execStackTraining
  | refreshTick => exact h.execRefreshTick
  | heartbeatMiss => exact h.execHeartbeatMiss
  | hbmBurstServe => exact h.execHbmBurstServe
  | thermalSample => exact h.execThermalSample
  | thermalPowerDown => exact h.execThermalPowerDown
  | powerOnReset => exact h.execPowerOnReset
  | railsInRange => exact h.execRailsInRange
  | hbmTrainingDone => exact h.execHbmTrainingDone
  | opticalCalibrationDone => exact h.execOpticalCalibrationDone
  | pcieLinkUp => exact h.execPcieLinkUp
  | ethernetLinkDone => exact h.execEthernetLinkDone
  | baseLaneDeadTimeout => exact h.execBaseLaneDeadTimeout
  | measurementExtend => exact h.execMeasurementExtend
  | attestationRequest => exact h.execAttestationRequest
  | reportReady => exact h.execReportReady
  | registerCacheFill => exact h.execRegisterCacheFill
  | eyeRecentreDone => exact h.execEyeRecentreDone
  | priEnable => exact h.execPriEnable
  | frontPortLinkChange => exact h.execFrontPortLinkChange
  | csrHostRead => exact h.execCsrHostRead

/-- An internal event is the event of its name. -/
theorem MemWf.chore {s : State} (h : MemWf s) (c : Chore) : OutcomeWf (c.run s) := by
  unfold Chore.run
  cases c with
  | fairnessTimerExpiry => exact h.onGroup
  | issueStarvationPromotion => exact h.onGroup
  | meetingRelease => exact h.onGroup
  | meetwRelease => exact h.onGroup
  | stuckGroupRelease => exact h.onGroup
  | refillAttempt => exact h.execRefillAttempt
  | groupRetire => exact h.execGroupRetire
  | loadDataLand => exact h.execLoadDataLand
  | storeAck => exact h.execStoreAck
  | multiplyPipePerform => exact h.execMultiplyPipePerform
  | accPortPerform => exact h.execAccPortPerform
  | drainGranuleLand => exact h.execDrainGranuleLand
  | pageFill => exact h.execPageFill
  | spadStarvedTimeout => exact h.execSpadStarvedTimeout
  | feLaneAttempt => exact h.execFeLaneAttempt
  | feWaitSatisfy => exact h.execFeWaitSatisfy
  | barWaitRelease => exact h.execBarWaitRelease
  | tokwaitTake => exact h.execTokwaitTake
  | qwaitSatisfy => exact h.execQwaitSatisfy
  | pcopyPerform => exact h.execPcopyPerform
  | pcopyRfPerform => exact h.execPcopyRfPerform
  | pstorePerform => exact h.execPstorePerform
  | pfillPerform => exact h.execPfillPerform
  | pxformRoutineRun => exact h.execPxformRoutineRun
  | qmarkPerform => exact h.execQmarkPerform
  | gwalkStep => exact h.execGwalkStep
  | sourceTimeout => exact h.execSourceTimeout
  | fecLockLossTimeout => exact h.execFecLockLossTimeout
  | arrwaitSatisfy => exact h.execArrwaitSatisfy
  | arrwaitTimeout => exact h.execArrwaitTimeout
  | leaseLanesLive => exact h.execLeaseLanesLive
  | leaseExpiry => exact h.execLeaseExpiry
  | laneReclaim => exact h.execLaneReclaim
  | laneRetuneDone => exact h.execLaneRetuneDone
  | tuningTimeout => exact h.execTuningTimeout
  | laneRelockAttempt => exact h.execLaneRelockAttempt
  | flitRetransmit => exact h.execFlitRetransmit
  | admissionDecision => exact h.execAdmissionDecision
  | preemptBand => exact h.execPreemptBand
  | preemptProgress => exact h.execPreemptProgress
  | preemptThermal => exact h.execPreemptThermal
  | teamSaved => exact h.execTeamSaved
  | launchCompletion => exact h.execLaunchCompletion
  | shootdownComplete => exact h.execShootdownComplete
  | baseLaneDeadTimeout => exact h.execBaseLaneDeadTimeout
  | pageWalk => exact h.execPageWalk
  | invalidateCompletion => exact h.execInvalidateCompletion
  | thermalPowerDown => exact h.execThermalPowerDown
  | hbmTrainingDone => exact h.execHbmTrainingDone
  | opticalCalibrationDone => exact h.execOpticalCalibrationDone
  | reportReady => exact h.execReportReady
  | registerCacheFill => exact h.execRegisterCacheFill

/-! ## The step around it -/

section Step

variable {s : State} {g core : Nat} {pc : Word} {i : Instr}

theorem MemWf.settleAll (h : MemWf s) : MemWf (settleAll s) := by
  unfold Machine.settleAll
  extract_lets s1 s2 s3
  have h1 : MemWf s1 := h.foldl fun _ _ ht => ht.ite ht.fqFlush
  have h2 : MemWf s2 := h1.foldl fun _ _ ht => ht.ite ht.takeJoin
  have h3 : MemWf s3 := MemWf.finishTeams (h2.foldl fun _ _ ht => ht.closeFences)
  refine h3.ackPurges.foldl fun t g ht => ?_
  dsimp only
  split
  · exact ht.sendHeld.finishStop
  · exact ht.sendHeld.haltStop
  · exact ht.sendHeld

theorem MemWf.tick (h : MemWf s) : MemWf (tick s) := by
  unfold Machine.tick
  extract_lets settled
  have hs : MemWf settled := h.settleAll.noteBase
  exact hs.of_eq rfl rfl

theorem MemWf.gateCount (h : MemWf s) : MemWf (s.gateCount core) := h.modCore _ _

theorem MemWf.fetchTrap (h : MemWf s) {code va : Nat} {size : Option Nat} : MemWf (fetchTrap s g pc code va size) := by
  cases size with
  | none => exact h.draw.groupFault
  | some n => exact h.groupFault

theorem MemWf.issueAt (h : MemWf s) : OutcomeWf (issueAt Machine.exec g pc s) := by
  unfold Machine.issueAt
  dsimp only
  split
  · next e => exact .next (h.fetch.wait e).stallAt
  · next e => exact .next (h.fetch.trap e).fetchTrap
  · exact MemWf.exec (s := { s with cur := some (g, pc) }) (h.of_eq rfl rfl) _

theorem MemWf.hostStore (h : MemWf s) {pa : Nat} {bs : List Byte} : MemWf (hostStore s pa bs) := h.ite (h.homeWrite _ _ _)

theorem MemWf.heldOff (h : MemWf s) : MemWf (heldOff s i) := by
  unfold Machine.heldOff
  split
  · exact h.hostRead
  · exact h

theorem MemWf.noteReady (h : MemWf s) {s0 : State} : MemWf (s0.noteReady Machine.exec g s) := h.of_eq rfl rfl

theorem MemWf.afterIssue (h : MemWf s) {s0 : State} : MemWf (afterIssue Machine.exec s0 g pc s) :=
  h.ite ((h.gateCount.modGroup _ _).ite h.gateCount).noteReady

theorem OutcomeWf.onNext {f : State → State} {o : Outcome State Fault Refusal} (ho : OutcomeWf o) (hf : ∀ t, MemWf t → MemWf (f t)) :
    OutcomeWf (onNext f o) := by
  cases o with
  | next t => exact .next (hf t (ho t rfl))
  | fault r => exact .fault
  | refused r => exact .refused

theorem OutcomeWf.ite {p : Prop} [Decidable p] {a b : Outcome State Fault Refusal} (ha : OutcomeWf a) (hb : OutcomeWf b) :
    OutcomeWf (if p then a else b) := by
  split
  · exact ha
  · exact hb

theorem MemWf.runEvent (h : MemWf s) : OutcomeWf (runEvent i s) := (h.exec i).onNext fun _ ht => ht.tick

theorem MemWf.runChore (h : MemWf s) {c : Chore} : OutcomeWf (runChore c s) := (h.chore c).onNext fun _ ht => ht.tick

theorem OutcomeWf.afterLook {o : Outcome State Fault Refusal} (ho : OutcomeWf o) : OutcomeWf (afterLook g pc s o) :=
  ho.onNext fun _ ht => ht.afterIssue.tick

theorem MemWf.runIssue (h : MemWf s) : OutcomeWf (runIssue g pc s) := h.issueAt.afterLook

theorem MemWf.idle (h : MemWf s) : OutcomeWf (idle s) := .next h.tick

/-- A fragment found unready leaves a canonical state too, from which the next one is looked at. -/
theorem MemWf.runQuarters (h : MemWf s) (n : Nat) : OutcomeWf (runQuarters n s) := by
  induction n generalizing s with
  | zero => exact h.idle
  | succ n ih =>
    unfold Machine.runQuarters
    split
    · exact h.idle
    next g pc _ =>
    have hi : OutcomeWf (Machine.issueAt Machine.exec g pc s) := h.issueAt
    split
    · next t e => exact OutcomeWf.ite (ih (hi t e)) (OutcomeWf.next (hi t e)).afterLook
    · exact hi

theorem MemWf.hostMemStore (h : MemWf s) {a : Nat} {bs : List Byte} : MemWf { s with hostMem := Cells.writeN s.hostMem a bs } :=
  ⟨h.mem, Cells.writeN_wf h.host _ _⟩

theorem MemWf.runInput (h : MemWf s) (i : Input) : OutcomeWf (runInput s i) := by
  cases i with
  | event i => exact OutcomeWf.ite h.heldOff.idle h.runEvent
  | issue g pc => exact OutcomeWf.ite h.runIssue h.idle
  | hostStore pa bs => exact h.hostStore.idle
  | hostMemStore a bs => exact h.hostMemStore.idle
  | burst key ten => exact h.burst.idle
  | selfRefresh stack enter => exact h.selfRefresh.idle
  | heartbeat stack => exact h.heartbeat.idle
  | linkStatusRead => exact h.linkStatus.idle
  | hostRead bar off size => exact h.hostRead.idle
  | mcRead off size => exact h.mcRead.idle

theorem MemWf.runOff (h : MemWf s) (i : Input) : OutcomeWf (runOff s i) := by
  unfold Machine.runOff
  split
  · exact h.runEvent
  · exact h.hostMemStore.idle
  · exact h.idle

theorem MemWf.step (h : MemWf s) : OutcomeWf (step s) := by
  unfold Machine.step
  split
  · next i rest _ =>
    have hs : MemWf { s with inputs := rest } := h.of_eq rfl rfl
    exact OutcomeWf.ite (hs.runInput i) (hs.runOff i)
  refine OutcomeWf.ite h.idle ?_
  split
  · exact h.runChore
  · exact h.runQuarters _

end Step

/-- Settles O6: each instruction, each event and the bookkeeping of a cycle write memory through operations that keep its form. -/
theorem stepKeepsMemoryCanonical : Obligations.StepKeepsMemoryCanonical := by
  unfold Obligations.StepKeepsMemoryCanonical
  intro s t h e
  exact h.step t e

end Sys2Proof

/-! # The order of a step (01 R22, 22 R468, 23 R471; log 3, 6) -/

namespace Sys2Proof

open Machine

/-- What bring-up holds off changes nothing, or, a read of the host, is answered with all ones (23 R471). -/
theorem heldOff_cases {s : State} (i : Instr) (hh : s.boot.hold = true) :
    heldOff s i = s ∨ ∃ off size : Nat, i = .csrHostRead off size ∧ heldOff s i = s.emit (.hostReturn (-1#64)) := by
  cases i with
  | csrHostRead off size => exact .inr ⟨off, size, rfl, by simp [heldOff, State.hostRead, hh]⟩
  | _ => exact .inl rfl

theorem step_of_input {s : State} {i : Input} {rest : List Input} (hp : s.power = true) (hi : s.inputs = i :: rest) :
    step s = runInput { s with inputs := rest } i := by
  simp [step, hi, hp]

theorem step_of_input_off {s : State} {i : Input} {rest : List Input} (hp : s.power = false) (hi : s.inputs = i :: rest) :
    step s = runOff { s with inputs := rest } i := by
  simp [step, hi, hp]

theorem step_of_chore {s : State} {c : Chore} (hp : s.power = true) (hi : s.inputs = []) (hc : s.nextEvent = some c) :
    step s = onNext tick (c.run s) := by
  simp [step, hi, hp, hc, runChore]

/-- With no input and no event due, the fragments are looked at. -/
theorem step_of_no_event {s : State} (hp : s.power = true) (hi : s.inputs = []) (hc : s.nextEvent = none) :
    step s = runQuarters s.fragmentCount s := by
  simp [step, hi, hp, hc]

theorem runQuarters_of_pick_none {s : State} (hk : s.pick = none) (n : Nat) : runQuarters n s = .next (tick s) := by
  cases n with
  | zero => rfl
  | succ n => simp [runQuarters, hk, idle]

theorem runOff_event {s : State} {i : Instr} (hi : i ≠ .powerOnReset) : runOff s (.event i) = .next (tick s) := by
  unfold runOff
  split
  · next e => injection e with e; exact absurd e hi
  · next e => cases e
  · rfl

/-- Settles O9: `step` looks at its inputs, then at the event that is due, then at the fragments, and each clause is one of its branches. -/
theorem stepOrder : Obligations.StepOrder := by
  unfold Obligations.StepOrder
  refine ⟨fun s i rest hp hi => ⟨fun hfree => ?_, fun hhold hout => ?_⟩, fun s pa bs rest hp hhold hi => ?_,
    fun s c hp hi hc => step_of_chore hp hi hc, fun s hp hi hc hk => ?_, fun s hp hi => ?_, fun s i rest hp hi hne => ?_⟩
  · rw [step_of_input hp hi]
    rcases hfree with h | h <;> simp [runInput, h, runEvent]
  · refine ⟨heldOff { s with inputs := rest } i, ?_, heldOff_cases i hhold⟩
    rw [step_of_input hp hi]
    simp [runInput, hhold, hout, idle]
  · rw [step_of_input hp hi]
    simp [runInput, Machine.hostStore, hhold, idle]
  · rw [step_of_no_event hp hi hc, runQuarters_of_pick_none hk]
  · simp [step, hi, hp, idle]
  · rw [step_of_input_off hp hi, runOff_event hne]

end Sys2Proof

/-! # The encoding read back (06 R152-R157, R167-R172) -/

namespace Sys2Proof

/-! ## Fields of a word -/

theorem ofNat_eq_of_toNat {n w : Nat} {x : BitVec w} (h : n = x.toNat) : BitVec.ofNat w n = x := by
  rw [h, BitVec.ofNat_toNat, BitVec.setWidth_eq]

theorem bitAt_eq_of_mod {w i : Nat} {b : Bool} (h : w / 2 ^ i % 2 = b.toNat) : bitAt w i = b := by
  cases b <;> simp [bitAt, h]

theorem encodeCtl_lt (c : Ctl) {len : Nat} (hl : len < 4) : encodeCtl c len < 2 ^ 24 := by
  have := c.stall.isLt
  have := c.waitm.isLt
  have := c.setw.isLt
  have := c.pred.isLt
  have := c.rsv.isLt
  have := c.pneg.toNat_lt
  have := c.yld.toNat_lt
  unfold encodeCtl
  omega

/-- LEN stands in the lowest two bits (06 R152). -/
theorem bitsOf_len (c : Ctl) {len : Nat} (hl : len < 4) (k : Nat) : bitsOf (encodeCtl c len + k * 2 ^ 24) 0 2 = len := by
  unfold bitsOf encodeCtl
  omega

/-- What stands above bit 24 leaves the control field. -/
theorem decodeCtl_encodeCtl (c : Ctl) {len : Nat} (hl : len < 4) (k : Nat) : decodeCtl (encodeCtl c len + k * 2 ^ 24) = c := by
  obtain ⟨rsv, yld, pneg, pred, setw, waitm, stall⟩ := c
  have := rsv.isLt
  have := yld.toNat_lt
  have := pneg.toNat_lt
  have := pred.isLt
  have := setw.isLt
  have := waitm.isLt
  have := stall.isLt
  simp only [decodeCtl, encodeCtl, bitsOf, Ctl.mk.injEq]
  refine ⟨ofNat_eq_of_toNat ?_, bitAt_eq_of_mod ?_, bitAt_eq_of_mod ?_, ofNat_eq_of_toNat ?_, ofNat_eq_of_toNat ?_,
    ofNat_eq_of_toNat ?_, ofNat_eq_of_toNat ?_⟩ <;> omega

theorem decodeF64_encodeBody (f : F64) {lo : Nat} (h : lo < 2 ^ 34) : decodeF64 (lo + encodeBody (.f64 f)) = f := by
  obtain ⟨d, a, b, c, mod⟩ := f
  have := d.isLt
  have := a.isLt
  have := b.isLt
  have := c.isLt
  have := mod.isLt
  simp only [decodeF64, encodeBody, bitsOf, F64.mk.injEq]
  refine ⟨ofNat_eq_of_toNat ?_, ofNat_eq_of_toNat ?_, ofNat_eq_of_toNat ?_, ofNat_eq_of_toNat ?_, ofNat_eq_of_toNat ?_⟩ <;> omega

theorem decodeJ64_encodeBody (f : J64) {lo : Nat} (h : lo < 2 ^ 34) : decodeJ64 (lo + encodeBody (.j64 f)) = f := by
  obtain ⟨off, mod⟩ := f
  have := off.isLt
  have := mod.isLt
  simp only [decodeJ64, encodeBody, bitsOf, J64.mk.injEq]
  refine ⟨ofNat_eq_of_toNat ?_, ofNat_eq_of_toNat ?_⟩ <;> omega

theorem decodeM96_encodeBody (f : M96) {lo : Nat} (h : lo < 2 ^ 34) : decodeM96 (lo + encodeBody (.m96 f)) = f := by
  obtain ⟨d, a, b, c, mod, imm⟩ := f
  have := d.isLt
  have := a.isLt
  have := b.isLt
  have := c.isLt
  have := mod.isLt
  have := imm.isLt
  simp only [decodeM96, encodeBody, bitsOf, M96.mk.injEq]
  refine ⟨ofNat_eq_of_toNat ?_, ofNat_eq_of_toNat ?_, ofNat_eq_of_toNat ?_, ofNat_eq_of_toNat ?_, ofNat_eq_of_toNat ?_,
    ofNat_eq_of_toNat ?_⟩ <;> omega

theorem decodeW128_encodeBody (f : W128) {lo : Nat} (h : lo < 2 ^ 34) : decodeW128 (lo + encodeBody (.w128 f)) = f := by
  obtain ⟨d, a, b, c, mod, x, y⟩ := f
  have := d.isLt
  have := a.isLt
  have := b.isLt
  have := c.isLt
  have := mod.isLt
  have := x.isLt
  have := y.isLt
  simp only [decodeW128, encodeBody, bitsOf, W128.mk.injEq]
  refine ⟨ofNat_eq_of_toNat ?_, ofNat_eq_of_toNat ?_, ofNat_eq_of_toNat ?_, ofNat_eq_of_toNat ?_, ofNat_eq_of_toNat ?_,
    ofNat_eq_of_toNat ?_, ofNat_eq_of_toNat ?_⟩ <;> omega

/-- POP1 stands in two parts: two bits below POP0, and six above slot 0 (06 R167). -/
theorem decodePair_encodePair (p : Pair) {lo : Nat} (h : lo < 2 ^ 24) : decodePair (lo + encodePair p) = p := by
  obtain ⟨pop0, d0, a0, b0, c0, pop1, d1, a1, b1, c1⟩ := p
  have := pop0.isLt
  have := d0.isLt
  have := a0.isLt
  have := b0.isLt
  have := c0.isLt
  have := d1.isLt
  have := a1.isLt
  have := b1.isLt
  have := c1.isLt
  have hlow := Nat.mod_lt pop1.toNat (show 0 < 2 ^ 6 by decide)
  have hhigh : pop1.toNat / 2 ^ 6 < 4 := Nat.div_lt_of_lt_mul pop1.isLt
  have hpop : pop1.toNat % 2 ^ 6 + 2 ^ 6 * (pop1.toNat / 2 ^ 6) = pop1.toNat := Nat.mod_add_div _ _
  simp only [decodePair, encodePair, bitsOf, Pair.mk.injEq]
  refine ⟨ofNat_eq_of_toNat ?_, ofNat_eq_of_toNat ?_, ofNat_eq_of_toNat ?_, ofNat_eq_of_toNat ?_, ofNat_eq_of_toNat ?_,
    ofNat_eq_of_toNat (Eq.trans ?_ hpop), ofNat_eq_of_toNat ?_, ofNat_eq_of_toNat ?_, ofNat_eq_of_toNat ?_, ofNat_eq_of_toNat ?_⟩ <;>
  · clear hpop
    generalize pop1.toNat / 2 ^ 6 = high at hhigh ⊢
    generalize pop1.toNat % 2 ^ 6 = low at hlow ⊢
    omega

/-- A body begins above the opcode. -/
theorem encodeBody_eq (b : Body) : ∃ k, encodeBody b = k * 2 ^ 34 := by
  refine ⟨encodeBody b / 2 ^ 34, ?_⟩
  cases b <;> simp only [encodeBody] <;> omega

/-- A pair begins above the control field. -/
theorem encodePair_eq (p : Pair) : ∃ k, encodePair p = k * 2 ^ 24 := by
  refine ⟨encodePair p / 2 ^ 24, ?_⟩
  simp only [encodePair]
  omega

/-! ## The opcode map -/

/-- The table of the body's layout gives the instruction back at its opcode; the opcodes of 96 bits have bit 9 set, which keeps them from
a paired word's codes (06 R167, R171). -/
def InTable (i : Instr) (opc : Nat) (c : Ctl) : Body → Prop
  | .f64 f => opc < 1024 ∧ ∃ k, opsF64.lookup opc = some k ∧ k c f = i
  | .j64 f => opc < 1024 ∧ opsF64.lookup opc = none ∧ ∃ k, opsJ64.lookup opc = some k ∧ k c f = i
  | .m96 f => opc < 1024 ∧ 512 ≤ opc ∧ ∃ k, opsM96.lookup opc = some k ∧ k c f = i
  | .w128 f => opc < 1024 ∧ ∃ k, opsW128.lookup opc = some k ∧ k c f = i

/-- Instructions that share an opcode are told apart by MOD, which their own check fixes. -/
theorem inTable_of_parts {i : Instr} {opc : Nat} {c : Ctl} {b : Body} (hf : fieldsOk i = true) (h : i.parts = some (opc, c, b)) :
    InTable i opc c b := by
  cases i with
  | bra | brc | call | meet => cases h; exact ⟨by decide, rfl, _, rfl, rfl⟩
  | ld | st | ldpl | ldrf | stpl | lds | sts | ldsr | stsr | atom | atoms | pref | fmtset | accLd | accDrn | gwalk | csend
  | catom | feWait | assert => cases h; exact ⟨by decide, by decide, _, rfl, rfl⟩
  | bfpexpGet | bfpexpSet | prec | precExp | ufc | ufcClr | brecSet | brecGet =>
    cases h
    have hm := eq_of_beq (Bool.and_elim_right hf)
    exact ⟨by decide, _, rfl, by simp only [hm]; rfl⟩
  | fenceAr | fenceAcq | fenceRel | fenceSysAll =>
    cases h
    have hm := eq_of_beq (Bool.and_elim_right hf)
    exact ⟨by decide, _, rfl, by simp only [hm]⟩
  | _ => cases h <;> exact ⟨by decide, _, rfl, rfl⟩

/-- Codes of paired slots are below 128, so bit 33 of a paired word is clear (06 R167, R168). -/
theorem lt_of_pairable {n : Nat} {k : Ctl → F64 → Instr} (h : pairable n = some k) : n < 128 := by
  have hs : (pairable n).isSome := by rw [h]; rfl
  rw [pairable, List.lookup_isSome_iff] at hs
  obtain ⟨p, hp, hn⟩ := hs
  rw [eq_of_beq hn]
  clear h hn
  revert p
  decide

theorem fieldsOk_of_wellFormed {i : Instr} (hp : ∀ c p, i ≠ .paired c p) (h : WellFormed i = true) : fieldsOk i = true := by
  cases i with
  | paired c p => exact absurd rfl (hp c p)
  | _ => exact Bool.and_elim_right h

/-! ## Words -/

theorem decodeBits_parts {i : Instr} {opc : Nat} {c : Ctl} {b : Body} (h : InTable i opc c b) :
    decodeBits (encodeCtl c b.len + opc * 2 ^ 24 + encodeBody b) = .ok i := by
  obtain ⟨k, hk⟩ := encodeBody_eq b
  have hopc : opc < 1024 := by cases b <;> exact h.1
  have hl : b.len < 4 := by cases b <;> simp [Body.len]
  have hc := encodeCtl_lt c hl
  have hlo : encodeCtl c b.len + opc * 2 ^ 24 < 2 ^ 34 := by omega
  have hw : encodeCtl c b.len + opc * 2 ^ 24 + encodeBody b = encodeCtl c b.len + (opc + k * 2 ^ 10) * 2 ^ 24 := by omega
  have hlen : bitsOf (encodeCtl c b.len + opc * 2 ^ 24 + encodeBody b) 0 2 = b.len := by rw [hw, bitsOf_len c hl]
  have hctl : decodeCtl (encodeCtl c b.len + opc * 2 ^ 24 + encodeBody b) = c := by rw [hw, decodeCtl_encodeCtl c hl]
  have hop : bitsOf (encodeCtl c b.len + opc * 2 ^ 24 + encodeBody b) 24 10 = opc := by
    unfold bitsOf
    omega
  unfold decodeBits
  simp only [hlen, hctl, hop]
  cases b with
  | f64 f =>
    obtain ⟨-, m, hm, rfl⟩ := h
    rw [decodeF64_encodeBody f hlo]
    simp [opcAssigned, hm, Body.len]
  | j64 f =>
    obtain ⟨-, hn, m, hm, rfl⟩ := h
    rw [decodeJ64_encodeBody f hlo]
    simp [opcAssigned, hn, hm, Body.len]
  | m96 f =>
    obtain ⟨-, h9, m, hm, rfl⟩ := h
    have hbit : bitAt (encodeCtl c (Body.m96 f).len + opc * 2 ^ 24 + encodeBody (.m96 f)) 33 = true := by
      refine bitAt_eq_of_mod ?_
      simp only [Bool.toNat_true]
      omega
    rw [decodeM96_encodeBody f hlo, hbit]
    simp [opcAssigned, hm, Body.len]
  | w128 f =>
    obtain ⟨-, m, hm, rfl⟩ := h
    rw [decodeW128_encodeBody f hlo]
    simp [opcAssigned, hm, Body.len]

theorem decodeBits_paired {c : Ctl} {p : Pair} (h : pairOk c p = true) :
    decodeBits (encodeCtl c 1 + encodePair p) = .ok (.paired c p) := by
  obtain ⟨k, hk⟩ := encodePair_eq p
  have hc := encodeCtl_lt c (show 1 < 4 by decide)
  have hpop : p.pop0.toNat < 128 := by
    unfold pairOk at h
    split at h
    · next e _ => exact lt_of_pairable e
    · cases h
  have hbit : bitAt (encodeCtl c 1 + encodePair p) 33 = false := by
    have hhigh : p.pop1.toNat / 2 ^ 6 < 4 := Nat.div_lt_of_lt_mul p.pop1.isLt
    refine bitAt_eq_of_mod ?_
    simp only [encodePair, Bool.toNat_false]
    generalize p.pop1.toNat / 2 ^ 6 = high at hhigh ⊢
    omega
  have hlen : bitsOf (encodeCtl c 1 + encodePair p) 0 2 = 1 := by rw [hk, bitsOf_len c (by decide)]
  have hctl : decodeCtl (encodeCtl c 1 + encodePair p) = c := by rw [hk, decodeCtl_encodeCtl c (by decide)]
  unfold decodeBits
  simp [hlen, hctl, hbit, decodePair_encodePair p hc, h]

/-- A well-formed word, legal as a pair where it is paired, is what its bits decode to (06 R152). -/
theorem decodeBits_encodeBits {i : Instr} {w : Nat} (hi : WellFormed i = true) (hp : ∀ c p, i = .paired c p → pairOk c p = true)
    (hw : encodeBits i = some w) : decodeBits w = .ok i := by
  unfold encodeBits at hw
  split at hw
  · next c p =>
    injection hw with hw
    exact hw ▸ decodeBits_paired (hp c p rfl)
  · next hne =>
    split at hw
    · next e =>
      injection hw with hw
      exact hw ▸ decodeBits_parts (inTable_of_parts (fieldsOk_of_wellFormed hne hi) e)
    · cases hw

end Sys2Proof

/-! # The word that a step fetches and executes (01 R21, R22; 06 R152-R154) -/

namespace Sys2Proof.Machine

/-! ## The first bytes of what stands at an address -/

theorem leNat_append (as bs : List Byte) : leNat (as ++ bs) = leNat as + 2 ^ (8 * as.length) * leNat bs := by
  induction as with
  | nil => simp [leNat]
  | cons a as ih =>
    rw [List.cons_append, leNat, leNat, ih, List.length_cons, show 8 * (as.length + 1) = 8 * as.length + 8 by omega, Nat.pow_add]
    ring

theorem leNat_lt (bs : List Byte) : leNat bs < 2 ^ (8 * bs.length) := by
  induction bs with
  | nil => simp [leNat]
  | cons b bs ih =>
    have := b.isLt
    rw [leNat, List.length_cons, show 8 * (bs.length + 1) = 8 * bs.length + 8 by omega, Nat.pow_add]
    omega

theorem Cells.readN_add (m : List Host.Cell) (x n k : Nat) :
    Cells.readN m x (n + k) = Cells.readN m x n ++ Cells.readN m (x + n) k := by
  induction n generalizing x with
  | zero => simp [Cells.readN]
  | succ n ih =>
    rw [show n + 1 + k = n + k + 1 by omega, Cells.readN, Cells.readN, ih, show x + 1 + n = x + (n + 1) by omega]
    rfl

@[simp] theorem Cells.readN_length (m : List Host.Cell) (x n : Nat) : (Cells.readN m x n).length = n := by
  induction n generalizing x with
  | zero => rfl
  | succ n ih => simp [Cells.readN, ih]

/-- The low bytes of a longer number are the number of fewer bytes. -/
theorem Cells.readLE_mod (m : List Host.Cell) (x : Nat) {n k : Nat} (h : n ≤ k) :
    Cells.readLE m x k % 2 ^ (8 * n) = Cells.readLE m x n := by
  obtain ⟨d, rfl⟩ := Nat.exists_eq_add_of_le h
  have hlt := leNat_lt (Cells.readN m x n)
  rw [Cells.readN_length] at hlt
  rw [Cells.readLE, Cells.readN_add, leNat_append, Cells.readN_length, Nat.add_mul_mod_self_left, Nat.mod_eq_of_lt hlt]
  rfl

end Sys2Proof.Machine

namespace Sys2Proof

open Machine

/-! ## Fetching an encoding -/

theorem Instr.len_lt (i : Instr) : i.len < 3 := by
  unfold Instr.len
  split
  · decide
  · split
    · next b _ => cases b <;> simp [Body.len]
    · decide

/-- LEN stands in the low bits of an encoding. -/
theorem bitsOf_encodeBits {i : Instr} {w : Nat} (h : encodeBits i = some w) : bitsOf w 0 2 = i.len := by
  unfold encodeBits at h
  unfold Instr.len
  split at h
  · next c p =>
    injection h with h
    obtain ⟨k, hk⟩ := encodePair_eq p
    rw [← h, hk, bitsOf_len c (by decide)]
  · split at h
    · next opc c b e =>
      injection h with h
      obtain ⟨k, hk⟩ := encodeBody_eq b
      have hl : b.len < 4 := by cases b <;> simp [Body.len]
      have hw : w = encodeCtl c b.len + (opc + k * 2 ^ 10) * 2 ^ 24 := by omega
      rw [hw, bitsOf_len c hl]
    · cases h

theorem lenBytes_len (i : Instr) : lenBytes i.len = some i.size := by
  have hl := i.len_lt
  unfold lenBytes Instr.size
  interval_cases i.len <;> rfl

theorem eight_le_size (i : Instr) : 8 ≤ i.size := by
  unfold Instr.size
  split
  · decide
  · split <;> decide

/-- An instruction whose encoding stands where its program counter translates to, inside its 32-byte block, is fetched. -/
theorem fetch_of_encoding {s : State} {g : Nat} {pc : Word} {i : Instr} {w : Nat} {l : XLine} {ls : List XLine}
    (hi : WellFormed i = true) (hp : ∀ c p, i = .paired c p → pairOk c p = true) (hw : encodeBits i = some w)
    (hpc : pc.toNat < 2 ^ 56) (h4 : pc.toNat % 4 = 0) (hroom : pc.toNat % 32 + i.size ≤ 32)
    (hx : s.xlateAll g (s.group g) (s.team (s.group g).team).ten pc .fetch [(0, pc.toNat)] = .ok (l :: ls))
    (hok : s.poisoned l.pa = false) (hread : Cells.readLE s.mem l.pa i.size = w) : s.fetch g pc = .word i := by
  have hsize := eight_le_size i
  have hmod : Cells.readLE s.mem l.pa (32 - pc.toNat % 32) % 2 ^ (8 * i.size) = w := by
    rw [Cells.readLE_mod s.mem l.pa (by omega), hread]
  have hlow : bitsOf (Cells.readLE s.mem l.pa (32 - pc.toNat % 32)) 0 2 = i.len := by
    have hdvd : 2 ^ 2 ∣ 2 ^ (8 * i.size) := Nat.pow_dvd_pow 2 (by omega)
    rw [← bitsOf_encodeBits hw, ← hmod, bitsOf, bitsOf, Nat.pow_zero, Nat.div_one, Nat.div_one, Nat.mod_mod_of_dvd _ hdvd]
  unfold State.fetch
  simp only [hx]
  rw [if_neg (by omega), if_neg (by simp; omega)]
  simp only [hok, hlow, lenBytes_len, hmod, decodeBits_encodeBits hi hp hw, Bool.false_eq_true, if_false]
  rw [if_neg (by omega)]

/-! ## A fragment is looked at -/

theorem issueAt_word {s : State} {g : Nat} {pc : Word} {i : Instr} (hf : s.fetch g pc = .word i) :
    issueAt exec g pc s = exec i { s with cur := some (g, pc) } := by
  simp only [issueAt, hf]

/-- An issue given as an input executes the word that is fetched. -/
theorem runInput_issue {s : State} {g : Nat} {pc : Word} {i : Instr} (hm : s.mayIssue g pc = true) (hf : s.fetch g pc = .word i) :
    runInput s (.issue g pc) = onNext (fun t => tick (afterIssue exec s g pc t)) (exec i { s with cur := some (g, pc) }) := by
  simp only [runInput, hm, if_true, runIssue, issueAt_word hf]
  rfl

/-- The first fragment of the order is looked at; where its word was not ready, the next one is (01 R21, R22). -/
theorem runQuarters_succ {s t : State} {g : Nat} {pc : Word} (n : Nat) (hk : s.pick = some (g, pc))
    (ht : issueAt exec g pc s = .next t) :
    runQuarters (n + 1) s = if t.unready g pc then runQuarters n t else .next (tick (afterIssue exec s g pc t)) := by
  simp only [runQuarters, hk, ht]
  rfl

/-- The fairness timer counts an issue while a rival of the fragment is ready and waits (01 R24). -/
theorem afterIssue_fairness {s t : State} {g : Nat} {pc : Word} {G : Group} (hg : t.groups[g]? = some G) (hs : G.seq ≠ (s.group g).seq) :
    ((afterIssue exec s g pc t).group g).fairness = G.fairness + (s.rivalWaits exec g pc).toNat := by
  have hseq : ((t.group g).seq == (s.group g).seq) = false := by simpa [State.group_eq hg] using hs
  simp only [afterIssue, hseq, State.noteReady, State.gateCount]
  cases s.rivalWaits exec g pc <;> simp [State.group, hg]

/-- Settles O8: the step takes the fragment that `pick` names, `issueAt` executes what `fetch` finds there, and `fetch` finds the word
whose encoding stands there, by `decodeBits_encodeBits`. -/
theorem stepRunsTheFetchedWord : Obligations.StepRunsTheFetchedWord := by
  unfold Obligations.StepRunsTheFetchedWord
  refine ⟨⟨fun s t g pc i hp hi hn hk hc hf he => ?_, fun s g pc i rest hp hi => ?_, fun s t g pc hs => ?_⟩,
    fun s g pc i w l ls hi hp hw hpc h4 hroom hx hok hread => fetch_of_encoding hi hp hw hpc h4 hroom hx hok hread⟩
  · obtain ⟨n, hn'⟩ := Nat.exists_eq_succ_of_ne_zero hc
    rw [step_of_no_event hp hi hn, hn', runQuarters_succ n hk ((issueAt_word hf).trans he)]
    exact ⟨fun hu => by simp [hu], fun hu => by simp [hu]⟩
  · intro s0 hm hf
    exact (step_of_input hp hi).trans (runInput_issue hm hf)
  · rcases h : t.groups[g]? with _ | G
    · exact .inr (by simpa using h)
    · refine .inl ?_
      rw [State.group_eq h] at hs
      simp [afterIssue_fairness h hs, State.gateCount, State.group_eq h]

end Sys2Proof

/-! # Lanes of a group, and what an issue does to them (01 R13, R26; 06 R160, R162) -/

namespace Sys2Proof.Machine

theorem Group.modLanes_get (G : Group) (ls : List Nat) (f : Lane → Lane) (l : Nat) :
    (G.modLanes ls f).lanes[l]? = (G.lanes[l]?).map fun y => if l ∈ ls then f y else y := by
  cases h : G.lanes[l]? <;> simp [Group.modLanes, List.getElem?_zipIdx, h]

/-- What the settling of meetings makes of lane `l` (01 R26). -/
def Group.settled (G : Group) (l : Nat) (y : Lane) : Lane :=
  if y.st == .active && y.pc == y.mt && !(G.heldLanes.contains l) then { y with st := .heldMeet } else y

theorem Group.settle_get (G : Group) (l : Nat) : G.settle.lanes[l]? = (G.lanes[l]?).map (G.settled l) := by
  cases h : G.lanes[l]? <;> simp [Group.settle, Group.settled, List.getElem?_zipIdx, h]

theorem Group.laneAt_eq {G : Group} {l : Nat} {y : Lane} (h : G.lanes[l]? = some y) : G.laneAt l = y := by
  simp [Group.laneAt, h]

/-- Only a lane of the group is in a state other than exited. -/
theorem Group.get_laneAt {G : Group} {l : Nat} (h : (G.laneAt l).st ≠ .exited) : G.lanes[l]? = some (G.laneAt l) := by
  unfold Group.laneAt at h ⊢
  rw [List.getD_eq_getElem?_getD] at h ⊢
  cases e : G.lanes[l]? with
  | none => simp [e] at h
  | some y => rfl

/-- The lanes of a fragment are active and stand at its address (01 R19). -/
theorem Group.of_mem_fragment {G : Group} {pc : Word} {l : Nat} (h : l ∈ G.fragment pc) :
    ∃ y, G.lanes[l]? = some y ∧ y.st = .active ∧ y.pc = pc := by
  simp only [Group.fragment, Group.freeLanes, List.mem_filter, Bool.and_eq_true, beq_iff_eq] at h
  obtain ⟨⟨-, hst, -⟩, hpc⟩ := h
  cases e : G.lanes[l]? with
  | none => simp [e] at hst
  | some y => exact ⟨y, rfl, by simpa [e] using hst, by rwa [Group.laneAt_eq e] at hpc⟩

/-! ## What register writes leave -/

/-- What a register write leaves of a lane: all but its predicates. -/
def Lane.course (y : Lane) : Word × Word × LaneState × Nat := (y.pc, y.mt, y.st, y.lastIss)

/-- `H` is `G` but for registers and for results on their way. -/
structure Group.Rewritten (G H : Group) : Prop where
  rest : ∃ ls v s b d u f k, H = { G with lanes := ls, v := v, s := s, b := b, d := d, ufc := u, fixed := f, ftoks := k }
  course : H.lanes.map Lane.course = G.lanes.map Lane.course

theorem Group.Rewritten.refl (G : Group) : G.Rewritten G := ⟨⟨_, _, _, _, _, _, _, _, rfl⟩, rfl⟩

theorem Group.Rewritten.trans {G H K : Group} (h : G.Rewritten H) (k : H.Rewritten K) : G.Rewritten K := by
  obtain ⟨⟨_, _, _, _, _, _, _, _, rfl⟩, hc⟩ := h
  obtain ⟨⟨_, _, _, _, _, _, _, _, rfl⟩, kc⟩ := k
  exact ⟨⟨_, _, _, _, _, _, _, _, rfl⟩, kc.trans hc⟩

theorem map_modAt_of_eq {α β : Type} {k : α → β} {f : α → α} (h : ∀ a, k (f a) = k a) (l : List α) (i : Nat) :
    (modAt l i f).map k = l.map k := by
  induction l generalizing i with
  | nil => rfl
  | cons a l ih => cases i <;> simp [modAt, h, ih]

theorem Group.rewritten_put (G : Group) (w : RegWrite) : G.Rewritten (G.put w) := by
  cases w with
  | p r l x =>
    simp only [Group.put]
    split
    · exact ⟨⟨_, _, _, _, _, _, _, _, rfl⟩, map_modAt_of_eq (k := Lane.course) (fun y => by rfl) G.lanes l⟩
    · exact .refl G
  | _ => exact ⟨⟨_, _, _, _, _, _, _, _, rfl⟩, rfl⟩

theorem Group.rewritten_putAll (G : Group) (ws : List RegWrite) : G.Rewritten (G.putAll ws) :=
  List.foldlRecOn (motive := G.Rewritten) ws Group.put (.refl G) fun H h w _ => h.trans (H.rewritten_put w)

theorem Group.rewritten_putVar (G : Group) (ws : List RegWrite) : G.Rewritten (G.putVar ws) := by
  unfold Group.putVar
  refine Group.Rewritten.trans ?_ (Group.rewritten_putAll _ ws)
  exact ⟨⟨_, _, _, _, _, _, _, _, rfl⟩, rfl⟩

theorem Group.rewritten_commit (G : Group) (t : Nat) : G.Rewritten (G.commit t) := by
  unfold Group.commit
  exact List.foldlRecOn (motive := G.Rewritten) _ _ ⟨⟨_, _, _, _, _, _, _, _, rfl⟩, rfl⟩
    fun H h f _ => h.trans (H.rewritten_putAll f.writes)

section Rewritten

variable {G H : Group}

theorem Group.Rewritten.team (h : G.Rewritten H) : H.team = G.team := by obtain ⟨⟨_, _, _, _, _, _, _, _, rfl⟩, -⟩ := h; rfl
theorem Group.Rewritten.gidx (h : G.Rewritten H) : H.gidx = G.gidx := by obtain ⟨⟨_, _, _, _, _, _, _, _, rfl⟩, -⟩ := h; rfl
theorem Group.Rewritten.core (h : G.Rewritten H) : H.core = G.core := by obtain ⟨⟨_, _, _, _, _, _, _, _, rfl⟩, -⟩ := h; rfl
theorem Group.Rewritten.refill (h : G.Rewritten H) : H.refill = G.refill := by obtain ⟨⟨_, _, _, _, _, _, _, _, rfl⟩, -⟩ := h; rfl

/-- A lane keeps its program counter, its meeting address and its state. -/
theorem Group.Rewritten.lane (h : G.Rewritten H) (l : Nat) : (H.lanes[l]?).map Lane.course = (G.lanes[l]?).map Lane.course := by
  rw [← List.getElem?_map, ← List.getElem?_map, h.course]

/-- The lane before the writes, of one after them. -/
theorem Group.Rewritten.lane_before (h : G.Rewritten H) {l : Nat} {y : Lane} (hy : H.lanes[l]? = some y) :
    ∃ z, G.lanes[l]? = some z ∧ y.pc = z.pc ∧ y.mt = z.mt ∧ y.st = z.st := by
  have hl := h.lane l
  rw [hy] at hl
  cases e : G.lanes[l]? with
  | none => simp [e] at hl
  | some z =>
    simp only [e, Option.map_some, Option.some.injEq, Lane.course, Prod.mk.injEq] at hl
    exact ⟨z, rfl, hl.1, hl.2.1, hl.2.2.1⟩

/-- The lane after the writes, of one before them. -/
theorem Group.Rewritten.lane_after (h : G.Rewritten H) {l : Nat} {z : Lane} (hz : G.lanes[l]? = some z) :
    ∃ y, H.lanes[l]? = some y ∧ y.pc = z.pc ∧ y.mt = z.mt ∧ y.st = z.st := by
  have hl := h.lane l
  rw [hz] at hl
  cases e : H.lanes[l]? with
  | none => simp [e] at hl
  | some y =>
    simp only [e, Option.map_some, Option.some.injEq, Lane.course, Prod.mk.injEq] at hl
    exact ⟨y, rfl, hl.1, hl.2.1, hl.2.2.1⟩

end Rewritten

end Sys2Proof.Machine

namespace Sys2Proof

open Machine Host

theorem rewritten_readGroup (c : Ctl) (G0 : Group) : G0.Rewritten (readGroup c G0) := G0.rewritten_commit _

/-- In the group as the word reads it, the lanes of its fragment are active and stand at the word. -/
theorem readGroup_of_mem_fragment {c : Ctl} {G0 : Group} {pc : Word} {l : Nat} {y : Lane} (hl : l ∈ G0.fragment pc)
    (hy : (readGroup c G0).lanes[l]? = some y) : y.st = .active ∧ y.pc = pc := by
  obtain ⟨z, hz, hst, hpc⟩ := Group.of_mem_fragment hl
  obtain ⟨z', hz', h1, -, h3⟩ := (rewritten_readGroup c G0).lane_before hy
  obtain rfl : z = z' := by simpa [hz] using hz'
  exact ⟨h3.trans hst, h1.trans hpc⟩

theorem mem_fragment_of_mem_participants {c : Ctl} {pc : Word} {G0 : Group} {l : Nat} (h : l ∈ participants c pc G0) :
    l ∈ G0.fragment pc := (List.mem_filter.1 h).1

/-! ## The lane that an issue leaves -/

/-- Only meeting address and predicates of the lane before count. -/
theorem MovedTo.of_eq {H : Group} {l : Nat} {y z y' : Lane} {pc : Word} {st : LaneState} (h : MovedTo H l z y' pc st) (hm : z.mt = y.mt)
    (hp : z.preds = y.preds) : MovedTo H l y y' pc st := by
  unfold MovedTo at h ⊢
  rwa [hm, hp] at h

theorem movedTo_settled {G H : Group} (h : H.outst = G.outst) (l : Nat) (y : Lane) : MovedTo H l y (G.settled l y) y.pc y.st := by
  have hh : H.heldLanes = G.heldLanes := by simp [Group.heldLanes, h]
  unfold MovedTo Group.settled
  rw [hh]
  split
  · next e => simp_all
  · next e => simp_all

theorem SameRegisters.refl (G : Group) : SameRegisters G G := by simp [SameRegisters]

theorem SameRegisters.trans {G H K : Group} (h : SameRegisters G H) (k : SameRegisters H K) : SameRegisters G K := by
  unfold SameRegisters at *
  simp_all

theorem SameRegisters.outst {G H : Group} (h : SameRegisters G H) : H.outst = G.outst := by
  obtain ⟨-, -, -, -, -, -, h, -⟩ := h
  exact h

theorem sameRegisters_modLanes (G : Group) (ls : List Nat) (f : Lane → Lane) : SameRegisters G (G.modLanes ls f) := by
  simp [SameRegisters, Group.modLanes]

theorem sameRegisters_settle (G : Group) : SameRegisters G G.settle := by simp [SameRegisters, Group.settle]

/-- The fragment goes on to the next word, and meetings are settled; no register of the group changes. -/
theorem goOn_group {x : Ctx} {s : State} {G : Group} (h : s.groups[x.g]? = some G) :
    ∃ H, (goOn x s).groups[x.g]? = some H ∧ SameRegisters G H ∧ H.refill = G.refill ∧
      ∀ l y, G.lanes[l]? = some y → ∃ y', H.lanes[l]? = some y' ∧
        MovedTo H l y y' (if l ∈ x.frag ∧ y.st = .active ∧ y.pc = x.pc then x.next else y.pc) y.st := by
  rw [goOn, State.modGroup_groups, modAt_get_self, h]
  refine ⟨_, rfl, (sameRegisters_modLanes G _ _).trans (sameRegisters_settle _), rfl, fun l y hy => ?_⟩
  rw [Group.settle_get, Group.modLanes_get, hy]
  refine ⟨_, rfl, ?_⟩
  dsimp only
  generalize hz : (if l ∈ x.frag then _ else y) = z
  have hlane : z.pc = (if l ∈ x.frag ∧ y.st = .active ∧ y.pc = x.pc then x.next else y.pc) ∧ z.mt = y.mt ∧ z.preds = y.preds ∧
      z.st = y.st := by
    subst hz
    by_cases hl : l ∈ x.frag <;> by_cases hm : y.st = .active ∧ y.pc = x.pc <;> simp [hl, hm]
  obtain ⟨hpc, hmt, hpr, hst⟩ := hlane
  rw [← hpc, ← hst]
  exact (movedTo_settled rfl l z).of_eq hmt hpr

/-- The bookkeeping of an issue concerns no register of the group, and of its lanes only the clock of their last issue. -/
theorem issueDone_group {x : Ctx} {s : State} {G : Group} (h : s.groups[x.g]? = some G) :
    ∃ H, (issueDone x s).groups[x.g]? = some H ∧ SameRegisters G H ∧ H.refill = G.refill ∧
      ∀ (l : Nat) (y : Lane), G.lanes[l]? = some y → ∃ n, H.lanes[l]? = some { y with lastIss := n } := by
  rw [issueDone, State.modGroup_groups, modAt_get_self, h]
  refine ⟨_, rfl, by simp [SameRegisters, Group.modLanes], rfl, fun l y hy => ?_⟩
  refine ⟨if l ∈ x.frag then s.clock else y.lastIss, ?_⟩
  rw [Group.modLanes_get, hy]
  split <;> simp_all

/-- A word that is complete at issue changes no register of its group; its fragment goes on, and meetings are settled (01 R26). -/
theorem issued_go_group (i : Instr) (c : Ctl) (s : State) {s' : State} {g : Nat} (pc : Word) (G0 : Group) {H0 : Group}
    (h : s'.groups[g]? = some H0) :
    ∃ H, (issued i c s g pc G0 (.go s')).groups[g]? = some H ∧ SameRegisters H0 H ∧ H.refill = H0.refill ∧
      ∀ l y, H0.lanes[l]? = some y → ∃ y', H.lanes[l]? = some y' ∧
        MovedTo H l y y' (if l ∈ G0.fragment pc ∧ y.st = .active ∧ y.pc = pc then nextPc pc i.size else y.pc) y.st := by
  obtain ⟨K, hK, hregs, hrefill, hlanes⟩ := goOn_group (x := ctxAt i c s g pc G0) h
  obtain ⟨H, hH, hregs', hrefill', hlanes'⟩ := issueDone_group (x := ctxAt i c s g pc G0) hK
  refine ⟨H, hH, hregs.trans hregs', hrefill'.trans hrefill, fun l y hy => ?_⟩
  obtain ⟨z, hz, hm⟩ := hlanes l y hy
  obtain ⟨n, hn⟩ := hlanes' l z hz
  have hheld : H.heldLanes = K.heldLanes := by simp [Group.heldLanes, hregs'.outst]
  refine ⟨_, hn, ?_⟩
  unfold MovedTo at hm ⊢
  rwa [hheld]

theorem issued_go_groups_ne (i : Instr) (c : Ctl) (s s' : State) {g k : Nat} (pc : Word) (G0 : Group) (hk : k ≠ g) :
    (issued i c s g pc G0 (.go s')).groups[k]? = s'.groups[k]? := by
  have hset : ∀ f f' : Group → Group, (modAt (modAt s'.groups g f) g f')[k]? = s'.groups[k]? := fun f f' => by
    rw [modAt_get_ne _ _ hk.symm, modAt_get_ne _ _ hk.symm]
  exact hset _ _

end Sys2Proof

/-! # Exit, done and meetings (01 R25-R27, R43; 07 R186-R188, 13 R325) -/

namespace Sys2Proof.Machine

/-! ## Threads that exit -/

/-- Lanes of a group take the state `st`. -/
def Group.setStates (G : Group) (ls : List Nat) (st : LaneState) : Group := G.modLanes ls fun y => { y with st := st }

def Group.allExited (G : Group) : Bool := G.lanes.all fun y => y.st == .exited

/-- The issue-priority tokens of a core once group `g` holds none. -/
def Core.freeTokens (k : Core) (g : Nat) : Core := { k with token := k.token.map fun t => if t == some g then none else t }

/-- The barriers of a team count lanes of one of its groups that exit (13 R325). -/
def Team.countExits (t : Team) (gidx : Nat) (ls : List Nat) : Team :=
  { t with bars := t.bars.map fun b => if ls.isEmpty then b else b.exits gidx ls.length }

/-- `exitLanes` before it frees a token. -/
def State.exitAndCount (s : State) (g : Nat) (ls : List Nat) : State :=
  (s.modGroup g fun G => G.setStates ls .exited).modTeam (s.group g).team fun t => t.countExits (s.group g).gidx ls

theorem State.exitLanes_eq (s : State) (g : Nat) (ls : List Nat) :
    s.exitLanes g ls = if ((s.exitAndCount g ls).group g).allExited then
      (s.exitAndCount g ls).modCore (s.group g).core fun k => k.freeTokens g else s.exitAndCount g ls := rfl

section Exit

variable {s : State} {g : Nat} {G : Group}

theorem State.exitLanes_groups (s : State) (g : Nat) (ls : List Nat) :
    (s.exitLanes g ls).groups = modAt s.groups g fun G => G.setStates ls .exited := by
  rw [State.exitLanes_eq]
  split <;> rfl

theorem State.exitLanes_mem (s : State) (g : Nat) (ls : List Nat) : (s.exitLanes g ls).mem = s.mem := by
  rw [State.exitLanes_eq]
  split <;> rfl

theorem State.exitLanes_hostMem (s : State) (g : Nat) (ls : List Nat) : (s.exitLanes g ls).hostMem = s.hostMem := by
  rw [State.exitLanes_eq]
  split <;> rfl

theorem State.exitLanes_teams (h : s.groups[g]? = some G) (ls : List Nat) :
    (s.exitLanes g ls).teams = modAt s.teams G.team fun t => t.countExits G.gidx ls := by
  rw [State.exitLanes_eq, State.exitAndCount, State.group_eq h]
  split <;> rfl

/-- A group of which every lane has exited frees its token (01 R43). -/
theorem State.exitLanes_cores (h : s.groups[g]? = some G) (ls : List Nat) :
    (s.exitLanes g ls).cores = if (G.setStates ls .exited).allExited then modAt s.cores G.core fun k => k.freeTokens g else s.cores := by
  have hgroup : (s.exitAndCount g ls).group g = G.setStates ls .exited := by
    rw [State.exitAndCount, State.group_modTeam, State.group_modGroup h]
  rw [State.exitLanes_eq, hgroup, State.group_eq h]
  split <;> rfl

theorem Group.allExited_setStates {ls : List Nat} :
    (G.setStates ls .exited).allExited = true ↔ ∀ l y, G.lanes[l]? = some y → y.st = .exited ∨ l ∈ ls := by
  rw [Group.allExited, List.all_eq_true]
  constructor
  · intro h l y hy
    have hl : (G.setStates ls .exited).lanes[l]? = some (if l ∈ ls then { y with st := .exited } else y) := by
      rw [Group.setStates, Group.modLanes_get, hy]
      rfl
    by_cases hin : l ∈ ls
    · exact .inr hin
    · rw [if_neg hin] at hl
      exact .inl (by simpa using h _ (List.mem_of_getElem? hl))
  · intro h y' hy'
    obtain ⟨l, hl⟩ := List.getElem?_of_mem hy'
    rw [Group.setStates, Group.modLanes_get, Option.map_eq_some_iff] at hl
    obtain ⟨y, hy, rfl⟩ := hl
    by_cases hin : l ∈ ls
    · simp [hin]
    · simpa [hin] using h l y hy

/-- No token of the core that has been freed is the group's. -/
theorem State.token_freed {cs : List Core} (h : s.cores = modAt cs G.core (·.freeTokens g)) (q : Nat) :
    (s.core G.core).token[q]? ≠ some (some g) := by
  rw [State.core, h, List.getD_eq_getElem?_getD, modAt_get_self]
  cases cs[G.core]? with
  | none =>
    intro e
    have := List.mem_of_getElem? e
    simp [Core.reset] at this
  | some k =>
    simp only [Option.map_some, Option.getD_some, Core.freeTokens, List.getElem?_map, ne_eq, Option.map_eq_some_iff, not_exists, not_and]
    rintro t - ht
    split at ht
    · cases ht
    · next hne => exact hne (by simp [ht])

end Exit

theorem relTarget_eq (pc : Word) {w : Nat} (off : BitVec w) : relTarget pc off = pc + BitVec.ofInt 64 (4 * off.toInt) := by
  rw [relTarget, BitVec.signExtend, Int.mul_comm, BitVec.ofInt_mul]
  rfl

/-- Of `Bar.exits`, by the form of the barrier and by who has arrived (13 R325). -/
theorem Bar.exits_cases (b : Bar) (gidx n : Nat) :
    ((b.form ≠ 0 ∨ gidx ∈ b.arrived) → b.exits gidx n = b) ∧
    (b.form = 0 → gidx ∉ b.arrived → b.count + n < b.target → b.exits gidx n = { b with count := b.count + n }) ∧
    (b.form = 0 → gidx ∉ b.arrived → b.target ≤ b.count + n → b.exits gidx n = ⟨0, 0, !b.phase, 2, []⟩) := by
  refine ⟨fun h => ?_, fun hf ha hn => ?_, fun hf ha hn => ?_⟩
  · rcases h with h | h <;> simp [Bar.exits, h]
  · simp [Bar.exits, Bar.check, hf, ha, Nat.not_le.2 hn]
  · simp [Bar.exits, Bar.check, hf, ha, hn]

end Sys2Proof.Machine

namespace Sys2Proof

open Machine Host

/-! ## Words that change the state or the meeting address of lanes -/

/-- A word that gives the participating lanes a state in which they stand, and no more to the groups: those lanes stay, the fragment's other
lanes go on. -/
theorem issued_setStates {i : Instr} {c : Ctl} {s s' : State} {g : Nat} {pc : Word} {G0 : Group} {st : LaneState}
    (hG : s.groups[g]? = some G0) (hst : st ≠ .active)
    (hs : s'.groups = modAt (ctxAt i c s g pc G0).s.groups g fun G => G.setStates (participants c pc G0) st) :
    ∃ H, (issued i c s g pc G0 (.go s')).groups[g]? = some H ∧ SameRegisters (readGroup c G0) H ∧
      (∀ k, k ≠ g → (issued i c s g pc G0 (.go s')).groups[k]? = s.groups[k]?) ∧
      ∀ l y, (readGroup c G0).lanes[l]? = some y → ∃ y', H.lanes[l]? = some y' ∧
        (l ∈ participants c pc G0 → MovedTo H l y y' y.pc st) ∧
        (l ∈ G0.fragment pc → l ∉ participants c pc G0 → MovedTo H l y y' (nextPc pc i.size) y.st) ∧
        (l ∉ G0.fragment pc → MovedTo H l y y' y.pc y.st) := by
  have hg : s'.groups[g]? = some ((readGroup c G0).setStates (participants c pc G0) st) := by
    simp [hs, ctxAt_s, hG]
  obtain ⟨H, hH, hregs, -, hlanes⟩ := issued_go_group i c s pc G0 hg
  refine ⟨H, hH, (sameRegisters_modLanes _ _ _).trans hregs, fun k hk => ?_, fun l y hy => ?_⟩
  · rw [issued_go_groups_ne i c s s' pc G0 hk, hs, ctxAt_s, State.modGroup_groups, modAt_get_ne _ _ hk.symm, modAt_get_ne _ _ hk.symm]
  · have hz := Group.modLanes_get (readGroup c G0) (participants c pc G0) (fun y => { y with st := st }) l
    rw [hy, Option.map_some] at hz
    obtain ⟨y', hy', hm⟩ := hlanes l _ hz
    refine ⟨y', hy', fun hl => ?_, fun hl hn => ?_, fun hl => ?_⟩
    · simp only [hl, if_true, hst, false_and, and_false, if_false] at hm
      exact hm.of_eq rfl rfl
    · obtain ⟨h1, h2⟩ := readGroup_of_mem_fragment hl hy
      simpa only [hn, if_false, hl, h1, h2, true_and, if_true] using hm
    · have hn : l ∉ participants c pc G0 := fun h => hl (mem_fragment_of_mem_participants h)
      simpa only [hn, if_false, hl, false_and] using hm

/-- A word answers as its meaning does in the context that it sees. -/
theorem answers_of_word {i : Instr} {c : Ctl} {s : State} {g : Nat} {pc : Word} {G0 : Group} (h : Issues i c s g pc G0) {k : Ctx → Res}
    (he : exec i s = word i c k s) {r : Res} (hk : k (ctxAt i c s g pc G0) = r) : Answers i c s g pc G0 r := by
  rw [Answers, he, word_issues h, hk]

theorem exit_answers {c : Ctl} {f : F64} {s : State} {g : Nat} {pc : Word} {G0 : Group} (h : Issues (.exit c f) c s g pc G0) :
    Answers (.exit c f) c s g pc G0 (.go ((ctxAt (.exit c f) c s g pc G0).s.exitLanes g (participants c pc G0))) :=
  answers_of_word h (rfl : execExit c f s = _) rfl

theorem done_answers_exit {c : Ctl} {f : F64} {s : State} {g : Nat} {pc : Word} {G0 : Group} (h : Issues (.done c f) c s g pc G0)
    (hr : G0.refill = none) :
    Answers (.done c f) c s g pc G0 (.go ((ctxAt (.done c f) c s g pc G0).s.exitLanes g (participants c pc G0))) := by
  refine answers_of_word h (rfl : execDone c f s = _) ?_
  have hr' : (readGroup c G0).refill = none := (rewritten_readGroup c G0).refill.trans hr
  simp only [ctxAt_G, hr', Option.isNone_none, if_true]
  rfl

theorem done_answers {c : Ctl} {f : F64} {s : State} {g : Nat} {pc : Word} {G0 : Group} (h : Issues (.done c f) c s g pc G0)
    (hr : G0.refill ≠ none) :
    Answers (.done c f) c s g pc G0
      (.go ((ctxAt (.done c f) c s g pc G0).s.modGroup g fun G => G.setStates (participants c pc G0) .done)) := by
  refine answers_of_word h (rfl : execDone c f s = _) ?_
  have hr' : (readGroup c G0).refill.isNone = false := by
    rw [(rewritten_readGroup c G0).refill]
    simpa [Option.isSome_iff_ne_none] using hr
  simp only [ctxAt_G, hr', Bool.false_eq_true, if_false]
  rfl

theorem meetw_answers {c : Ctl} {f : F64} {s : State} {g : Nat} {pc : Word} {G0 : Group} (h : Issues (.meetw c f) c s g pc G0) :
    Answers (.meetw c f) c s g pc G0
      (.go ((ctxAt (.meetw c f) c s g pc G0).s.modGroup g fun G => G.setStates (participants c pc G0) .heldW)) :=
  answers_of_word h (rfl : execMeetw c f s = _) rfl

/-! ## `meet` -/

/-- A meeting address that cannot be fetched faults where some lane takes part (07 R187). -/
theorem meet_traps {c : Ctl} {f : J64} {s : State} {g : Nat} {pc : Word} {G0 : Group} (h : Issues (.meet c f) c s g pc G0)
    (hp : participants c pc G0 ≠ []) (ht : (relTarget pc f.off).toNat % 32 = 28) : Traps (.meet c f) c s g pc G0 0x03 0 0 0 := by
  refine answers_of_word h (rfl : execMeet c f s = _) (r := .trap (ctxAt (.meet c f) c s g pc G0).s 0x03 0 0 0) ?_
  have hpc : (ctxAt (.meet c f) c s g pc G0).pc = pc := rfl
  simp [ctxAt_part, hp, hpc, ht]

/-- Lanes of a group take a meeting address. -/
def Machine.Group.setMeetings (G : Group) (ls : List Nat) (t : Word) : Group := G.modLanes ls fun y => { y with mt := t }

theorem setMeetings_nil (G : Group) (t : Word) : G.setMeetings [] t = G := by
  simp [Group.setMeetings, Group.modLanes]

theorem meet_answers {c : Ctl} {f : J64} {s : State} {g : Nat} {pc : Word} {G0 : Group} (h : Issues (.meet c f) c s g pc G0)
    (ht : participants c pc G0 = [] ∨ (relTarget pc f.off).toNat % 32 ≠ 28) :
    Answers (.meet c f) c s g pc G0
      (.go (s.modGroup g fun _ => (readGroup c G0).setMeetings (participants c pc G0) (relTarget pc f.off))) := by
  refine answers_of_word h (rfl : execMeet c f s = _) ?_
  have hpc : (ctxAt (.meet c f) c s g pc G0).pc = pc := rfl
  have hg : (ctxAt (.meet c f) c s g pc G0).g = g := rfl
  by_cases hp : participants c pc G0 = []
  · simp [ctxAt_part, ctxAt_s, hp, setMeetings_nil]
  · have ht' := ht.resolve_left hp
    simp [ctxAt_part, ctxAt_s, hp, hpc, hg, ht', State.modGroup_modGroup, Group.setMeetings, Function.comp_def]

/-! ## What an exit gives back -/

section Exit

variable {c : Ctl} {f : F64} {s : State} {g : Nat} {pc : Word} {G0 : Group}

theorem ctxAt_group (i : Instr) (h : s.groups[g]? = some G0) : (ctxAt i c s g pc G0).s.groups[g]? = some (readGroup c G0) := by
  simp [ctxAt_s, h]

/-- Every lane has exited once the participating ones have, judged before the word read its registers. -/
theorem allExited_readGroup {ls : List Nat} :
    ((readGroup c G0).setStates ls .exited).allExited = true ↔ ∀ l y, G0.lanes[l]? = some y → y.st = .exited ∨ l ∈ ls := by
  rw [Group.allExited_setStates]
  constructor
  · intro h l y hy
    obtain ⟨z, hz, -, -, hst⟩ := (rewritten_readGroup c G0).lane_after hy
    exact hst ▸ h l z hz
  · intro h l y hy
    obtain ⟨z, hz, -, -, hst⟩ := (rewritten_readGroup c G0).lane_before hy
    exact hst ▸ h l z hz

/-- An exit that leaves no lane of the group frees the group's token (01 R43). -/
theorem exitLanes_token (i : Instr) (h : s.groups[g]? = some G0) {ls : List Nat}
    (hall : ∀ l y, G0.lanes[l]? = some y → y.st = .exited ∨ l ∈ ls) (q : Nat) :
    (((ctxAt i c s g pc G0).s.exitLanes g ls).core G0.core).token[q]? ≠ some (some g) := by
  have hcores := State.exitLanes_cores (ctxAt_group (c := c) (pc := pc) i h) ls
  rw [if_pos (allExited_readGroup.2 hall), (rewritten_readGroup c G0).core] at hcores
  exact State.token_freed hcores q

theorem exitLanes_cores_same (i : Instr) (h : s.groups[g]? = some G0) {ls : List Nat}
    (hsome : ∃ l y, G0.lanes[l]? = some y ∧ y.st ≠ .exited ∧ l ∉ ls) : ((ctxAt i c s g pc G0).s.exitLanes g ls).cores = s.cores := by
  obtain ⟨l, y, hy, hst, hl⟩ := hsome
  have hne : ¬ ((readGroup c G0).setStates ls .exited).allExited = true := fun e =>
    (allExited_readGroup.1 e l y hy).elim hst hl
  rw [State.exitLanes_cores (ctxAt_group (c := c) (pc := pc) i h), if_neg hne]
  rfl

theorem exitLanes_teams_same (i : Instr) (h : s.groups[g]? = some G0) (ls : List Nat) :
    ((ctxAt i c s g pc G0).s.exitLanes g ls).teams = modAt s.teams G0.team fun t => t.countExits G0.gidx ls := by
  rw [State.exitLanes_teams (ctxAt_group (c := c) (pc := pc) i h), (rewritten_readGroup c G0).team, (rewritten_readGroup c G0).gidx]
  rfl

end Exit

/-- Settles O30: `exit`, `done` and `meetw` give their lanes a state in which they stand (`issued_setStates`), `meet` a meeting address, and the
fragment goes on as after every word (`issued_go_group`); what an exit gives back is said by the lemmas about `exitLanes`. -/
theorem threadStates : Obligations.ThreadStates := by
  unfold Obligations.ThreadStates
  refine ⟨⟨fun i c f s g pc G0 h hi => ?_, fun c f s g pc G0 h => ⟨fun hp ht => ?_, fun ht => ?_⟩⟩,
    fun c f s t g pc G0 h he => ?_⟩
  · intro x gone st
    have hgroups := State.exitLanes_groups x.s g x.part
    rcases hi with (rfl | ⟨rfl, hr⟩) | ⟨rfl, hr⟩ | rfl
    · obtain ⟨H, hH, hregs, hne, hlanes⟩ := issued_setStates h.group (st := .exited) (by decide) hgroups
      have hst : st = .exited := by simp [st, gone]
      exact ⟨_, H, exit_answers h, State.exitLanes_mem _ _ _, State.exitLanes_hostMem _ _ _, hH, hregs, hne,
        fun hn => absurd (.inl rfl) hn, hst ▸ hlanes⟩
    · obtain ⟨H, hH, hregs, hne, hlanes⟩ := issued_setStates h.group (st := .exited) (by decide) hgroups
      have hst : st = .exited := by simp [st, gone, hr]
      exact ⟨_, H, done_answers_exit h hr, State.exitLanes_mem _ _ _, State.exitLanes_hostMem _ _ _, hH, hregs, hne,
        fun hn => absurd (.inr ⟨rfl, hr⟩) hn, hst ▸ hlanes⟩
    · obtain ⟨H, hH, hregs, hne, hlanes⟩ := issued_setStates (s' := x.s.modGroup g fun G => G.setStates x.part .done) h.group (by decide) rfl
      have hst : st = .done := by simp [st, gone, hr]
      exact ⟨_, H, done_answers h hr, rfl, rfl, hH, hregs, hne, fun _ => ⟨rfl, rfl⟩, hst ▸ hlanes⟩
    · obtain ⟨H, hH, hregs, hne, hlanes⟩ := issued_setStates (s' := x.s.modGroup g fun G => G.setStates x.part .heldW) h.group (by decide) rfl
      have hst : st = .heldW := by simp [st, gone]
      exact ⟨_, H, meetw_answers h, rfl, rfl, hH, hregs, hne, fun _ => ⟨rfl, rfl⟩, hst ▸ hlanes⟩
  · rw [← relTarget_eq] at ht
    exact meet_traps h hp ht
  · rw [← relTarget_eq] at ht ⊢
    have hg : (s.modGroup g fun _ => (readGroup c G0).setMeetings (participants c pc G0) (relTarget pc f.off)).groups[g]? =
        some ((readGroup c G0).setMeetings (participants c pc G0) (relTarget pc f.off)) := by
      simp [h.group]
    obtain ⟨H, hH, hregs, -, hlanes⟩ := issued_go_group (.meet c f) c s pc G0 hg
    refine ⟨_, H, meet_answers h ht, ⟨rfl, fun k hk => ?_⟩, hH, (sameRegisters_modLanes _ _ _).trans hregs, fun l y hy => ?_⟩
    · rw [issued_go_groups_ne _ _ _ _ _ _ hk, State.modGroup_groups, modAt_get_ne _ _ hk.symm]
    · have hz := Group.modLanes_get (readGroup c G0) (participants c pc G0) (fun y => { y with mt := relTarget pc f.off }) l
      rw [hy, Option.map_some] at hz
      obtain ⟨y', hy', hm⟩ := hlanes l _ hz
      refine ⟨y', hy', ?_⟩
      by_cases hl : l ∈ G0.fragment pc
      · obtain ⟨h1, h2⟩ := readGroup_of_mem_fragment hl hy
        by_cases hp : l ∈ participants c pc G0
        · simp only [hp, if_true, hl, h1, h2, true_and] at hm
          simp only [ctxAt_part, ctxAt_frag, hp, hl, h1, if_true]
          exact hm.of_eq rfl rfl
        · simp only [hp, if_false, hl, h1, h2, true_and, if_true] at hm
          simp only [ctxAt_part, ctxAt_frag, hp, hl, h1, if_true, if_false]
          exact hm.of_eq rfl rfl
      · have hp : l ∉ participants c pc G0 := fun h => hl (mem_fragment_of_mem_participants h)
        simp only [hp, if_false, hl, false_and] at hm
        simpa only [ctxAt_part, ctxAt_frag, hp, hl, if_false] using hm
  · intro x
    have hne : x.part.isEmpty = false := List.isEmpty_eq_false_iff.2 h.part
    obtain rfl : _ = t := Outcome.next.inj ((exit_answers h.toIssues).symm.trans he)
    refine ⟨exitLanes_token _ h.group, exitLanes_cores_same _ h.group, fun k hk => ?_, fun T hT => ?_⟩
    · exact (congrArg (·[k]?) (exitLanes_teams_same _ h.group x.part)).trans (modAt_get_ne _ _ hk.symm)
    · refine ⟨T.countExits G0.gidx x.part, ?_, by simp [Team.countExits], fun k b hb => ?_⟩
      · exact (congrArg (·[G0.team]?) (exitLanes_teams_same _ h.group x.part)).trans (by simp [hT])
      · have hk : (T.countExits G0.gidx x.part).bars[k]? = some (b.exits G0.gidx x.part.length) := by
          simp [Team.countExits, hb, hne]
        obtain ⟨h1, h2, h3⟩ := b.exits_cases G0.gidx x.part.length
        exact ⟨fun e => h1 e ▸ hk, fun e e' n => h2 e e' n ▸ hk, fun e e' n => h3 e e' n ▸ hk⟩

end Sys2Proof

/-! # The item queue and the refill word (01 R33-R37; 07 R189, R196-R198) -/

namespace Sys2Proof.Machine

/-- The firsts that a pairing keeps. -/
theorem map_fst_zip_eq_take {α β : Type} (l : List α) (m : List β) : (l.zip m).map (·.1) = l.take m.length := by
  induction l generalizing m with
  | nil => simp
  | cons a l ih => cases m with
    | nil => simp
    | cons b m => simp [ih]

/-- What a queue keeps once the list has been served. -/
theorem drop_zip_length {α β : Type} (l : List α) (q : List β) : q.drop (l.zip q).length = q.drop l.length := by
  rw [List.length_zip]
  rcases Nat.le_total l.length q.length with hle | hle
  · rw [Nat.min_eq_left hle]
  · rw [Nat.min_eq_right hle, List.drop_length, List.drop_eq_nil_of_le hle]

variable {s : State} {g : Nat} {G : Group}

theorem State.share_modGroup (h : s.groups[g]? = some G) {f : Group → Group} (ht : (f G).team = G.team) (hi : (f G).gidx = G.gidx) :
    (s.modGroup g f).share g = s.share g := by
  have hslot : ∀ t H, H.gidx = G.gidx → (s.modGroup g f).slotOf t H = s.slotOf t G := fun t H e => by
    unfold State.slotOf
    rw [e]
    rfl
  simp only [State.share, State.group_modGroup h, State.group_eq h, ht, State.team_modGroup, hslot _ _ hi]

/-- What items make of a group whose done lanes take them (01 R36). -/
def Group.takeItems (G : Group) (r : Refill) (got : List (Nat × Word)) : Group :=
  ((G.putVar (itemWrites r.dest got)).modLanes (got.map (·.1)) fun y => { y with st := .active, pc := nextPc r.addr 8 }).settle

theorem State.refillPop_of_nil (h : s.groups[g]? = some G) (r : Refill) (hgot : G.doneLanes.zip (s.share g) = []) : s.refillPop g r = s := by
  simp [State.refillPop, State.group_eq h, hgot]

theorem State.refillPop_of_ne (h : s.groups[g]? = some G) (r : Refill) (hgot : G.doneLanes.zip (s.share g) ≠ []) :
    s.refillPop g r = ((s.setShare g ((s.share g).drop G.doneLanes.length)).modGroup g fun H =>
      H.takeItems r (G.doneLanes.zip (s.share g))).l1Acquire G.core 2 := by
  simp only [State.refillPop, State.group_eq h, List.isEmpty_iff, hgot, if_false, drop_zip_length]
  rfl

theorem State.refillPop_mem (s : State) (g : Nat) (r : Refill) : (s.refillPop g r).mem = s.mem := by
  simp only [State.refillPop]
  split <;> rfl

end Sys2Proof.Machine

namespace Sys2Proof

open Machine Host

theorem MovedTo.st_of_ne {H : Group} {l : Nat} {y y' : Lane} {pc : Word} {st : LaneState} (h : MovedTo H l y y' pc st) (hst : st ≠ .active) :
    y'.st = st := by
  obtain ⟨-, -, -, hs⟩ := h
  simpa [hst] using hs

/-- A lane is in the state it is sent to, or is held at its meeting. -/
theorem MovedTo.st_cases {H : Group} {l : Nat} {y y' : Lane} {pc : Word} {st : LaneState} (h : MovedTo H l y y' pc st) :
    y'.st = st ∨ y'.st = .heldMeet ∧ y'.mt = pc := by
  obtain ⟨-, hmt, -, hs⟩ := h
  split at hs
  · next e => exact .inr ⟨hs, hmt.trans e.2.1.symm⟩
  · exact .inl hs

theorem Machine.Group.takeItems_lane (G : Group) (r : Refill) (got : List (Nat × Word)) {l : Nat} {z : Lane} (hz : G.lanes[l]? = some z) :
    ∃ y, (G.takeItems r got).lanes[l]? = some y ∧
      (l ∉ got.map (·.1) → z.st ≠ .active → y.st = z.st) ∧
      (l ∈ got.map (·.1) → y.pc = nextPc r.addr 8 ∧ (y.st = .active ∨ y.st = .heldMeet ∧ y.mt = nextPc r.addr 8)) := by
  obtain ⟨w, hw, -, -, hst⟩ := (G.rewritten_putVar (itemWrites r.dest got)).lane_after hz
  rw [Group.takeItems, Group.settle_get, Group.modLanes_get, hw]
  refine ⟨_, rfl, fun hl hne => ?_, fun hl => ?_⟩
  · simp only [hl, if_false]
    exact ((movedTo_settled rfl l w).st_of_ne (hst ▸ hne)).trans hst
  · simp only [hl, if_true]
    have hm := movedTo_settled rfl l { w with st := .active, pc := nextPc r.addr 8 } (G := (G.putVar (itemWrites r.dest got)).modLanes
      (got.map (·.1)) fun y => { y with st := .active, pc := nextPc r.addr 8 })
    exact ⟨hm.1, hm.st_cases⟩

/-- The lanes that receive an item become active behind the refill point, or are held there at their meeting; the others stay done. -/
theorem Machine.State.refillPop_lanes {s : State} {g : Nat} {G : Group} (h : s.groups[g]? = some G) (r : Refill) :
    ∃ K, (s.refillPop g r).groups[g]? = some K ∧ K.refill = G.refill ∧ ∀ l z, G.lanes[l]? = some z → ∃ y, K.lanes[l]? = some y ∧
      (l ∉ G.doneLanes.take (s.share g).length → z.st ≠ .active → y.st = z.st) ∧
      (l ∈ G.doneLanes.take (s.share g).length →
        y.pc = nextPc r.addr 8 ∧ (y.st = .active ∨ y.st = .heldMeet ∧ y.mt = nextPc r.addr 8)) := by
  have hserved : (G.doneLanes.zip (s.share g)).map (·.1) = G.doneLanes.take (s.share g).length := map_fst_zip_eq_take _ _
  rw [← hserved]
  by_cases hgot : G.doneLanes.zip (s.share g) = []
  · refine ⟨G, by rw [State.refillPop_of_nil h r hgot, h], rfl, fun l z hz => ⟨z, hz, fun _ _ => rfl, fun hl => ?_⟩⟩
    simp [hgot] at hl
  · refine ⟨G.takeItems r (G.doneLanes.zip (s.share g)), ?_, (G.rewritten_putVar _).refill, fun l z hz => G.takeItems_lane r _ hz⟩
    rw [State.refillPop_of_ne h r hgot]
    exact (modAt_get_self _ _ _).trans (congrArg (Option.map _) h)

end Sys2Proof

/-! ## The words of the queue -/

namespace Sys2Proof

open Machine Host

/-- A performed group-wide word answers as its meaning does in the context that it sees. -/
theorem answers_of_groupWide {i : Instr} {c : Ctl} {s : State} {g : Nat} {pc : Word} {G0 : Group} (h : Performs i c s g pc G0)
    {k : Ctx → Res} (he : exec i s = groupWide i c s k) {r : Res} (hk : k (ctxAt i c s g pc G0) = r) : Answers i c s g pc G0 r := by
  rw [Answers, he, groupWide_issues h.toIssues h.part, hk]

section Queue

variable {c : Ctl} {f : F64} {s : State} {g : Nat} {pc : Word} {G0 : Group}

/-- A share of no entries (07 R196). -/
theorem iqPush_traps (h : Performs (.iqPush c f) c s g pc G0) (hr : (ctxAt (.iqPush c f) c s g pc G0).shareRoom = 0) :
    Traps (.iqPush c f) c s g pc G0 0x01 0 0 0 := by
  refine answers_of_groupWide h (rfl : execIqPush c f s = _) (r := .trap (ctxAt (.iqPush c f) c s g pc G0).s 0x01 0 0 0) ?_
  simp [hr]

theorem iqLoad_traps (h : Performs (.iqLoad c f) c s g pc G0) (hr : (ctxAt (.iqLoad c f) c s g pc G0).shareRoom = 0) :
    Traps (.iqLoad c f) c s g pc G0 0x01 0 0 0 := by
  refine answers_of_groupWide h (rfl : execIqLoad c f s = _) (r := .trap (ctxAt (.iqLoad c f) c s g pc G0).s 0x01 0 0 0) ?_
  simp [hr]

/-- The items that a push appends (07 R196). -/
def pushed (f : F64) (x : Ctx) : List Word := if f.mod = 0 then x.part.map fun l => x.pair f.a l else [x.sreg f.a]

theorem pushed_length (f : F64) (x : Ctx) : (pushed f x).length = if f.mod = 0 then x.part.length else 1 := by
  unfold pushed
  split <;> simp

theorem pushed_eq (f : F64) (x : Ctx) : (if f.mod.toNat = 0 then x.part.map (x.pair f.a) else [x.sreg f.a]) = pushed f x := by
  simp [pushed, BitVec.toNat_eq]

theorem iqPush_answers (h : Performs (.iqPush c f) c s g pc G0) {x : Ctx} (hx : x = ctxAt (.iqPush c f) c s g pc G0)
    (h0 : 0 < x.shareRoom) (hroom : (x.s.share g).length + (pushed f x).length ≤ x.shareRoom) (hrel : x.s.relCheck g 2 = .ok) :
    Answers (.iqPush c f) c s g pc G0 (.go (x.s.setShare g (x.s.share g ++ pushed f x))) := by
  refine answers_of_groupWide h (rfl : execIqPush c f s = _) ?_
  have hg : x.g = g := by rw [hx]; rfl
  simp only [← hx, hg, pushed_eq, beq_iff_eq, h0.ne', if_false, Nat.not_lt.2 hroom, Ctx.released, hrel]

theorem iqPush_waits (h : Performs (.iqPush c f) c s g pc G0) {x : Ctx} (hx : x = ctxAt (.iqPush c f) c s g pc G0)
    (h0 : 0 < x.shareRoom) (hroom : x.shareRoom < (x.s.share g).length + (pushed f x).length) :
    Answers (.iqPush c f) c s g pc G0 (.stall x.s .itemRoom false) := by
  refine answers_of_groupWide h (rfl : execIqPush c f s = _) ?_
  have hg : x.g = g := by rw [hx]; rfl
  simp only [← hx, hg, pushed_eq, beq_iff_eq, h0.ne', if_false, hroom, if_true]

/-- Which lanes received an item: those that the queue reaches. -/
theorem map_any_zip {α β γ : Type} [BEq α] [LawfulBEq α] {l : List α} (hl : l.Nodup) (q : List β) (k : α → Bool → γ) :
    (l.map fun a => k a ((l.zip q).any fun p => p.1 == a)) = l.zipIdx.map fun (a, n) => k a (decide (n < q.length)) := by
  have hany : ∀ (n : Nat) (hn : n < l.length), ((l.zip q).any fun p => p.1 == l[n]) = decide (n < q.length) := fun n hn => by
    rw [Bool.eq_iff_iff, decide_eq_true_eq, List.any_eq_true]
    constructor
    · rintro ⟨p, hp, he⟩
      obtain ⟨m, hm, rfl⟩ := List.getElem_of_mem hp
      simp only [List.length_zip, Nat.lt_min] at hm
      have : m = n := (hl.getElem_inj_iff).1 (by simpa using he)
      omega
    · intro hq
      exact ⟨(l[n], q[n]), List.mem_iff_getElem.2 ⟨n, by simp [hn, hq], by simp⟩, by simp⟩
  refine List.ext_getElem (by simp) fun n h1 h2 => ?_
  simp [hany n (by simpa using h1)]

theorem nodup_participants (c : Ctl) (pc : Word) (G0 : Group) : (participants c pc G0).Nodup :=
  (((List.nodup_range.filter _).filter _).filter _)

theorem iqLoad_answers (h : Performs (.iqLoad c f) c s g pc G0) {x : Ctx} (hx : x = ctxAt (.iqLoad c f) c s g pc G0)
    (h0 : 0 < x.shareRoom) {q : List Word} (hq : q = x.s.share g) {taken : State}
    (ht : taken = (x.s.setShare g (q.drop x.part.length)).modGroup g fun G =>
      G.putVar (itemWrites f.d.toNat (x.part.zip q) ++ x.part.zipIdx.map fun (l, k) => .p f.b.toNat l (decide (k < q.length)))) :
    Answers (.iqLoad c f) c s g pc G0 (.go (if q = [] then taken else taken.l1Acquire G0.core 2)) := by
  refine answers_of_groupWide h (rfl : execIqLoad c f s = _) ?_
  have hg : x.g = g := by rw [hx]; rfl
  have hcore : x.G.core = G0.core := by rw [hx]; exact (rewritten_readGroup c G0).core
  have hpart : x.part.Nodup := by rw [hx]; exact nodup_participants c pc G0
  have hne : x.part ≠ [] := by rw [hx]; exact h.part
  have hgot : (x.part.zip q).isEmpty = decide (q = []) := by
    rw [Bool.eq_iff_iff]
    simp [List.zip_eq_nil_iff, hne]
  simp only [← hx, hg, ← hq, beq_iff_eq, h0.ne', if_false, map_any_zip hpart, drop_zip_length, hgot, hcore, decide_eq_true_eq, ← ht]

theorem iqCount_answers (h : Performs (.iqCount c f) c s g pc G0) {x : Ctx} (hx : x = ctxAt (.iqCount c f) c s g pc G0) :
    Answers (.iqCount c f) c s g pc G0 (.go (x.s.modGroup g fun G => G.putVar [.s f.d.toNat (BitVec.ofNat 64 (x.s.share g).length)])) :=
  answers_of_groupWide h (rfl : execIqCount c f s = _) (by rw [hx]; rfl)

end Queue

/-- Every block of a register that holds a lane is tagged RAW when the lane takes a plain value (02 R53). -/
theorem mem_plainTag {r : Nat} {ls : List Nat} {l : Nat} (hl : l ∈ ls) (hl64 : l < 64) :
    .fld r 0#16 ∈ plainTag r 0 ls ∧ .exp r (l / 8) 0#8 ∈ plainTag r 0 ls := by
  have hb : l / 8 ∈ blocksOf ls := by
    simp only [blocksOf, List.mem_filter, List.mem_range, List.any_eq_true, beq_iff_eq]
    exact ⟨by omega, l, hl, rfl⟩
  exact ⟨List.mem_cons_self, List.mem_cons_of_mem _ (List.mem_map_of_mem hb)⟩

theorem mem_itemWrites {d : Nat} {got : List (Nat × Word)} {p : Nat × Word} (hp : p ∈ got) (hl : p.1 < 64) :
    .v d p.1 (p.2.setWidth 32) ∈ itemWrites d got ∧ .v (d + 1) p.1 ((p.2 >>> 32).setWidth 32) ∈ itemWrites d got ∧
    ∀ e, e = d ∨ e = d + 1 → .fld e 0#16 ∈ itemWrites d got ∧ .exp e (p.1 / 8) 0#8 ∈ itemWrites d got := by
  have hne : got.isEmpty = false := List.isEmpty_eq_false_iff.2 (List.ne_nil_of_mem hp)
  have htag : ∀ e, .fld e 0#16 ∈ plainTag e 0 (got.map (·.1)) ∧ .exp e (p.1 / 8) 0#8 ∈ plainTag e 0 (got.map (·.1)) := fun e =>
    mem_plainTag (List.mem_map_of_mem hp) hl
  simp only [itemWrites, hne, Bool.false_eq_true, if_false, List.mem_append, List.mem_flatMap]
  refine ⟨.inl (.inl ⟨p, hp, by simp⟩), .inl (.inl ⟨p, hp, by simp⟩), ?_⟩
  rintro e (rfl | rfl)
  · exact ⟨.inl (.inr (htag e).1), .inl (.inr (htag e).2)⟩
  · exact ⟨.inr (htag _).1, .inr (htag _).2⟩

end Sys2Proof

/-! ## The refill word -/

namespace Sys2Proof

open Machine Host

section Refill

variable {c : Ctl} {f : F64} {s : State} {g : Nat} {pc : Word} {G0 : Group}

theorem refillExit_eq (pc : Word) (f : F64) : refillExit pc f = pc + BitVec.ofInt 64 (4 * (f.c ++ f.b ++ f.a).toInt) := relTarget_eq _ _

/-- The refill point that the word sets (07 R189). -/
def refillOf (pc : Word) (f : F64) : Refill := ⟨pc, refillExit pc f, f.d.toNat⟩

/-- The state once the refill point is set. -/
def refillSet (c : Ctl) (f : F64) (s : State) (g : Nat) (pc : Word) (G0 : Group) : State :=
  (ctxAt (.refill c f) c s g pc G0).s.modGroup g fun G => { G with refill := some (refillOf pc f) }

theorem refill_traps (h : Performs (.refill c f) c s g pc G0) (ht : (refillExit pc f).toNat % 32 = 28) :
    Traps (.refill c f) c s g pc G0 0x03 0 0 0 := by
  refine answers_of_groupWide h (rfl : execRefill c f s = _) (r := .trap (ctxAt (.refill c f) c s g pc G0).s 0x03 0 0 0) ?_
  have hpc : (ctxAt (.refill c f) c s g pc G0).pc = pc := rfl
  simp [hpc, ht]

theorem refill_answers (h : Performs (.refill c f) c s g pc G0) (ht : (refillExit pc f).toNat % 32 ≠ 28) :
    Answers (.refill c f) c s g pc G0 (.go ((refillSet c f s g pc G0).refillPop g (refillOf pc f))) := by
  refine answers_of_groupWide h (rfl : execRefill c f s = _) ?_
  have hpc : (ctxAt (.refill c f) c s g pc G0).pc = pc := rfl
  simp only [hpc, beq_iff_eq, ht, if_false]
  rfl

theorem refillSet_group (h : s.groups[g]? = some G0) :
    (refillSet c f s g pc G0).groups[g]? = some { readGroup c G0 with refill := some (refillOf pc f) } := by
  simp [refillSet, ctxAt_group _ h]

theorem refillSet_share (h : s.groups[g]? = some G0) :
    (refillSet c f s g pc G0).share g = (ctxAt (.refill c f) c s g pc G0).s.share g :=
  State.share_modGroup (ctxAt_group _ h) rfl rfl

/-- The items that the share holds go to done lanes of the group that the word read. -/
theorem refillSet_pop (h : s.groups[g]? = some G0) {q : List Word} (hq : q = (ctxAt (.refill c f) c s g pc G0).s.share g)
    (hne : (readGroup c G0).doneLanes.zip q ≠ []) :
    (refillSet c f s g pc G0).refillPop g (refillOf pc f) =
      (((refillSet c f s g pc G0).setShare g (q.drop (readGroup c G0).doneLanes.length)).modGroup g fun H =>
        H.takeItems (refillOf pc f) ((readGroup c G0).doneLanes.zip q)).l1Acquire G0.core 2 := by
  subst hq
  rw [← refillSet_share h] at hne ⊢
  rw [← (rewritten_readGroup c G0).core]
  exact State.refillPop_of_ne (refillSet_group h) (refillOf pc f) hne

theorem refillSet_pop_nil (h : s.groups[g]? = some G0)
    (hnil : (readGroup c G0).doneLanes.zip ((ctxAt (.refill c f) c s g pc G0).s.share g) = []) :
    (refillSet c f s g pc G0).refillPop g (refillOf pc f) = refillSet c f s g pc G0 := by
  rw [← refillSet_share h] at hnil
  exact State.refillPop_of_nil (refillSet_group h) (refillOf pc f) hnil

theorem mem_doneLanes {G : Group} {l : Nat} (h : l ∈ G.doneLanes) : G.lanes[l]? = some (G.laneAt l) ∧ (G.laneAt l).st = .done := by
  have hst : (G.laneAt l).st = .done := by
    simp only [Group.doneLanes, List.mem_filter, beq_iff_eq] at h
    exact h.2
  exact ⟨Group.get_laneAt (by simp [hst]), hst⟩

theorem nodup_doneLanes (G : Group) : G.doneLanes.Nodup := List.nodup_range.filter _

/-- What the word leaves of the lanes that were done (07 R189, 01 R36): items go to the first of them. -/
theorem refill_lanes (h : s.groups[g]? = some G0) {q : List Word} (hq : q = (ctxAt (.refill c f) c s g pc G0).s.share g) :
    ∃ H, (issued (.refill c f) c s g pc G0 (.go ((refillSet c f s g pc G0).refillPop g (refillOf pc f)))).groups[g]? = some H ∧
      H.refill = some (refillOf pc f) ∧
      (∀ l ∈ (readGroup c G0).doneLanes.drop q.length, (H.laneAt l).st = .done) ∧
      ∀ l ∈ (readGroup c G0).doneLanes.take q.length, (H.laneAt l).pc = nextPc pc 8 ∧
        ((H.laneAt l).st = .active ∨ (H.laneAt l).st = .heldMeet ∧ (H.laneAt l).mt = nextPc pc 8) := by
  obtain ⟨K, hK, hrefill, hlanes⟩ := State.refillPop_lanes (refillSet_group (c := c) (f := f) (pc := pc) h) (refillOf pc f)
  obtain ⟨H, hH, -, hrefill', hlanes'⟩ := issued_go_group (.refill c f) c s pc G0 hK
  rw [refillSet_share h, ← hq] at hlanes
  have hmoved : ∀ l ∈ (readGroup c G0).doneLanes, ∃ y, K.lanes[l]? = some y ∧
      (l ∉ (readGroup c G0).doneLanes.take q.length → y.st = .done) ∧
      (l ∈ (readGroup c G0).doneLanes.take q.length → y.pc = nextPc pc 8 ∧ (y.st = .active ∨ y.st = .heldMeet ∧ y.mt = nextPc pc 8)) ∧
      MovedTo H l y (H.laneAt l) y.pc y.st := fun l hl => by
    obtain ⟨hz, hst⟩ := mem_doneLanes hl
    have hfrag : l ∉ G0.fragment pc := fun e => by
      have := (readGroup_of_mem_fragment e hz).1
      simp [hst] at this
    obtain ⟨y, hy, hrest, hserved⟩ := hlanes l _ hz
    obtain ⟨y', hy', hm⟩ := hlanes' l y hy
    rw [if_neg (fun e => hfrag e.1), ← Group.laneAt_eq hy'] at hm
    exact ⟨y, hy, fun e => (hrest e (by simp [hst])).trans hst, hserved, hm⟩
  refine ⟨H, hH, hrefill'.trans hrefill, fun l hl => ?_, fun l hl => ?_⟩
  · obtain ⟨y, -, hrest, -, hm⟩ := hmoved l (List.mem_of_mem_drop hl)
    have hst := hrest fun e => List.disjoint_take_drop (nodup_doneLanes _) (Nat.le_refl _) e hl
    exact (hm.st_of_ne (by simp [hst])).trans hst
  · obtain ⟨y, -, -, hserved, hm⟩ := hmoved l (List.mem_of_mem_take hl)
    obtain ⟨hpc, hst⟩ := hserved hl
    obtain ⟨hpc', hmt', -, -⟩ := id hm
    refine ⟨hpc'.trans hpc, ?_⟩
    rcases hst with hst | ⟨hst, hmt⟩
    · rw [hst, hpc] at hm
      exact hm.st_cases
    · exact .inr ⟨(hm.st_of_ne (by simp [hst])).trans hst, hmt'.trans hmt⟩

end Refill

/-- Settles O33: each word's answer is its meaning's, in the context that it sees; of `refill`, what the items make of the group
(`refillPop_lanes`) is carried through the issue (`issued_go_group`). -/
theorem queueWords : Obligations.QueueWords := by
  unfold Obligations.QueueWords
  refine ⟨⟨fun i c f s g pc G0 hi h hr => ?_, fun c f s g pc G0 h h0 hroom hrel => iqPush_answers h rfl h0 hroom hrel,
    fun c f s g pc G0 h h0 hroom => iqPush_waits h rfl h0 ?_, fun c f s g pc G0 h h0 => iqLoad_answers h rfl h0 rfl rfl,
    fun c f s g pc G0 h => iqCount_answers h rfl⟩, fun d got p hp hl => mem_itemWrites hp hl, fun c f s g pc G0 h => ?_⟩
  · rcases hi with rfl | rfl
    · exact iqPush_traps h hr
    · exact iqLoad_traps h hr
  · rwa [pushed_length]
  · intro x target marked got
    have htarget : target = refillExit pc f := (refillExit_eq pc f).symm
    have hmarked : marked = refillSet c f s g pc G0 := by simp only [marked, refillSet, refillOf, htarget]; rfl
    rw [htarget, hmarked]
    refine ⟨refill_traps h, fun ht hne => ?_, fun ht => ?_⟩
    · have hans := refill_answers h ht
      rwa [refillSet_pop h.group rfl hne] at hans
    · obtain ⟨H, hH, hrefill, hrest, hserved⟩ := refill_lanes (c := c) (f := f) (pc := pc) h.group rfl
      refine ⟨_, H, refill_answers h ht, hH, State.refillPop_mem _ _ _, hrefill, hrest,
        fun k l hl => hserved l (List.mem_of_getElem? hl), fun hnone => ?_⟩
      have hans := refill_answers h ht
      rwa [refillSet_pop_nil h.group (List.zip_eq_nil_iff.2 hnone)] at hans

end Sys2Proof

/-! # A lane that stands at its own meeting address

A lane that a word brings to its meeting address is held there by that word (01 R26). `IssueFrame` and `GroupEvents` speak of all states, also of
those in which a lane stands active at its own meeting address; such a lane refutes the clauses of theirs in which the model settles no
meeting. -/

namespace Sys2Proof

open Machine Host

/-- An active lane whose program counter is its meeting address. -/
def unsettledLane : Lane := ⟨0#64, 0#64, 0#7, .active, 0⟩

def unsettledGroup : Group := { Group.zero with gw := 1, lanes := [unsettledLane] }

def unsettledState : State := { State.reset with groups := [unsettledGroup] }

/-- Where no word holds lane 0, `MovedTo` does not allow it to stay active. -/
theorem not_movedTo_active {H : Group} {y' : Lane} (hheld : H.heldLanes = []) (hst : y'.st = .active) :
    ¬ MovedTo H 0 unsettledLane y' 0#64 .active := by
  rintro ⟨-, -, -, h⟩
  simp [hheld, unsettledLane, hst] at h

/-! ## A word that is held -/

/-- A word that waits and has no lane left that it would hold. -/
def laneless : OWord :=
  { id := 0, pc := 0#64, next := 8#64, tok := none, dests := [], held := [], acq := 0, rel := 0, isLoad := false, isStore := false,
    unOnly := false, so := false, kind := .land [] }

def plainCtl : Ctl := ⟨0#4, false, false, 0#3, 0#3, 0#6, 0#4⟩

/-- The state that `nop`, were it held as `laneless`, would leave of the unsettled state. -/
def heldState : State :=
  issued (.nop plainCtl ⟨0, 0, 0, 0, 0⟩) plainCtl unsettledState 0 0#64 unsettledGroup (.hold unsettledState laneless)

theorem heldState_group : heldState.groups[0]?.map (fun H => (H.heldLanes, H.lanes)) = some ([], [unsettledLane]) := by
  decide

/-- Refutes O52: its third clause, of a word that waits. The answer `.hold` leaves the fragment's lanes where they stand and settles no
meeting, so a lane that stands active at its own meeting address stays active, where the clause (`MovedTo`) has it held. -/
theorem not_issueFrame : ¬ Obligations.IssueFrame := by
  unfold Obligations.IssueFrame
  rintro ⟨-, -, h⟩
  obtain ⟨-, -, ⟨-, H, hH, -, -, -, -, hlanes⟩, -⟩ :=
    h (.nop plainCtl ⟨0, 0, 0, 0, 0⟩) plainCtl unsettledState unsettledState 0 0#64 unsettledGroup unsettledGroup laneless rfl
  have hgroup := heldState_group
  rw [heldState, hH, Option.map_some, Option.some.injEq, Prod.mk.injEq] at hgroup
  obtain ⟨hheld, hl⟩ := hgroup
  obtain ⟨y', hy', hm⟩ := hlanes 0 unsettledLane rfl
  have hy : y' = unsettledLane := by simpa [hl] using hy'.symm
  rw [show unsettledLane.pc = 0#64 from rfl, ite_self] at hm
  exact not_movedTo_active hheld (by rw [hy]; rfl) hm

/-! ## A refill attempt that finds no item -/

/-- Refutes O53: its seventh clause, of the lanes that receive no item. Where the group has no done lane the attempt changes nothing, so a lane
that stands active at its own meeting address stays active, where the clause (`MovedTo`) has it held. -/
theorem not_groupEvents : ¬ Obligations.GroupEvents := by
  unfold Obligations.GroupEvents
  rintro ⟨-, -, -, -, -, -, h, -⟩
  have hv : ∀ v ∈ unsettledGroup.v, v.lanes.length = unsettledGroup.gw := fun v hv => by cases hv
  obtain ⟨hsame, -, -, -, H, hH, -, -, -, -, -, -, hrest, -⟩ := h unsettledState 0 unsettledGroup ⟨0#64, 0#64, 0⟩ rfl rfl hv
  rw [hsame rfl] at hH
  obtain rfl : unsettledGroup = H := Option.some.inj hH
  have hdone : (List.range unsettledGroup.gw).filter (fun l => (unsettledGroup.laneAt l).st == .done) = [] := rfl
  obtain ⟨y', hy', hm⟩ := hrest 0 unsettledLane (fun w => by simp [hdone]) rfl
  obtain rfl : unsettledLane = y' := Option.some.inj hy'
  exact not_movedTo_active rfl rfl hm

end Sys2Proof

/-! # Rounding an exact value (03 R70-R73)

A magnitude stands as `m × 2^e`, exactly or with something below its last bit (`Stands`). The model's integer rounding chooses the integer
that R73 chooses of the exact value (`roundQ_chosen`), so a result depends on the value alone; a value of a format and its encoding
stand for each other. -/

namespace Sys2Proof

/-! ## The integer that a mode selects -/

/-- The sign of a number as a factor. -/
abbrev sgn (s : Bool) : Rat := if s then -1 else 1

theorem abs_sgn_mul (s : Bool) (y : Rat) : |sgn s * y| = |y| := by cases s <;> simp

theorem Num.rat_fin (s : Bool) (m : Nat) (e : Int) : (Num.fin s m e).rat = sgn s * m * 2 ^ e := rfl

theorem signed_cast (s : Bool) (m : Nat) : ((signed s m : Int) : Rat) = sgn s * m := by cases s <;> simp [signed]

@[simp] theorem natAbs_signed (s : Bool) (m : Nat) : (signed s m).natAbs = m := by cases s <;> simp [signed]

/-- `n` is an integer nearest to `y`, and the even one of two. -/
def Nearest (n : Int) (y : Rat) : Prop := |(n : Rat) - y| ≤ 1 / 2 ∧ (|(n : Rat) - y| = 1 / 2 → n % 2 = 0)

theorem Nearest.neg {n : Int} {y : Rat} (h : Nearest n y) : Nearest (-n) (-y) := by
  have habs : |((-n : Int) : Rat) - -y| = |(n : Rat) - y| := by
    rw [← abs_neg]
    congr 1
    push_cast
    ring
  unfold Nearest
  rw [habs]
  exact ⟨h.1, fun e => by have := h.2 e; omega⟩

/-- Two such integers would be neighbours, both half away from `y`, and both even. -/
theorem Nearest.unique {n k : Int} {y : Rat} (hn : Nearest n y) (hk : Nearest k y) : n = k := by
  by_contra hne
  wlog h : n < k generalizing n k
  · exact this hk hn (Ne.symm hne) (by omega)
  obtain ⟨hn1, hn2⟩ := hn
  obtain ⟨hk1, hk2⟩ := hk
  have hle : (n : Rat) + 1 ≤ k := by exact_mod_cast h
  rw [abs_le] at hn1 hk1
  have hkn : (k : Rat) = n + 1 := by linarith
  have hn' := hn2 (by rw [abs_eq (by norm_num)]; right; linarith)
  have hk' := hk2 (by rw [abs_eq (by norm_num)]; left; linarith)
  have : k = n + 1 := by exact_mod_cast hkn
  omega

theorem nearest_floor {n : Int} {y : Rat} (h0 : n ≤ y) (h : y - n < 1 / 2 ∨ y - n = 1 / 2 ∧ n % 2 = 0) : Nearest n y := by
  have habs : |(n : Rat) - y| = y - n := by rw [abs_sub_comm, abs_of_nonneg (by linarith)]
  rw [Nearest, habs]
  rcases h with h | ⟨h, he⟩
  · exact ⟨h.le, fun e => absurd e h.ne⟩
  · exact ⟨h.le, fun _ => he⟩

theorem nearest_floor_add_one {n : Int} {y : Rat} (h1 : y < n + 1) (h : 1 / 2 < y - n ∨ y - n = 1 / 2 ∧ n % 2 = 1) : Nearest (n + 1) y := by
  have habs : |((n + 1 : Int) : Rat) - y| = n + 1 - y := by push_cast; exact abs_of_nonneg (by linarith)
  rw [Nearest, habs]
  rcases h with h | ⟨h, he⟩
  · exact ⟨by linarith, fun e => by linarith⟩
  · exact ⟨by linarith, fun _ => by omega⟩

theorem selected_rne (y : Rat) : Nearest (selected .rne y) y := by
  have h0 := Int.floor_le y
  have h1 := Int.lt_floor_add_one y
  unfold selected
  dsimp only
  split
  next h => exact nearest_floor h0 h
  next h =>
    rw [not_or, not_and, not_lt] at h
    refine nearest_floor_add_one h1 ?_
    rcases h.1.lt_or_eq with hlt | heq
    · exact .inl hlt
    · have := h.2 heq.symm
      exact .inr ⟨heq.symm, by omega⟩

/-- The directed modes that round a magnitude of sign `neg` up (R73). -/
def Away (rm : Rm) (neg : Bool) : Prop := rm = .rup ∧ neg = false ∨ rm = .rdn ∧ neg = true

/-- The integer `k` that a mode chooses for the magnitude `z` of sign `neg`, in units of the quantum (R73). -/
structure Chosen (rm : Rm) (neg : Bool) (z : Rat) (k : Nat) : Prop where
  nearest : rm = .rne → Nearest k z
  away : Away rm neg → k = ⌈z⌉₊
  toward : rm ≠ .rne → ¬Away rm neg → k = ⌊z⌋₊

section Chosen

variable {rm : Rm} {neg : Bool} {z : Rat} {k n : Nat}

theorem Chosen.unique (h : Chosen rm neg z k) (h' : Chosen rm neg z n) : k = n := by
  by_cases hn : rm = .rne
  · exact_mod_cast (h.nearest hn).unique (h'.nearest hn)
  by_cases ha : Away rm neg
  · exact (h.away ha).trans (h'.away ha).symm
  · exact (h.toward hn ha).trans (h'.toward hn ha).symm

theorem Chosen.le (h : Chosen rm neg z k) (hz : z ≤ n) : k ≤ n := by
  by_cases hn : rm = .rne
  · obtain ⟨hk, -⟩ := h.nearest hn
    rw [abs_le] at hk
    push_cast at hk
    have : (k : Rat) < n + 1 := by linarith
    exact Nat.lt_succ_iff.1 (by exact_mod_cast this)
  by_cases ha : Away rm neg
  · exact (h.away ha).trans_le (Nat.ceil_le.2 hz)
  · rw [h.toward hn ha]
    exact Nat.floor_le_of_le hz

/-- With its sign the chosen magnitude is the integer that the mode selects. -/
theorem Chosen.selected (h : Chosen rm neg z k) (hz : 0 ≤ z) : selected rm (sgn neg * z) = signed neg k := by
  have hc : (⌈z⌉₊ : Int) = ⌈z⌉ := Int.natCast_ceil_eq_ceil hz
  have hf : (⌊z⌋₊ : Int) = ⌊z⌋ := Int.natCast_floor_eq_floor hz
  have hlt : -z < 0 ↔ z ≠ 0 := by rw [neg_lt_zero, lt_iff_le_and_ne, ne_comm]; simp [hz]
  by_cases hn : rm = .rne
  · subst hn
    refine (selected_rne _).unique ?_
    have hk := h.nearest rfl
    cases neg
    · simpa [signed] using hk
    · simpa [signed] using hk.neg
  by_cases ha : Away rm neg
  · rw [h.away ha]
    rcases ha with ⟨rfl, rfl⟩ | ⟨rfl, rfl⟩
    · simp [Sys2Proof.selected, signed, hc]
    · simp [Sys2Proof.selected, signed, hc, Int.floor_neg]
  · rw [h.toward hn ha]
    cases rm <;> cases neg <;> simp_all [Away, Sys2Proof.selected, signed, Int.ceil_neg, not_lt.2 hz]

end Chosen

/-! ## What the integer rounding of the model gives -/

/-- The magnitude `y` stands as `m × 2^e`, exactly or with something below the last bit (`sticky`). -/
def Stands (y : Rat) (m : Nat) (e : Int) (sticky : Bool) : Prop :=
  ∃ r : Rat, 0 ≤ r ∧ r < 1 ∧ (sticky = false ↔ r = 0) ∧ y = (m + r) * 2 ^ e

theorem stands_exact (m : Nat) (e : Int) : Stands (m * 2 ^ e) m e false := ⟨0, le_rfl, one_pos, by simp, by simp⟩

theorem stands_between {y : Rat} {m : Nat} {e : Int} (h0 : (m : Rat) * 2 ^ e < y) (h1 : y < ((m : Rat) + 1) * 2 ^ e) : Stands y m e true := by
  have he : (0 : Rat) < 2 ^ e := by positivity
  rw [← lt_div_iff₀ he] at h0
  rw [← div_lt_iff₀ he] at h1
  exact ⟨y / 2 ^ e - m, by linarith, by linarith, by simp; linarith, by field_simp; ring⟩

/-- The part of `y` below its quantum, against one half and against zero. -/
structure Remainder (w : Rat) (sh rem : Nat) (sticky : Bool) : Prop where
  nonneg : 0 ≤ w
  lt_one : w < 1
  zero_iff : w = 0 ↔ rem = 0 ∧ sticky = false
  low : 2 * rem < 2 ^ sh → w < 1 / 2
  high : 2 ^ sh < 2 * rem → 1 / 2 < w
  tie : 2 * rem = 2 ^ sh → sticky = false → w = 1 / 2
  past : 2 * rem = 2 ^ sh → sticky = true → 1 / 2 < w

theorem remainder_of_shift {sh rem : Nat} {r : Rat} {sticky : Bool} (hsh : sh ≠ 0) (hrem : rem < 2 ^ sh) (h0 : 0 ≤ r) (h1 : r < 1)
    (hs : sticky = false ↔ r = 0) : Remainder ((rem + r) / 2 ^ sh) sh rem sticky := by
  have hd : (0 : Rat) < 2 ^ sh := by positivity
  have hle : (rem : Rat) + 1 ≤ 2 ^ sh := by exact_mod_cast hrem
  refine ⟨by positivity, ?_, ?_, fun h => ?_, fun h => ?_, fun h e => ?_, fun h e => ?_⟩
  · rw [div_lt_one hd]; linarith
  · rw [div_eq_zero_iff, or_iff_left hd.ne', hs]
    refine ⟨fun h => ?_, fun ⟨h, e⟩ => by simp [h, e]⟩
    have hr0 : (0 : Rat) ≤ rem := rem.cast_nonneg
    exact ⟨by exact_mod_cast (by linarith : (rem : Rat) = 0), by linarith⟩
  · have heven : 2 * rem + 2 ≤ 2 ^ sh := by
      obtain ⟨n, rfl⟩ := Nat.exists_eq_succ_of_ne_zero hsh
      rw [pow_succ] at h ⊢
      omega
    have : (2 : Rat) * rem + 2 ≤ 2 ^ sh := by exact_mod_cast heven
    rw [div_lt_div_iff₀ hd two_pos]
    linarith
  · have : (2 : Rat) ^ sh < 2 * rem := by exact_mod_cast h
    rw [div_lt_div_iff₀ two_pos hd]
    linarith
  · have : (2 : Rat) * rem = 2 ^ sh := by exact_mod_cast h
    rw [hs.1 e, div_eq_div_iff hd.ne' two_ne_zero]
    linarith
  · have : (2 : Rat) * rem = 2 ^ sh := by exact_mod_cast h
    have hr : 0 < r := lt_of_le_of_ne h0 fun e' => by simp [hs.2 e'.symm] at e
    rw [div_lt_div_iff₀ two_pos hd]
    linarith

theorem stands_quantum {y : Rat} {m : Nat} {e qe : Int} {sticky : Bool} (h : Stands y m e sticky) (hq : e < qe) :
    ∃ w, Remainder w (qe - e).toNat (m % 2 ^ (qe - e).toNat) sticky ∧ y / 2 ^ qe = (m / 2 ^ (qe - e).toNat : Nat) + w := by
  obtain ⟨r, h0, h1, hs, rfl⟩ := h
  obtain ⟨sh, hsh⟩ : ∃ sh : Nat, qe = e + sh := ⟨(qe - e).toNat, by omega⟩
  have htoNat : (qe - e).toNat = sh := by omega
  rw [htoNat]
  refine ⟨_, remainder_of_shift (by omega) (Nat.mod_lt _ (by positivity)) h0 h1 hs, ?_⟩
  have hm : (m : Rat) = 2 ^ sh * (m / 2 ^ sh : Nat) + (m % 2 ^ sh : Nat) := by exact_mod_cast (Nat.div_add_mod m (2 ^ sh)).symm
  have hp : (2 : Rat) ^ e ≠ 0 := by positivity
  rw [hsh, zpow_add₀ two_ne_zero, zpow_natCast, hm]
  field_simp
  ring

theorem roundQ_of_le {rm : Rm} {neg sticky : Bool} {m : Nat} {e qe : Int} (h : qe ≤ e) :
    roundQ rm neg m e sticky qe = m * 2 ^ (e - qe).toNat := if_pos h

theorem exact_quotient {m : Nat} {e qe : Int} (h : qe ≤ e) : (m : Rat) * 2 ^ e / 2 ^ qe = (m * 2 ^ (e - qe).toNat : Nat) := by
  obtain ⟨n, hn⟩ : ∃ n : Nat, e = qe + n := ⟨(e - qe).toNat, by omega⟩
  have htoNat : (e - qe).toNat = n := by omega
  rw [htoNat, hn, zpow_add₀ two_ne_zero, zpow_natCast]
  push_cast
  field_simp

section RoundQ

variable {y : Rat} {m : Nat} {e qe : Int} {sticky : Bool}

theorem Stands.nonneg (h : Stands y m e sticky) : 0 ≤ y := by
  obtain ⟨r, h0, -, -, rfl⟩ := h
  positivity

/-- With the quantum at or below the last bit nothing is rounded. -/
theorem Stands.of_le (h : Stands y m e sticky) (hq : sticky = true → e < qe) (hle : qe ≤ e) (rm : Rm) (neg : Bool) :
    y / 2 ^ qe = roundQ rm neg m e sticky qe := by
  have hst : sticky = false := by cases sticky with | false => rfl | true => have := hq rfl; omega
  obtain ⟨r, -, -, hs, rfl⟩ := h
  rw [hs.1 hst, add_zero, exact_quotient hle, roundQ_of_le hle]

/-- Whether a mode goes to the next integer above `k`, for a remainder of `rem` parts in `2 ^ sh`. -/
def roundsUp (rm : Rm) (neg : Bool) (sh k rem : Nat) (sticky : Bool) : Bool :=
  match rm with
  | .rne => decide (2 ^ sh < 2 * rem) || (2 * rem == 2 ^ sh && (sticky || k % 2 == 1))
  | .rz => false
  | .rdn => neg && (2 * rem != 0 || sticky)
  | .rup => !neg && (2 * rem != 0 || sticky)

theorem roundQ_of_lt {rm : Rm} {neg : Bool} (h : e < qe) : roundQ rm neg m e sticky qe = m / 2 ^ (qe - e).toNat +
    (roundsUp rm neg (qe - e).toNat (m / 2 ^ (qe - e).toNat) (m % 2 ^ (qe - e).toNat) sticky).toNat := by
  rw [roundQ, if_neg (not_le.2 h)]
  rfl

theorem nearest_roundsUp {w : Rat} {sh rem : Nat} (h : Remainder w sh rem sticky) (neg : Bool) (k : Nat) :
    Nearest (k + (roundsUp .rne neg sh k rem sticky).toNat : Int) (k + w) := by
  obtain ⟨h0, h1, -, hlow, hhigh, htie, hpast⟩ := h
  have stay : roundsUp .rne neg sh k rem sticky = false → (w < 1 / 2 ∨ w = 1 / 2 ∧ (k : Int) % 2 = 0) →
      Nearest (k + (roundsUp .rne neg sh k rem sticky).toNat : Int) (k + w) := fun e hw => by
    rw [e, Bool.toNat_false, Nat.cast_zero, add_zero]
    exact nearest_floor (by simpa using h0) (by simpa using hw)
  have go : roundsUp .rne neg sh k rem sticky = true → (1 / 2 < w ∨ w = 1 / 2 ∧ (k : Int) % 2 = 1) →
      Nearest (k + (roundsUp .rne neg sh k rem sticky).toNat : Int) (k + w) := fun e hw => by
    rw [e, Bool.toNat_true, Nat.cast_one]
    exact nearest_floor_add_one (by simpa using h1) (by simpa using hw)
  rcases lt_trichotomy (2 * rem) (2 ^ sh) with hc | hc | hc
  · exact stay (by simp [roundsUp, hc.le, hc.ne]) (.inl (hlow hc))
  · cases sticky with
    | true => exact go (by simp [roundsUp, hc]) (.inl (hpast hc rfl))
    | false =>
      rcases Nat.mod_two_eq_zero_or_one k with hk | hk
      · exact stay (by simp [roundsUp, hc, hk]) (.inr ⟨htie hc rfl, by omega⟩)
      · exact go (by simp [roundsUp, hc, hk]) (.inr ⟨htie hc rfl, by omega⟩)
  · exact go (by simp [roundsUp, hc]) (.inl (hhigh hc))

theorem roundQ_rne (h : Stands y m e sticky) (hq : sticky = true → e < qe) (neg : Bool) :
    Nearest (roundQ .rne neg m e sticky qe) (y / 2 ^ qe) := by
  rcases le_or_gt qe e with hle | hlt
  · rw [h.of_le hq hle .rne neg]
    simp [Nearest]
  · obtain ⟨w, hw, hy⟩ := stands_quantum h hlt
    rw [hy, roundQ_of_lt hlt]
    exact_mod_cast nearest_roundsUp hw neg _

theorem roundQ_away (h : Stands y m e sticky) (hq : sticky = true → e < qe) {rm : Rm} {neg : Bool} (ha : Away rm neg) :
    roundQ rm neg m e sticky qe = ⌈y / 2 ^ qe⌉₊ := by
  rcases le_or_gt qe e with hle | hlt
  · rw [h.of_le hq hle rm neg, Nat.ceil_natCast]
  obtain ⟨w, hw, hy⟩ := stands_quantum h hlt
  obtain ⟨h0, h1, hzero, -⟩ := hw
  have hup : ∀ sh k rem, roundsUp rm neg sh k rem sticky = (rem != 0 || sticky) := fun sh k rem => by
    have hdouble : (2 * rem != 0) = (rem != 0) := Bool.eq_iff_iff.2 (by simp)
    rcases ha with ⟨rfl, rfl⟩ | ⟨rfl, rfl⟩ <;> simp [roundsUp, hdouble]
  rw [roundQ_of_lt hlt, hup, hy, add_comm _ w, Nat.ceil_add_natCast h0, add_comm]
  congr 1
  by_cases hw0 : w = 0
  · obtain ⟨hr, rfl⟩ := hzero.1 hw0
    simp [hw0, hr]
  · have hup' : (m % 2 ^ (qe - e).toNat != 0 || sticky) = true := by
      by_contra hne
      simp only [Bool.or_eq_true, bne_iff_ne, not_or, not_not, Bool.not_eq_true] at hne
      exact hw0 (hzero.2 hne)
    rw [hup', Bool.toNat_true, eq_comm, Nat.ceil_eq_iff one_ne_zero]
    exact ⟨by simpa using lt_of_le_of_ne h0 (Ne.symm hw0), by simpa using h1.le⟩

theorem roundQ_toward (h : Stands y m e sticky) (hq : sticky = true → e < qe) {rm : Rm} {neg : Bool} (hn : rm ≠ .rne) (ha : ¬Away rm neg) :
    roundQ rm neg m e sticky qe = ⌊y / 2 ^ qe⌋₊ := by
  rcases le_or_gt qe e with hle | hlt
  · rw [h.of_le hq hle rm neg, Nat.floor_natCast]
  obtain ⟨w, hw, hy⟩ := stands_quantum h hlt
  have hup : ∀ sh k rem, roundsUp rm neg sh k rem sticky = false := fun sh k rem => by
    cases rm <;> cases neg <;> simp_all [Away, roundsUp]
  rw [roundQ_of_lt hlt, hup, hy, add_comm _ w, Nat.floor_add_natCast hw.nonneg, Nat.floor_eq_zero.2 hw.lt_one, Bool.toNat_false, add_comm]

/-- The integer rounding of the model chooses as R73 says of the exact value. -/
theorem roundQ_chosen (h : Stands y m e sticky) (hq : sticky = true → e < qe) (rm : Rm) (neg : Bool) :
    Chosen rm neg (y / 2 ^ qe) (roundQ rm neg m e sticky qe) :=
  ⟨fun hn => by subst hn; exact roundQ_rne h hq neg, fun ha => roundQ_away h hq ha, fun hn ha => roundQ_toward h hq hn ha⟩

end RoundQ

/-! ## The exponent of a value, and rounding in a format -/

section Exponent

variable {y : Rat} {m : Nat} {e t : Int} {sticky : Bool}

theorem Stands.exponent (h : Stands y m e sticky) (hm : m ≠ 0) : (2 : Rat) ^ topExp m e ≤ y ∧ y < 2 ^ (topExp m e + 1) := by
  obtain ⟨r, h0, h1, -, rfl⟩ := h
  have hp : (0 : Rat) < 2 ^ e := by positivity
  have hlow : (2 : Rat) ^ Nat.log2 m ≤ m := by exact_mod_cast Nat.log2_self_le hm
  have hhigh : (m : Rat) + 1 ≤ 2 ^ (Nat.log2 m + 1) := by exact_mod_cast Nat.lt_log2_self
  have hsucc : topExp m e + 1 = ((Nat.log2 m + 1 : Nat) : Int) + e := by unfold topExp; push_cast; ring
  rw [hsucc, topExp, zpow_add₀ two_ne_zero, zpow_add₀ two_ne_zero, zpow_natCast, zpow_natCast]
  constructor
  · gcongr
    linarith
  · gcongr
    linarith

theorem exponent_unique {u : Int} (h0 : (2 : Rat) ^ t ≤ y) (h1 : y < 2 ^ (t + 1)) (k0 : (2 : Rat) ^ u ≤ y) (k1 : y < 2 ^ (u + 1)) : t = u := by
  have htu := (zpow_lt_zpow_iff_right₀ one_lt_two).1 (h0.trans_lt k1)
  have hut := (zpow_lt_zpow_iff_right₀ one_lt_two).1 (k0.trans_lt h1)
  omega

theorem Stands.topExp_eq (h : Stands y m e sticky) (hm : m ≠ 0) (h0 : (2 : Rat) ^ t ≤ y) (h1 : y < 2 ^ (t + 1)) : topExp m e = t :=
  exponent_unique (h.exponent hm).1 (h.exponent hm).2 h0 h1

end Exponent

/-- The exponent of the quantum of values between `2 ^ t` and `2 ^ (t + 1)` (R73). -/
def Fmt.quantum (f : Fmt) (t : Int) : Int := max t f.emin - f.p + 1

section Round

variable {f : Fmt} {rm : Rm} {neg : Bool} {y : Rat} {m n : Nat} {e g : Int} {st st' : Bool}

/-- Enough bits stand above the sticky part. -/
def Fine (f : Fmt) (m : Nat) (sticky : Bool) : Prop := sticky = true → 2 ^ f.p ≤ m

theorem Fine.quantum (h : Fine f m st) (e : Int) : st = true → e < f.quantum (topExp m e) := fun hs => by
  have hm : m ≠ 0 := (Nat.pos_of_ne_zero (by simp) |>.trans_le (h hs)).ne'
  have hp : f.p ≤ Nat.log2 m := (Nat.le_log2 hm).2 (h hs)
  have := le_max_left (topExp m e) f.emin
  simp only [Fmt.quantum, topExp] at *
  omega

theorem Fmt.round_snd : (f.round rm neg m e st).2 = f.quantum (topExp m e) := rfl

theorem Fmt.round_chosen (h : Stands y m e st) (hf : Fine f m st) :
    Chosen rm neg (y / 2 ^ f.quantum (topExp m e)) (f.round rm neg m e st).1 :=
  roundQ_chosen h (hf.quantum e) rm neg

/-- Rounding sees the value only, not how it stands. -/
theorem Fmt.round_congr (h : Stands y m e st) (hm : m ≠ 0) (hf : Fine f m st) (h' : Stands y n g st') (hn : n ≠ 0) (hf' : Fine f n st') :
    f.round rm neg m e st = f.round rm neg n g st' := by
  have ht : topExp m e = topExp n g := h.topExp_eq hm (h'.exponent hn).1 (h'.exponent hn).2
  have hc := f.round_chosen (rm := rm) (neg := neg) h hf
  rw [ht] at hc
  exact Prod.ext (hc.unique (f.round_chosen h' hf')) (by rw [Fmt.round_snd, Fmt.round_snd, ht])

theorem Fmt.result_fin (hm : m ≠ 0) : f.result rm (.fin neg m e) st =
    if f.over (f.round rm neg m e st).1 (f.round rm neg m e st).2 then f.ovf rm neg
    else f.encode neg (f.round rm neg m e st).1 (f.round rm neg m e st).2 := by
  simp only [Fmt.result, if_neg hm]

theorem Fmt.result_congr (h : Stands y m e st) (hm : m ≠ 0) (hf : Fine f m st) (h' : Stands y n g st') (hn : n ≠ 0) (hf' : Fine f n st') :
    f.result rm (.fin neg m e) st = f.result rm (.fin neg n g) st' := by
  rw [Fmt.result_fin hm, Fmt.result_fin hn, Fmt.round_congr h hm hf h' hn hf']

end Round

/-! ## Encodings (03 R70, R71) -/

/-- The largest finite value of a format. -/
def Fmt.maxf (f : Fmt) : Rat := f.maxM * 2 ^ f.maxE

theorem Fmt.over_iff (f : Fmt) (k : Nat) (qe : Int) : f.over k qe = true ↔ f.maxf < k * 2 ^ qe := by
  have hscale : ∀ (n : Nat) (a b : Int), b ≤ a → ((n * 2 ^ (a - b).toNat : Nat) : Rat) = n * 2 ^ a / 2 ^ b := fun n a b h => by
    exact (exact_quotient h).symm
  have hp : (0 : Rat) < 2 ^ min qe f.maxE := by positivity
  rw [Fmt.over, decide_eq_true_iff, ← Nat.cast_lt (α := Rat), hscale _ _ _ (min_le_right _ _), hscale _ _ _ (min_le_left _ _),
    div_lt_div_iff_of_pos_right hp, Fmt.maxf]

/-- What the encodings of a format rest on: the fields fill the word, the exponent field 1 is that of the least exponent, and the largest
finite value lies below the encodings of what is not finite. -/
structure Fmt.Sound (f : Fmt) : Prop where
  p_two : 2 ≤ f.p
  ebits_two : 2 ≤ f.ebits
  bits : f.bits = f.p + f.ebits
  bias : f.emin = 1 - f.bias
  maxM : f.maxM ≠ 0 ∧ f.maxM ≤ 2 ^ f.p
  maxE : f.emin - f.fbits ≤ f.maxE
  below : f.maxf < if f.hasInf then (2 : Rat) ^ (2 ^ f.ebits - 1 - f.bias : Int) else (2 ^ f.p - 1) * 2 ^ (2 ^ f.ebits - 1 - f.bias - f.fbits : Int)

theorem Fmt.Sound.of_table {f : Fmt} {p : Nat} {emin : Int} {maxf : Rat} (h : (f, p, emin, maxf) ∈ roundingTable) :
    f.Sound ∧ p = f.p ∧ emin = f.emin ∧ maxf = f.maxf := by
  simp only [roundingTable, List.mem_cons, Prod.mk.injEq, List.not_mem_nil, or_false] at h
  rcases h with ⟨rfl, rfl, rfl, rfl⟩ | ⟨rfl, rfl, rfl, rfl⟩ | ⟨rfl, rfl, rfl, rfl⟩ | ⟨rfl, rfl, rfl, rfl⟩ | ⟨rfl, rfl, rfl, rfl⟩ <;>
  refine ⟨⟨by decide, by decide, by decide, by decide, by decide, by decide, ?_⟩, rfl, rfl, ?_⟩ <;>
  norm_num [Fmt.maxf, Fmt.f32, Fmt.f16, Fmt.bf16, Fmt.e4m3, Fmt.e5m2, Fmt.fbits]

theorem Fmt.sound_f32 : Fmt.f32.Sound := (Fmt.Sound.of_table (.head _)).1

theorem Fmt.encode_subnormal {f : Fmt} {neg : Bool} {k : Nat} {qe : Int} (hk : k ≠ 0) (ht : topExp k qe < f.emin) :
    f.encode neg k qe = f.signBit neg + (0 * 2 ^ f.fbits + k * 2 ^ (qe - (f.emin - f.fbits)).toNat) := by
  simp [Fmt.encode, hk, ht]

theorem Fmt.encode_normal {f : Fmt} {neg : Bool} {k : Nat} {qe : Int} (hk : k ≠ 0) (ht : f.emin ≤ topExp k qe) :
    f.encode neg k qe = f.signBit neg + ((topExp k qe + f.bias).toNat * 2 ^ f.fbits + (k * 2 ^ f.fbits / 2 ^ Nat.log2 k - 2 ^ f.fbits)) := by
  simp [Fmt.encode, hk, not_lt.2 ht]

theorem Fmt.subnormal_lt {f : Fmt} {k : Nat} {qe : Int} (hk : k ≠ 0) (hq : f.emin - f.fbits ≤ qe) (ht : topExp k qe < f.emin) :
    k * 2 ^ (qe - (f.emin - f.fbits)).toNat < 2 ^ f.fbits := by
  have : ((k * 2 ^ (qe - (f.emin - f.fbits)).toNat : Nat) : Rat) < 2 ^ f.fbits := by
    rw [← exact_quotient hq, div_lt_iff₀ (by positivity), ← zpow_natCast, ← zpow_add₀ two_ne_zero]
    exact ((stands_exact k qe).exponent hk).2.trans_le (zpow_le_zpow_right₀ one_le_two (by omega))
  exact_mod_cast this

section Encode

variable {f : Fmt} (h : f.Sound) {neg : Bool} {k : Nat} {qe : Int}
include h

theorem Fmt.Sound.p_eq : f.p = f.fbits + 1 := by
  have := h.p_two
  unfold Fmt.fbits
  omega

theorem Fmt.Sound.bits_eq : f.bits - 1 = f.fbits + f.ebits := by
  have := h.p_two
  have := h.bits
  unfold Fmt.fbits
  omega

/-- The fields of a word: sign, exponent field, fraction. -/
theorem Fmt.Sound.decode_fields {E M : Nat} (hE : E < 2 ^ f.ebits) (hM : M < 2 ^ f.fbits) :
    f.decode (f.signBit neg + (E * 2 ^ f.fbits + M)) =
      if E = 2 ^ f.ebits - 1 && (f.hasInf || M = 2 ^ f.fbits - 1) then (if M = 0 && f.hasInf then .inf neg else .nan)
      else if E = 0 then .fin neg M (f.emin - f.fbits) else .fin neg (2 ^ f.fbits + M) ((E : Int) - f.bias - f.fbits) := by
  have hlow : E * 2 ^ f.fbits + M < 2 ^ (f.fbits + f.ebits) := by
    rw [pow_add, mul_comm]
    exact Nat.lt_mul_of_div_lt (a := 2 ^ f.fbits * E + M) (by rwa [Nat.mul_add_div (by positivity), Nat.div_eq_of_lt hM]) (by positivity) |>.trans_eq (by ring)
  have hsign : bitAt (f.signBit neg + (E * 2 ^ f.fbits + M)) (f.bits - 1) = neg := by
    rw [h.bits_eq, bitAt, Fmt.signBit, h.bits_eq, mul_comm, Nat.mul_add_div (by positivity), Nat.div_eq_of_lt hlow]
    cases neg <;> rfl
  have hfrac : bitsOf (f.signBit neg + (E * 2 ^ f.fbits + M)) 0 f.fbits = M := by
    have hw : f.signBit neg + (E * 2 ^ f.fbits + M) = M + 2 ^ f.fbits * (neg.toNat * 2 ^ f.ebits + E) := by
      rw [Fmt.signBit, h.bits_eq, pow_add]
      ring
    rw [bitsOf, pow_zero, Nat.div_one, hw, Nat.add_mul_mod_self_left, Nat.mod_eq_of_lt hM]
  have hexp : bitsOf (f.signBit neg + (E * 2 ^ f.fbits + M)) f.fbits f.ebits = E := by
    have hw : f.signBit neg + (E * 2 ^ f.fbits + M) = 2 ^ f.fbits * (E + 2 ^ f.ebits * neg.toNat) + M := by
      rw [Fmt.signBit, h.bits_eq, pow_add]
      ring
    rw [bitsOf, hw, Nat.mul_add_div (by positivity), Nat.div_eq_of_lt hM, add_zero, Nat.add_mul_mod_self_left, Nat.mod_eq_of_lt hE]
  simp only [Fmt.decode, hsign, hexp, hfrac]

theorem Fmt.Sound.fields_lt {E M : Nat} (hE : E < 2 ^ f.ebits) (hM : M < 2 ^ f.fbits) : f.signBit neg + (E * 2 ^ f.fbits + M) < 2 ^ f.bits := by
  have hbits : f.bits = f.fbits + f.ebits + 1 := by have := h.bits_eq; have := h.bits; have := h.p_two; omega
  have hlow : (E + 1) * 2 ^ f.fbits ≤ 2 ^ f.ebits * 2 ^ f.fbits := Nat.mul_le_mul_right _ hE
  rw [Fmt.signBit, h.bits_eq, hbits, pow_succ, pow_add, mul_comm (2 ^ f.fbits) (2 ^ f.ebits)]
  rw [add_mul, one_mul] at hlow
  cases neg <;> simp only [Bool.toNat_false, Bool.toNat_true] <;> omega

theorem Fmt.Sound.decode_zero : f.decode (f.signBit neg) = .fin neg 0 (f.emin - f.fbits) := by
  have hpow : (4 : Nat) ≤ 2 ^ f.ebits := Nat.pow_le_pow_right (n := 2) two_pos h.ebits_two
  have := h.decode_fields (neg := neg) (E := 0) (M := 0) (by positivity) (by positivity)
  rw [zero_mul, add_zero, add_zero] at this
  rw [this, if_neg (by simp; omega), if_pos rfl]

theorem Fmt.Sound.decode_infinity (hi : f.hasInf = true) : f.decode (f.infinity neg) = .inf neg := by
  have := h.decode_fields (neg := neg) (E := 2 ^ f.ebits - 1) (M := 0) (Nat.sub_lt (by positivity) one_pos) (by positivity)
  rw [add_zero] at this
  rw [Fmt.infinity, this]
  simp [hi]

/-- The fraction of a normal number loses no bit. -/
theorem Fmt.Sound.significand (hk : k ≠ 0) (hkp : k ≤ 2 ^ f.p) :
    2 ^ f.fbits ≤ k * 2 ^ f.fbits / 2 ^ Nat.log2 k ∧ k * 2 ^ f.fbits / 2 ^ Nat.log2 k < 2 ^ (f.fbits + 1) ∧
      k * 2 ^ f.fbits / 2 ^ Nat.log2 k * 2 ^ Nat.log2 k = k * 2 ^ f.fbits := by
  have hl := Nat.log2_self_le hk
  have hu := Nat.lt_log2_self (n := k)
  refine ⟨?_, ?_, Nat.div_mul_cancel ?_⟩
  · rw [Nat.le_div_iff_mul_le (by positivity), mul_comm]
    gcongr
  · rw [Nat.div_lt_iff_lt_mul (by positivity), pow_succ', mul_assoc, mul_comm (2 ^ f.fbits), ← mul_assoc, ← pow_succ']
    gcongr
  · rcases hkp.lt_or_eq with hlt | heq
    · refine Dvd.dvd.mul_left (Nat.pow_dvd_pow 2 ?_) k
      have : Nat.log2 k < f.p := (Nat.log2_lt hk).2 hlt
      have := h.p_eq
      omega
    · rw [heq, Nat.log2_two_pow]
      exact Dvd.intro _ rfl

theorem Fmt.Sound.four_le : (4 : Nat) ≤ 2 ^ f.ebits := Nat.pow_le_pow_right (n := 2) two_pos h.ebits_two

theorem Fmt.Sound.decode_subnormal (hk : k ≠ 0) (hq : f.emin - f.fbits ≤ qe) (ht : topExp k qe < f.emin) :
    f.decode (f.encode neg k qe) = .fin neg (k * 2 ^ (qe - (f.emin - f.fbits)).toNat) (f.emin - f.fbits) := by
  have hfields := h.decode_fields (neg := neg) (E := 0) (by positivity) (Fmt.subnormal_lt hk hq ht)
  have hpow := h.four_le
  rw [if_neg (by simp; omega), if_pos rfl] at hfields
  rw [Fmt.encode_subnormal hk ht, hfields]

/-- The exponent field of a value up to the largest, and its fraction, are not those of an infinity or a NaN. -/
theorem Fmt.Sound.field_lt {t : Int} {S : Nat} (hS : 2 ^ f.fbits ≤ S) (hmax : S * (2 : Rat) ^ (t - f.fbits) ≤ f.maxf) (ht : f.emin ≤ t) :
    (t + f.bias).toNat < 2 ^ f.ebits ∧
      ¬((t + f.bias).toNat = 2 ^ f.ebits - 1 ∧ (f.hasInf = true ∨ S - 2 ^ f.fbits = 2 ^ f.fbits - 1)) := by
  have hb := h.bias
  have hp := h.p_eq
  have hpow := h.four_le
  have hcast : ((2 ^ f.ebits : Nat) : Int) = 2 ^ f.ebits := by push_cast; rfl
  have hSr : (2 : Rat) ^ (f.fbits : Int) ≤ S := by exact_mod_cast hS
  have hval : (2 : Rat) ^ t ≤ f.maxf := calc
    (2 : Rat) ^ t = 2 ^ (f.fbits : Int) * 2 ^ (t - f.fbits) := by rw [← zpow_add₀ two_ne_zero]; congr 1; ring
    _ ≤ S * 2 ^ (t - f.fbits) := by gcongr
    _ ≤ f.maxf := hmax
  have hbelow := h.below
  cases hi : f.hasInf with
  | true =>
    rw [hi, if_pos rfl] at hbelow
    have := (zpow_lt_zpow_iff_right₀ one_lt_two).1 (hval.trans_lt hbelow)
    omega
  | false =>
    rw [hi, if_neg (by simp)] at hbelow
    have hlt : (2 : Rat) ^ t < 2 ^ (2 ^ f.ebits - f.bias : Int) := calc
      (2 : Rat) ^ t < (2 ^ f.p - 1) * 2 ^ (2 ^ f.ebits - 1 - f.bias - f.fbits : Int) := hval.trans_lt hbelow
      _ < 2 ^ (f.p : Int) * 2 ^ (2 ^ f.ebits - 1 - f.bias - f.fbits : Int) := by gcongr; rw [zpow_natCast]; linarith
      _ = 2 ^ (2 ^ f.ebits - f.bias : Int) := by rw [← zpow_add₀ two_ne_zero]; congr 1; rw [hp]; push_cast; ring
    have := (zpow_lt_zpow_iff_right₀ one_lt_two).1 hlt
    refine ⟨by omega, ?_⟩
    rintro ⟨hE, hc⟩
    have hS' : S = 2 ^ f.p - 1 := by
      have := hc.resolve_left (by simp)
      have : 2 ^ f.p = 2 * 2 ^ f.fbits := by rw [hp, pow_succ']
      have : 0 < 2 ^ f.fbits := by positivity
      omega
    have hte : t = 2 ^ f.ebits - 1 - f.bias := by omega
    rw [hS', hte, Nat.cast_sub Nat.one_le_two_pow] at hmax
    push_cast at hmax
    exact hmax.not_gt hbelow

theorem Fmt.Sound.significand_value (hk : k ≠ 0) (hkp : k ≤ 2 ^ f.p) :
    ((k * 2 ^ f.fbits / 2 ^ Nat.log2 k : Nat) : Rat) * 2 ^ (topExp k qe - f.fbits) = k * 2 ^ qe := by
  have hcast : ((k * 2 ^ f.fbits / 2 ^ Nat.log2 k : Nat) : Rat) * 2 ^ Nat.log2 k = k * 2 ^ f.fbits := by
    exact_mod_cast (h.significand hk hkp).2.2
  rw [topExp, zpow_sub₀ two_ne_zero, zpow_add₀ two_ne_zero, zpow_natCast, zpow_natCast, mul_div_assoc', ← mul_assoc, hcast]
  field_simp

theorem Fmt.Sound.normal_lt (hk : k ≠ 0) (hkp : k ≤ 2 ^ f.p) : k * 2 ^ f.fbits / 2 ^ Nat.log2 k - 2 ^ f.fbits < 2 ^ f.fbits := by
  obtain ⟨hlow, hhigh, -⟩ := h.significand hk hkp
  rw [pow_succ] at hhigh
  omega

theorem Fmt.Sound.decode_normal (hk : k ≠ 0) (hkp : k ≤ 2 ^ f.p) (hmax : k * (2 : Rat) ^ qe ≤ f.maxf) (ht : f.emin ≤ topExp k qe) :
    f.decode (f.encode neg k qe) = .fin neg (k * 2 ^ f.fbits / 2 ^ Nat.log2 k) (topExp k qe - f.fbits) := by
  have hlow := (h.significand hk hkp).1
  obtain ⟨hE, hspecial⟩ := h.field_lt hlow ((h.significand_value hk hkp).trans_le hmax) ht
  have hfields := h.decode_fields (neg := neg) hE (h.normal_lt hk hkp)
  have hb := h.bias
  rw [if_neg (by simpa using hspecial), if_neg (by omega), Nat.add_sub_cancel' hlow] at hfields
  rw [Fmt.encode_normal hk ht, hfields]
  congr 2
  omega

theorem Fmt.Sound.encode_lt (hkp : k ≤ 2 ^ f.p) (hq : f.emin - f.fbits ≤ qe) (hmax : k * (2 : Rat) ^ qe ≤ f.maxf) :
    f.encode neg k qe < 2 ^ f.bits := by
  rcases eq_or_ne k 0 with rfl | hk
  · have := h.fields_lt (neg := neg) (E := 0) (M := 0) (by positivity) (by positivity)
    rw [zero_mul, add_zero] at this
    rwa [Fmt.encode, if_pos rfl]
  by_cases ht : topExp k qe < f.emin
  · rw [Fmt.encode_subnormal hk ht]
    exact h.fields_lt (by positivity) (Fmt.subnormal_lt hk hq ht)
  · rw [Fmt.encode_normal hk (not_lt.1 ht)]
    exact h.fields_lt (h.field_lt (h.significand hk hkp).1 ((h.significand_value hk hkp).trans_le hmax) (not_lt.1 ht)).1 (h.normal_lt hk hkp)

/-- The encoding of a value of the format stands for it. -/
theorem Fmt.Sound.decode_encode (hkp : k ≤ 2 ^ f.p) (hq : f.emin - f.fbits ≤ qe) (hmax : k * (2 : Rat) ^ qe ≤ f.maxf) :
    ∃ m e, f.decode (f.encode neg k qe) = .fin neg m e ∧ (m : Rat) * 2 ^ e = k * 2 ^ qe := by
  rcases eq_or_ne k 0 with rfl | hk
  · exact ⟨0, _, by rw [Fmt.encode, if_pos rfl, add_zero, h.decode_zero], by simp⟩
  by_cases ht : topExp k qe < f.emin
  · refine ⟨_, _, h.decode_subnormal hk hq ht, ?_⟩
    rw [← exact_quotient hq]
    field_simp
  · exact ⟨_, _, h.decode_normal hk hkp hmax (not_lt.1 ht), h.significand_value hk hkp⟩

theorem Fmt.Sound.decode_largest : ∃ m e, f.decode (f.largest neg) = .fin neg m e ∧ (m : Rat) * 2 ^ e = f.maxf :=
  h.decode_encode h.maxM.2 h.maxE le_rfl

end Encode

section Rounded

variable {f : Fmt} (h : f.Sound) {rm : Rm} {neg : Bool} {y : Rat} {m : Nat} {e : Int} {st : Bool}
include h

/-- A rounded magnitude has at most the precision of the format. -/
theorem Fmt.Sound.round_le (hy : Stands y m e st) (hm : m ≠ 0) (hf : Fine f m st) : (f.round rm neg m e st).1 ≤ 2 ^ f.p := by
  refine (f.round_chosen hy hf).le ?_
  have hp := h.p_eq
  have hle := le_max_left (topExp m e) f.emin
  rw [div_le_iff₀ (by positivity), Nat.cast_pow, Nat.cast_ofNat, ← zpow_natCast, ← zpow_add₀ two_ne_zero]
  refine (hy.exponent hm).2.le.trans (zpow_le_zpow_right₀ one_le_two ?_)
  unfold Fmt.quantum
  omega

theorem Fmt.Sound.le_quantum (t : Int) : f.emin - f.fbits ≤ f.quantum t := by
  have hp := h.p_eq
  have hle := le_max_right t f.emin
  unfold Fmt.quantum
  omega

/-- A rounded value within the range of the format is encoded. -/
theorem Fmt.Sound.decode_result (hy : Stands y m e st) (hm : m ≠ 0) (hf : Fine f m st)
    (hmax : (f.round rm neg m e st).1 * (2 : Rat) ^ f.quantum (topExp m e) ≤ f.maxf) :
    ∃ m' e', f.decode (f.result rm (.fin neg m e) st) = .fin neg m' e' ∧
      (m' : Rat) * 2 ^ e' = (f.round rm neg m e st).1 * 2 ^ f.quantum (topExp m e) := by
  rw [Fmt.result_fin hm, if_neg (by rw [Fmt.over_iff]; exact not_lt.2 hmax)]
  exact h.decode_encode (h.round_le hy hm hf) (h.le_quantum _) hmax

end Rounded

section Overflow

variable {f : Fmt} {rm : Rm} {neg : Bool} {m : Nat} {e : Int} {st : Bool}

theorem Fmt.result_over (hm : m ≠ 0) (hmax : f.maxf < (f.round rm neg m e st).1 * (2 : Rat) ^ f.quantum (topExp m e)) :
    f.result rm (.fin neg m e) st = f.ovf rm neg := by
  rw [Fmt.result_fin hm, if_pos (by rw [Fmt.over_iff]; exact hmax)]

theorem Fmt.ovf_largest (hd : rm = .rz ∨ rm = .rup ∧ neg = true ∨ rm = .rdn ∧ neg = false) : f.ovf rm neg = f.largest neg := by
  rcases hd with rfl | ⟨rfl, rfl⟩ | ⟨rfl, rfl⟩ <;> rfl

theorem Fmt.ovf_infinity (hd : rm = .rne ∨ Away rm neg) : f.ovf rm neg = f.infinity neg := by
  rcases hd with rfl | ⟨rfl, rfl⟩ | ⟨rfl, rfl⟩ <;> rfl

theorem Fmt.Sound.ovf_lt (h : f.Sound) : f.ovf rm neg < 2 ^ f.bits := by
  have hlarge : f.largest neg < 2 ^ f.bits := h.encode_lt h.maxM.2 h.maxE le_rfl
  have hinf : f.infinity neg < 2 ^ f.bits := h.fields_lt (M := 0) (Nat.sub_lt (by positivity) one_pos) (by positivity)
  cases rm <;> cases neg <;> assumption

/-- A result of a finite value is an encoding. -/
theorem Fmt.Sound.result_lt (h : f.Sound) (hf : Fine f m st) : f.result rm (.fin neg m e) st < 2 ^ f.bits := by
  rcases eq_or_ne m 0 with rfl | hm
  · have hzero := h.encode_lt (neg := neg) (k := 0) (Nat.zero_le _) (h.le_quantum 0) (by simp [Fmt.maxf]; positivity)
    rwa [Fmt.encode, if_pos rfl] at hzero
  rw [Fmt.result_fin hm]
  split
  · exact h.ovf_lt
  next ho =>
    obtain ⟨y, hy⟩ : ∃ y, Stands y m e st := by
      cases st
      · exact ⟨_, stands_exact m e⟩
      · exact ⟨_, stands_between (y := ((m : Rat) + 1 / 2) * 2 ^ e) (by gcongr; linarith) (by gcongr; linarith)⟩
    rw [Fmt.over_iff, not_lt] at ho
    exact h.encode_lt (h.round_le hy hm hf) (h.le_quantum _) ho

/-- In a format with infinities the result of a finite value is a number of its sign. -/
theorem Fmt.Sound.decode_result_cases (h : f.Sound) (hi : f.hasInf = true) :
    f.decode (f.result rm (.fin neg m e) false) = .inf neg ∨ ∃ m' e', f.decode (f.result rm (.fin neg m e) false) = .fin neg m' e' := by
  rcases eq_or_ne m 0 with rfl | hm
  · exact .inr ⟨_, _, h.decode_zero⟩
  rcases le_or_gt ((f.round rm neg m e false).1 * (2 : Rat) ^ f.quantum (topExp m e)) f.maxf with hmax | hmax
  · obtain ⟨m', e', hd, -⟩ := h.decode_result (stands_exact m e) hm (by simp [Fine]) hmax
    exact .inr ⟨m', e', hd⟩
  · rw [Fmt.result_over hm hmax]
    by_cases hd : rm = .rne ∨ Away rm neg
    · exact .inl (by rw [Fmt.ovf_infinity hd, h.decode_infinity hi])
    · obtain ⟨m', e', hl, -⟩ := h.decode_largest (neg := neg)
      refine .inr ⟨m', e', ?_⟩
      rwa [Fmt.ovf_largest]
      cases rm <;> cases neg <;> simp_all [Away]

end Overflow

theorem Chosen.directed_up {rm : Rm} {neg : Bool} {z : Rat} {k : Nat} (h : Chosen rm neg z k) (hz : 0 ≤ z) (ha : Away rm neg) :
    z ≤ k ∧ (k : Rat) < z + 1 := by
  rw [h.away ha]
  exact ⟨Nat.le_ceil z, Nat.ceil_lt_add_one hz⟩

theorem Chosen.directed_down {rm : Rm} {neg : Bool} {z : Rat} {k : Nat} (h : Chosen rm neg z k) (hz : 0 ≤ z) (hn : rm ≠ .rne) (ha : ¬Away rm neg) :
    (k : Rat) ≤ z ∧ z < k + 1 := by
  rw [h.toward hn ha]
  exact ⟨Nat.floor_le hz, Nat.lt_floor_add_one z⟩

/-- Settles O17: the model's integer rounding chooses as R73 says (`roundQ_chosen`) of the value alone (`Fmt.result_congr`), and an
encoding decodes to the value that it stands for (`Fmt.Sound.decode_encode`). -/
theorem roundingIsCorrect : Obligations.RoundingIsCorrect := by
  unfold Obligations.RoundingIsCorrect
  refine ⟨fun f p emin maxf rm neg m n e g hf hm h0 h1 => ?_, fun f p emin maxf rm neg m e hf hm => ?_⟩
  · obtain ⟨-, rfl, -, -⟩ := Fmt.Sound.of_table hf
    have hn : n ≠ 0 := fun hn => by
      rw [hn, Nat.cast_zero, zero_mul] at h0
      exact h0.not_ge (by positivity)
    exact Fmt.result_congr (stands_between h0 h1) (Nat.pos_of_ne_zero (by simp) |>.trans_le hm).ne'
      (fun _ => (Nat.pow_le_pow_right two_pos (Nat.le_succ _)).trans hm) (stands_exact n g) hn (by simp [Fine])
  · obtain ⟨hs, rfl, rfl, rfl⟩ := Fmt.Sound.of_table hf
    have hy := stands_exact m e
    have hfine : Fine f m false := by simp [Fine]
    have hc := f.round_chosen (rm := rm) (neg := neg) hy hfine
    have hz : 0 ≤ (m : Rat) * 2 ^ e / 2 ^ f.quantum (topExp m e) := by positivity
    obtain ⟨ht0, ht1⟩ := hy.exponent hm.ne'
    refine ⟨topExp m e, (f.round rm neg m e false).1, ht0, ht1, fun hn => ?_, fun _ ha => hc.directed_up hz ha,
      fun hn ha => hc.directed_down hz hn ha, fun hmax => hs.decode_result hy hm.ne' hfine hmax, fun hmax hi => ⟨fun hd => ?_, fun hd => ?_⟩⟩
    · obtain ⟨hle, heven⟩ := hc.nearest hn
      exact ⟨hle, fun he => by exact_mod_cast heven he⟩
    · rw [Fmt.result_over hm.ne' hmax, Fmt.ovf_largest hd]
      exact hs.decode_largest
    · rw [Fmt.result_over hm.ne' hmax, Fmt.ovf_infinity hd]
      exact hs.decode_infinity hi

end Sys2Proof

/-! # Sums, products, roots and reciprocals (03 R73, R74, R78; 09 R225, R226, R229) -/

namespace Sys2Proof

/-! ## Special operands -/

@[simp] theorem Num.nan_add (rm : Rm) (a : Num) : Num.add rm .nan a = .nan := rfl
@[simp] theorem Num.add_nan (rm : Rm) (a : Num) : Num.add rm a .nan = .nan := by cases a <;> rfl
@[simp] theorem Num.nan_mul (a : Num) : Num.mul .nan a = .nan := rfl
@[simp] theorem Num.mul_nan (a : Num) : Num.mul a .nan = .nan := by cases a <;> rfl
@[simp] theorem Num.inf_add_inf (rm : Rm) (s t : Bool) : Num.add rm (.inf s) (.inf t) = if s = t then .inf s else .nan := by
  simp [Num.add]
@[simp] theorem Num.inf_add_fin (rm : Rm) (s t : Bool) (m : Nat) (e : Int) : Num.add rm (.inf s) (.fin t m e) = .inf s := rfl
@[simp] theorem Num.fin_add_inf (rm : Rm) (s t : Bool) (m : Nat) (e : Int) : Num.add rm (.fin t m e) (.inf s) = .inf s := rfl
@[simp] theorem Num.inf_mul_inf (s t : Bool) : Num.mul (.inf s) (.inf t) = .inf (s != t) := rfl
@[simp] theorem Num.inf_mul_fin (s t : Bool) (m : Nat) (e : Int) : Num.mul (.inf s) (.fin t m e) = if m = 0 then .nan else .inf (s != t) := rfl
@[simp] theorem Num.fin_mul_inf (s t : Bool) (m : Nat) (e : Int) : Num.mul (.fin t m e) (.inf s) = if m = 0 then .nan else .inf (t != s) := rfl

@[simp] theorem f32_result_nan (rm : Rm) (st : Bool) : Fmt.f32.result rm .nan st = 0x7FC00000 := rfl
@[simp] theorem f32_result_inf (rm : Rm) (s st : Bool) : Fmt.f32.result rm (.inf s) st = if s then 0xFF800000 else 0x7F800000 := by
  cases s <;> rfl
@[simp] theorem f32_result_zero (rm : Rm) (s st : Bool) (e : Int) : Fmt.f32.result rm (.fin s 0 e) st = if s then 0x80000000 else 0 := by
  cases s <;> rfl

@[simp] theorem fnRnd_zero (rm : Rm) (s : Bool) (e : Int) : fnRnd rm (.fin s 0 e) = .fin s 0 e := by simp [fnRnd]

/-! ## Exact sums and products -/

theorem signed_decide_natAbs (x : Int) : signed (decide (x < 0)) x.natAbs = x := by
  rcases lt_or_ge x 0 with h | h
  · simp [signed, h, abs_of_neg h]
  · simp [signed, not_lt.2 h, abs_of_nonneg h]

/-- An integer at the common exponent of a sum or a comparison. -/
theorem Num.scaled_eq (s : Bool) (m : Nat) {e b : Int} (hb : b ≤ e) :
    ((signed s m * 2 ^ (e - b).toNat : Int) : Rat) = (Num.fin s m e).rat / 2 ^ b := by
  have := exact_quotient (m := m) hb
  push_cast [signed_cast, Num.rat_fin] at this ⊢
  rw [mul_assoc, ← this]
  ring

theorem Num.add_fin (rm : Rm) (s t : Bool) (m n : Nat) (e g : Int) : ∃ u k h, Num.add rm (.fin s m e) (.fin t n g) = .fin u k h ∧
    (Num.fin u k h).rat = (Num.fin s m e).rat + (Num.fin t n g).rat ∧ (k = 0 → u = if s = t then s else decide (rm = .rdn)) := by
  have hsum := congrArg₂ (· + ·) (Num.scaled_eq s m (min_le_left e g)) (Num.scaled_eq t n (min_le_right e g))
  simp only [← Int.cast_add, ← add_div] at hsum
  rw [eq_div_iff (by positivity)] at hsum
  simp only [Num.add]
  split
  · next hx =>
    refine ⟨_, _, _, rfl, ?_, fun _ => ?_⟩
    · rw [← hsum, hx]
      simp [Num.rat_fin]
    · cases s <;> cases t <;> rfl
  · next hx =>
    refine ⟨_, _, _, rfl, ?_, fun h0 => absurd (Int.natAbs_eq_zero.1 h0) hx⟩
    rw [← hsum, Num.rat_fin, ← signed_cast, signed_decide_natAbs]

theorem Num.mul_fin (s t : Bool) (m n : Nat) (e g : Int) : Num.mul (.fin s m e) (.fin t n g) = .fin (s != t) (m * n) (e + g) := rfl

theorem Num.rat_mul_fin (s t : Bool) (m n : Nat) (e g : Int) :
    (Num.fin (s != t) (m * n) (e + g)).rat = (Num.fin s m e).rat * (Num.fin t n g).rat := by
  simp only [Num.rat_fin, zpow_add₀ (two_ne_zero (α := Rat))]
  cases s <;> cases t <;> simp <;> ring

/-! ## Rounding to an integral value -/

theorem abs_rat_fin (s : Bool) (m : Nat) (e : Int) : |(Num.fin s m e).rat| = m * 2 ^ e := by
  rw [Num.rat_fin, mul_assoc, abs_sgn_mul]
  exact abs_of_nonneg (by positivity)

theorem le_topExp_iff {m : Nat} (hm : m ≠ 0) (e n : Int) : n ≤ topExp m e ↔ (2 : Rat) ^ n ≤ m * 2 ^ e := by
  obtain ⟨h0, h1⟩ := (stands_exact m e).exponent hm
  constructor
  · exact fun h => (zpow_le_zpow_right₀ one_le_two h).trans h0
  · intro h
    have := (zpow_lt_zpow_iff_right₀ one_lt_two).1 (h.trans_lt h1)
    omega

theorem roundQ_selected (rm : Rm) (s : Bool) (m : Nat) (e qe : Int) :
    signed s (roundQ rm s m e false qe) = selected rm ((Num.fin s m e).rat / 2 ^ qe) := by
  have hc := roundQ_chosen (stands_exact m e) (qe := qe) (by simp) rm s
  rw [← hc.selected (by positivity), Num.rat_fin]
  congr 1
  ring

theorem fnRnd_fin {rm : Rm} {s : Bool} {m : Nat} {e : Int} (hm : m ≠ 0) :
    (2 ^ 23 ≤ |(Num.fin s m e).rat| → fnRnd rm (.fin s m e) = .fin s m e) ∧
    (|(Num.fin s m e).rat| < 2 ^ 23 → fnRnd rm (.fin s m e) = .fin s (selected rm (Num.fin s m e).rat).natAbs 0) := by
  have htop := le_topExp_iff hm e 23
  rw [← abs_rat_fin s] at htop
  have hsel := roundQ_selected rm s m e 0
  rw [zpow_zero, div_one] at hsel
  constructor <;> intro h
  · have : 23 ≤ topExp m e := htop.2 (by exact_mod_cast h)
    simp [fnRnd, this]
  · have : ¬23 ≤ topExp m e := fun h' => not_lt.2 (htop.1 h') (by exact_mod_cast h)
    simp [fnRnd, this, hm, ← hsel]

/-! ## Roots and reciprocals -/

/-- Bit by bit: `r` is a root with bits from `2 ^ n` up. -/
theorem isqrtBits_spec (x n r : Nat) (h0 : r * r ≤ x) (h1 : x < (r + 2 ^ n) * (r + 2 ^ n)) :
    isqrtBits x n r * isqrtBits x n r ≤ x ∧ x < (isqrtBits x n r + 1) * (isqrtBits x n r + 1) := by
  induction n generalizing r with
  | zero => exact ⟨h0, h1⟩
  | succ n ih =>
    unfold isqrtBits
    by_cases ht : (r + 2 ^ n) * (r + 2 ^ n) ≤ x
    · simp only [if_pos ht]
      exact ih _ ht (by rwa [add_assoc, ← two_mul, ← pow_succ'])
    · simp only [if_neg ht]
      exact ih _ h0 (not_le.1 ht)

theorem isqrt_spec (x : Nat) : isqrt x * isqrt x ≤ x ∧ x < (isqrt x + 1) * (isqrt x + 1) := by
  refine isqrtBits_spec x _ 0 (by simp) ?_
  rw [zero_add, ← pow_add]
  exact Nat.lt_log2_self.trans_le (Nat.pow_le_pow_right two_pos (by omega))

/-- A root `r` of `z`, scaled. -/
theorem root_brackets {r : Nat} {z y : Rat} {h : Int} (hy : y = z * 2 ^ (2 * h)) (h0 : (r : Rat) * r ≤ z) (h1 : z < (r + 1) * (r + 1)) :
    ((r : Rat) * 2 ^ h) ^ 2 ≤ y ∧ y < (((r : Rat) + 1) * 2 ^ h) ^ 2 ∧ (((r : Rat) * 2 ^ h) ^ 2 = y ↔ (r : Rat) * r = z) := by
  have hsq : ∀ a : Rat, (a * 2 ^ h) ^ 2 = a * a * 2 ^ (2 * h) := fun a => by
    rw [two_mul, zpow_add₀ two_ne_zero]
    ring
  have hp : (0 : Rat) < 2 ^ (2 * h) := by positivity
  rw [hsq, hsq, hy]
  exact ⟨by gcongr, by gcongr, mul_left_inj' hp.ne'⟩

theorem root_large {r : Nat} {z : Rat} (h1 : z < ((r : Rat) + 1) * (r + 1)) (hz : 2 ^ 60 ≤ z) : 2 ^ 25 < r := by
  by_contra hr
  have : (r : Rat) ≤ 2 ^ 25 := by exact_mod_cast not_lt.1 hr
  nlinarith

theorem parity_cast (e : Int) : ((e % 2 == 1).toNat : Int) = e % 2 := by
  rcases Int.emod_two_eq_zero_or_one e with h | h <;> simp [h]

theorem fnSqrt_eq {m odd : Nat} (hm : m ≠ 0) {e : Int} (hodd : odd = (e % 2 == 1).toNat) : fnSqrt (.fin false m e) =
    (.fin false (isqrt (m * 2 ^ (60 + odd))) ((e - 60 - odd) / 2),
      isqrt (m * 2 ^ (60 + odd)) * isqrt (m * 2 ^ (60 + odd)) != m * 2 ^ (60 + odd)) := by
  simp [fnSqrt, hm, hodd]

theorem fnSqrt_fin {m : Nat} (hm : m ≠ 0) (e : Int) : ∃ r h st, fnSqrt (.fin false m e) = (.fin false r h, st) ∧ 2 ^ 25 < r ∧
    ((r : Rat) * 2 ^ h) ^ 2 ≤ m * 2 ^ e ∧ (m : Rat) * 2 ^ e < (((r : Rat) + 1) * 2 ^ h) ^ 2 ∧
    (st = false ↔ ((r : Rat) * 2 ^ h) ^ 2 = m * 2 ^ e) := by
  obtain ⟨odd, hodd⟩ : ∃ odd, odd = (e % 2 == 1).toNat := ⟨_, rfl⟩
  have hpar := parity_cast e
  rw [← hodd] at hpar
  obtain ⟨h0, h1⟩ := isqrt_spec (m * 2 ^ (60 + odd))
  have hy : (m : Rat) * 2 ^ e = (m * 2 ^ (60 + odd) : Nat) * 2 ^ (2 * ((e - 60 - odd) / 2)) := by
    have h2 : 2 * ((e - 60 - odd) / 2) = e - ((60 + odd : Nat) : Int) := by push_cast; omega
    rw [h2, zpow_sub₀ two_ne_zero, zpow_natCast]
    push_cast
    field_simp
  obtain ⟨hle, hlt, heq⟩ := root_brackets hy (by exact_mod_cast h0) (by exact_mod_cast h1)
  have hz : (2 : Rat) ^ 60 ≤ (m * 2 ^ (60 + odd) : Nat) := by
    have := Nat.pow_le_pow_right two_pos (Nat.le_add_right 60 odd)
    exact_mod_cast this.trans (Nat.le_mul_of_pos_left _ (Nat.pos_of_ne_zero hm))
  refine ⟨_, _, _, fnSqrt_eq hm hodd, root_large (by exact_mod_cast h1) hz, hle, hlt, ?_⟩
  rw [heq, bne_eq_false_iff_eq]
  norm_cast

theorem fnRsq_eq {m odd k : Nat} (hm : m ≠ 0) {e : Int} (hodd : odd = (e % 2 == 1).toNat) (hk : k = 2 * (Nat.log2 m + 60) - odd) :
    fnRsq (.fin false m e) = (.fin false (isqrt (2 ^ k / m)) (-((k : Int) + e) / 2), isqrt (2 ^ k / m) * isqrt (2 ^ k / m) * m != 2 ^ k) := by
  simp [fnRsq, hm, hodd, hk]

/-- A root of the integer part is one of the whole. -/
theorem isqrt_div_spec (x m : Nat) (hm : m ≠ 0) : ((isqrt (x / m) : Nat) : Rat) * (isqrt (x / m) : Nat) ≤ x / m ∧
    (x : Rat) / m < ((isqrt (x / m) : Nat) + 1) * ((isqrt (x / m) : Nat) + 1) := by
  obtain ⟨h0, h1⟩ := isqrt_spec (x / m)
  have hm' : (0 : Rat) < m := by exact_mod_cast Nat.pos_of_ne_zero hm
  rw [Nat.le_div_iff_mul_le (Nat.pos_of_ne_zero hm)] at h0
  rw [Nat.div_lt_iff_lt_mul (Nat.pos_of_ne_zero hm)] at h1
  rw [le_div_iff₀ hm', div_lt_iff₀ hm']
  exact ⟨by exact_mod_cast h0, by exact_mod_cast h1⟩

theorem two_pow_log2_div {m k n : Nat} (hm : m ≠ 0) (h : Nat.log2 m + 1 + n ≤ k) : (2 : Rat) ^ n ≤ 2 ^ k / m := by
  have hm' : (0 : Rat) < m := by exact_mod_cast Nat.pos_of_ne_zero hm
  have hlt : (m : Rat) < 2 ^ (Nat.log2 m + 1) := by exact_mod_cast Nat.lt_log2_self
  rw [le_div_iff₀ hm']
  calc (2 : Rat) ^ n * m ≤ 2 ^ n * 2 ^ (Nat.log2 m + 1) := by gcongr
    _ = 2 ^ (Nat.log2 m + 1 + n) := by ring
    _ ≤ 2 ^ k := pow_le_pow_right₀ one_le_two h

/-- The reciprocal of a value, with a power of two taken out. -/
theorem one_div_eq (m k : Nat) (e : Int) : 1 / ((m : Rat) * 2 ^ e) = 2 ^ k / m * 2 ^ (-(k : Int) - e) := by
  rw [zpow_sub₀ two_ne_zero, zpow_neg, zpow_natCast]
  field_simp

theorem fnRsq_fin {m : Nat} (hm : m ≠ 0) (e : Int) : ∃ r h st, fnRsq (.fin false m e) = (.fin false r h, st) ∧ 2 ^ 25 < r ∧
    ((r : Rat) * 2 ^ h) ^ 2 ≤ 1 / ((m : Rat) * 2 ^ e) ∧ 1 / ((m : Rat) * 2 ^ e) < (((r : Rat) + 1) * 2 ^ h) ^ 2 ∧
    (st = false ↔ ((r : Rat) * 2 ^ h) ^ 2 = 1 / ((m : Rat) * 2 ^ e)) := by
  obtain ⟨odd, hodd⟩ : ∃ odd, odd = (e % 2 == 1).toNat := ⟨_, rfl⟩
  obtain ⟨k, hk⟩ : ∃ k, k = 2 * (Nat.log2 m + 60) - odd := ⟨_, rfl⟩
  have hpar := parity_cast e
  rw [← hodd] at hpar
  obtain ⟨h0, h1⟩ := isqrt_div_spec (2 ^ k) m hm
  push_cast at h0 h1
  have hy : 1 / ((m : Rat) * 2 ^ e) = 2 ^ k / m * 2 ^ (2 * (-((k : Int) + e) / 2)) := by
    rw [one_div_eq m k e, show 2 * (-((k : Int) + e) / 2) = -(k : Int) - e by omega]
  obtain ⟨hle, hlt, heq⟩ := root_brackets hy h0 h1
  refine ⟨_, _, _, fnRsq_eq hm hodd hk, root_large h1 (two_pow_log2_div hm (by omega)), hle, hlt, ?_⟩
  have hm' : (m : Rat) ≠ 0 := by exact_mod_cast hm
  rw [heq, bne_eq_false_iff_eq, eq_div_iff hm']
  norm_cast

theorem fnRcp_eq {m k : Nat} (hm : m ≠ 0) (s : Bool) (e : Int) (hk : k = Nat.log2 m + 40) :
    fnRcp (.fin s m e) = (.fin s (2 ^ k / m) (-(k : Int) - e), 2 ^ k % m != 0) := by
  simp [fnRcp, hm, hk]

theorem fnRcp_fin {m : Nat} (hm : m ≠ 0) (s : Bool) (e : Int) : ∃ r h st, fnRcp (.fin s m e) = (.fin s r h, st) ∧ 2 ^ 25 < r ∧
    (r : Rat) * 2 ^ h ≤ 1 / ((m : Rat) * 2 ^ e) ∧ 1 / ((m : Rat) * 2 ^ e) < ((r : Rat) + 1) * 2 ^ h ∧
    (st = false ↔ (r : Rat) * 2 ^ h = 1 / ((m : Rat) * 2 ^ e)) := by
  obtain ⟨k, hk⟩ : ∃ k, k = Nat.log2 m + 40 := ⟨_, rfl⟩
  have hm' : (0 : Rat) < m := by exact_mod_cast Nat.pos_of_ne_zero hm
  have h0 : ((2 ^ k / m : Nat) : Rat) ≤ 2 ^ k / m := by exact_mod_cast Nat.cast_div_le (α := Rat) (m := 2 ^ k) (n := m)
  have h1 : (2 : Rat) ^ k / m < (2 ^ k / m : Nat) + 1 := by
    rw [div_lt_iff₀ hm']
    exact_mod_cast Nat.lt_mul_of_div_lt (Nat.lt_succ_self _) (Nat.pos_of_ne_zero hm)
  have hp : (0 : Rat) < 2 ^ (-(k : Int) - e) := by positivity
  refine ⟨_, _, _, fnRcp_eq hm s e hk, ?_, ?_, ?_, ?_⟩
  · have hlarge := two_pow_log2_div hm (show Nat.log2 m + 1 + 39 ≤ k by omega)
    have : (2 : Rat) ^ 25 < (2 ^ k / m : Nat) := by linarith
    exact_mod_cast this
  · rw [one_div_eq m k e]
    gcongr
  · rw [one_div_eq m k e]
    gcongr
  · rw [one_div_eq m k e, mul_left_inj' hp.ne', eq_div_iff hm'.ne', bne_eq_false_iff_eq, ← Nat.dvd_iff_mod_eq_zero]
    norm_cast
    exact ⟨Nat.div_mul_cancel, fun h => Dvd.intro_left _ h⟩

theorem special_operands : (let all := fun (a : Num) => [(fnRcp a).1, (fnRsq a).1, (fnSqrt a).1, (fnExp2 a).1, (fnLog2 a).1];
    all .nan = [.nan, .nan, .nan, .nan, .nan] ∧
    all (.inf true) = [.fin true 0 0, .nan, .nan, .fin false 0 0, .nan] ∧
    all (.inf false) = [.fin false 0 0, .fin false 0 0, .inf false, .inf false, .inf false] ∧
    ∀ (s : Bool) (e : Int), all (.fin s 0 e) = [.inf s, .inf s, .fin s 0 0, .fin false 1 0, .inf true]) :=
  ⟨rfl, rfl, rfl, fun _ _ => rfl⟩

theorem negative_operands {m : Nat} (hm : m ≠ 0) (e : Int) :
    (fnRsq (.fin true m e)).1 = .nan ∧ (fnSqrt (.fin true m e)).1 = .nan ∧ (fnLog2 (.fin true m e)).1 = .nan := by
  simp [fnRsq, fnSqrt, fnLog2, hm]

/-- Settles O18: a sum or product of two finite numbers has the exact value (`Num.add_fin`, `Num.rat_mul_fin`), the bit-by-bit root brackets
it (`isqrt_spec`), and rounding to integral is the selection of R73 at the quantum 1 (`fnRnd_fin`). -/
theorem arithmeticIsExact : Obligations.ArithmeticIsExact := by
  unfold Obligations.ArithmeticIsExact
  refine ⟨fun rm a s t m e => ?_, fun rm st s e => ?_, special_operands, fun m e hm => negative_operands hm.ne' e, rfl,
    fun rm s m e hm => fnRnd_fin hm.ne', fun m e hm => fnRsq_fin hm.ne' e, fun rm s t m n e g => Num.add_fin rm s t m n e g,
    fun s t m n e g => ⟨_, _, Num.mul_fin s t m n e g, Num.rat_mul_fin s t m n e g⟩, fun m e hm => fnSqrt_fin hm.ne' e,
    fun s m e hm => fnRcp_fin hm.ne' s e⟩
  · simp [fnRnd]
  · simp

end Sys2Proof

/-! # The conversion policy (03 R81-R84) -/

namespace Sys2Proof

/-! ## The fields of the policy byte -/

theorem polNan_eq {pol : Nat} (h : pol < 256) : polNan pol = pol / 64 := by
  simp only [polNan, bitsOf]
  omega
theorem polInf_eq (pol : Nat) : polInf pol = pol / 16 % 4 := rfl
theorem polOvf_eq (pol : Nat) : polOvf pol = pol / 4 % 4 := rfl
theorem polUnf_eq (pol : Nat) : polUnf pol = pol % 4 := by simp [polUnf, bitsOf]

theorem four_actions {a : Nat} (h : a < 4) : a = 0 ∨ a = 1 ∨ a = 2 ∨ a = 3 := by omega

/-! ## Formats below binary32 -/

/-- What the policy replaces a value by, for a target of `policyTable` (R70). -/
structure PolicyTarget (f : Fmt) (big : Nat) (infi : Option Nat) (nan : Nat) : Prop where
  sound : f.Sound
  small : f.bits ≠ 32
  nan_eq : f.nan = nan
  largest_eq : ∀ s, f.largest s = f.signBit s + big
  isSome_eq : infi.isSome = f.hasInf
  infinity_eq : ∀ s n, infi = some n → f.infinity s = f.signBit s + n

theorem Fmt.Sound.of_mem {f : Fmt} (h : f ∈ roundingTable.map Prod.fst) : f.Sound := by
  obtain ⟨_, hrow, rfl⟩ := List.mem_map.1 h
  exact (Fmt.Sound.of_table hrow).1

theorem PolicyTarget.of_table {f : Fmt} {big nan : Nat} {infi : Option Nat} (h : (f, big, infi, nan) ∈ policyTable) :
    PolicyTarget f big infi nan := by
  simp only [policyTable, List.mem_cons, Prod.mk.injEq, List.not_mem_nil, or_false] at h
  rcases h with ⟨rfl, rfl, rfl, rfl⟩ | ⟨rfl, rfl, rfl, rfl⟩ | ⟨rfl, rfl, rfl, rfl⟩ | ⟨rfl, rfl, rfl, rfl⟩ <;>
  exact ⟨Fmt.Sound.of_mem (by simp [roundingTable]), by decide, rfl, by decide, rfl, by decide⟩

section Target

variable {f : Fmt} {big nan pol m : Nat} {infi : Option Nat} {rm : Rm} {neg : Bool} {e : Int}

theorem PolicyTarget.rat_big (h : PolicyTarget f big infi nan) : (f.decode big).rat = f.maxf := by
  obtain ⟨m, e, hd, hv⟩ := h.sound.decode_largest (neg := false)
  rw [h.largest_eq, Fmt.signBit, Bool.toNat_false, zero_mul, zero_add] at hd
  rw [hd, Num.rat_fin, ← hv]
  simp

theorem PolicyTarget.convert (h : PolicyTarget f big infi nan) (x : Num) : f.convert rm pol x = f.resolve rm pol x := by
  cases x <;> simp [Fmt.convert, h.small]

theorem PolicyTarget.resolve_nan (h : PolicyTarget f big infi nan) (hp : pol < 256) :
    f.resolve rm pol .nan = [some big, some 0, some nan, none].getD (pol / 64) none := by
  have hbig : f.largest false = big := by rw [h.largest_eq]; simp [Fmt.signBit]
  rw [← polNan_eq hp]
  rcases four_actions (a := polNan pol) (by rw [polNan_eq hp]; omega) with ha | ha | ha | ha <;> simp [Fmt.resolve, ha, hbig, h.nan_eq]

theorem PolicyTarget.resolve_inf (h : PolicyTarget f big infi nan) : f.resolve rm pol (.inf neg) =
    [some (f.signBit neg + big), some (f.signBit neg + 0), some (f.signBit neg + infi.getD big), none].getD (pol / 16 % 4) none := by
  have hi := h.isSome_eq
  rw [← polInf_eq]
  rcases four_actions (a := polInf pol) (by rw [polInf_eq]; omega) with ha | ha | ha | ha
  · simp [Fmt.resolve, ha, h.largest_eq]
  · simp [Fmt.resolve, ha]
  · cases infi with
    | none => simp [Fmt.resolve, ha, ← hi, h.largest_eq]
    | some n => simp [Fmt.resolve, ha, ← hi, h.infinity_eq neg n rfl]
  · simp [Fmt.resolve, ha]

theorem PolicyTarget.resolve_over (h : PolicyTarget f big infi nan) (hm : m ≠ 0)
    (ho : f.over (f.round rm neg m e false).1 (f.round rm neg m e false).2 = true) : f.resolve rm pol (.fin neg m e) =
      [some (f.signBit neg + big), some (f.signBit neg + 0),
        if infi.isSome then some (f.result rm (.fin neg m e) false) else some (f.signBit neg + big), none].getD (pol / 4 % 4) none := by
  rw [Fmt.result_fin hm, if_pos ho, h.isSome_eq, ← polOvf_eq]
  rcases four_actions (a := polOvf pol) (by rw [polOvf_eq]; omega) with ha | ha | ha | ha <;> simp [Fmt.resolve, hm, ho, ha, h.largest_eq]

theorem Fmt.resolve_under (hm : m ≠ 0) (h0 : (f.round rm neg m e false).1 = 0) : f.resolve rm pol (.fin neg m e) =
    [some (f.signBit neg + 1), some (f.signBit neg + 0), some (f.signBit neg + 0), none].getD (pol % 4) none := by
  have ho : f.over 0 (f.round rm neg m e false).2 = false := by simp [Fmt.over]
  rw [← polUnf_eq]
  rcases four_actions (a := polUnf pol) (by rw [polUnf_eq]; omega) with ha | ha | ha | ha <;> simp [Fmt.resolve, hm, h0, ho, ha]

theorem Fmt.resolve_of_range (hm : m ≠ 0) (h0 : (f.round rm neg m e false).1 ≠ 0)
    (ho : f.over (f.round rm neg m e false).1 (f.round rm neg m e false).2 = false) :
    f.resolve rm pol (.fin neg m e) = some (f.result rm (.fin neg m e) false) := by
  simp [Fmt.resolve, Fmt.result, hm, h0, ho]

end Target

/-! ## Binary32 and integers -/

theorem f32_policy (rm : Rm) {pol : Nat} (neg : Bool) (hp : pol < 256) :
    Fmt.f32.convert rm pol .nan = [some 0x7F7FFFFF, some 0, some 0x7FC00000, none].getD (pol / 64) none ∧
    Fmt.f32.convert rm pol (.inf neg) = some (if neg then 0xFF800000 else 0x7F800000) ∧
    Fmt.f32.resolve rm pol (.inf neg) = (([some 0x7F7FFFFF, some 0, some 0x7F800000, none] : List (Option Nat)).getD (pol / 16 % 4) none).map
      fun n => n + if neg then 0x80000000 else 0 := by
  have hnan : Fmt.f32.largest false = 0x7F7FFFFF ∧ Fmt.f32.nan = 0x7FC00000 := by decide
  refine ⟨?_, by cases neg <;> rfl, ?_⟩
  · rw [← polNan_eq hp]
    rcases four_actions (a := polNan pol) (by rw [polNan_eq hp]; omega) with ha | ha | ha | ha <;>
      simp [Fmt.convert, Fmt.resolve, ha, hnan]
  · rw [← polInf_eq]
    rcases four_actions (a := polInf pol) (by rw [polInf_eq]; omega) with ha | ha | ha | ha <;> cases neg <;>
      simp only [Fmt.resolve, ha] <;> rfl

theorem convertInt_policy (lo hi : Int) (rm : Rm) {pol : Nat} (neg : Bool) (m : Nat) (e : Int) (hp : pol < 256) :
    let r : Int := if neg then -(roundQ rm neg m e false 0 : Int) else roundQ rm neg m e false 0
    let edge := some (if neg then lo else hi)
    convertInt lo hi rm pol .nan = [some hi, some 0, some hi, none].getD (pol / 64) none ∧
    convertInt lo hi rm pol (.inf neg) = [edge, some 0, edge, none].getD (pol / 16 % 4) none ∧
    (r < lo ∨ hi < r → convertInt lo hi rm pol (.fin neg m e) = [edge, some 0, edge, none].getD (pol / 4 % 4) none) ∧
    (lo ≤ r → r ≤ hi → convertInt lo hi rm pol (.fin neg m e) = some r) := by
  intro r edge
  have hr : signed neg (roundQ rm neg m e false 0) = r := rfl
  refine ⟨?_, ?_, fun h => ?_, fun h0 h1 => ?_⟩
  · rw [← polNan_eq hp]
    rcases four_actions (a := polNan pol) (by rw [polNan_eq hp]; omega) with ha | ha | ha | ha <;> simp [convertInt, ha]
  · rw [← polInf_eq]
    rcases four_actions (a := polInf pol) (by rw [polInf_eq]; omega) with ha | ha | ha | ha <;> simp [convertInt, ha, edge]
  · rw [← polOvf_eq]
    rcases four_actions (a := polOvf pol) (by rw [polOvf_eq]; omega) with ha | ha | ha | ha <;> simp [convertInt, hr, h, ha, edge]
  · simp [convertInt, hr, not_lt.2 h0, not_lt.2 h1]

/-- Settles O21: class by class, with the model's range test read as a comparison of values (`Fmt.over_iff`). -/
theorem conversionPolicy : Obligations.ConversionPolicy := by
  unfold Obligations.ConversionPolicy
  refine ⟨fun f big infi nan rm pol neg m e hf hp => ?_, fun rm pol neg hp => f32_policy rm neg hp,
    fun lo hi rm pol neg m e hp => convertInt_policy lo hi rm neg m e hp⟩
  have h := PolicyTarget.of_table hf
  intro sg cv k q above
  have hsg : ∀ n, some (f.signBit neg + n) = sg n := fun n => by cases neg <;> simp [sg, Fmt.signBit]
  have habove : above ↔ f.over k q = true := by rw [Fmt.over_iff, ← h.rat_big]
  refine ⟨?_, ?_, ?_, fun hm ha => ?_, fun hm h0 => ?_, fun hm ha h0 => ?_⟩ <;> simp only [cv, h.convert, ← hsg]
  · exact h.resolve_nan hp
  · exact h.resolve_inf
  · simp [Fmt.resolve]
  · exact h.resolve_over hm.ne' (habove.1 ha)
  · exact Fmt.resolve_under hm.ne' h0
  · exact Fmt.resolve_of_range hm.ne' h0 (by simpa using mt habove.2 ha)

end Sys2Proof

/-! # The selection of a block (03 R79, R85, R86) -/

namespace Sys2Proof

/-! ## The selection in named parts -/

section Parts

variable (m : Nat) (rm : Rm) (pol : Nat) (v : List Num)

/-- A NaN or an infinity of the block meets the action `a` of its class. -/
def meets (a : Nat) : Bool := (v.any (· == .nan) && polNan pol == a) || (v.any Num.infinite && polInf pol == a)

/-- How many integers are 0 at an exponent, and how many are out of range, of the elements that are finite and not zero. -/
def underAt (E : Int) : Nat := ((v.filter Num.nonzero).filter fun x => bfpQ m rm x E == 0).length
def satAt (E : Int) : Nat := ((v.filter Num.nonzero).filter fun x =>
  decide (2 ^ (m - 1) - 1 < bfpQ m rm x E) || decide (bfpQ m rm x E < -(2 ^ (m - 1)))).length

/-- The largest exponent met so far. -/
def raiseTop (a : Option Int) (x : Num) : Option Int :=
  match x with
  | .fin _ k g => some (match a with | some b => max b (topExp k g) | none => topExp k g)
  | _ => a

/-- The exponent before it is tried one lower. -/
def firstExp (em : Int) : Int :=
  if (v.filter Num.nonzero).any fun x => decide (2 ^ (m - 1) - 1 < bfpQ m rm x (em + 128)) then em + 128 + 1 else em + 128

/-- The exponent, and whether it is 254 by overflow. -/
def blockExp : Int × Bool :=
  match (v.filter Num.nonzero).foldl raiseTop none with
  | none => (if meets pol v 0 then 254 else 0, false)
  | some em =>
    if 254 < firstExp m rm v em then (254, true)
    else if firstExp m rm v em ≤ 1 then (1, false)
    else if (underAt m rm v (firstExp m rm v em - 1) : Int) + 2 * satAt m rm v (firstExp m rm v em - 1) < underAt m rm v (firstExp m rm v em)
      then (firstExp m rm v em - 1, false) else (firstExp m rm v em, false)

/-- An element's integer, and whether it selects fault, for an exponent that `past` says is 254 by overflow. -/
def blockInt (E : Int) (past : Bool) (x : Num) : Int × Bool :=
  match x with
  | .nan => (if polNan pol == 0 then 2 ^ (m - 1) - 1 else 0, false)
  | .inf s => (if polInf pol == 0 then (if s then -(2 ^ (m - 1)) else 2 ^ (m - 1) - 1) else 0, false)
  | .fin s k _ =>
    let r := bfpQ m rm x E
    if k = 0 then (0, false)
    else if past && (decide (2 ^ (m - 1) - 1 < r) || decide (r < -(2 ^ (m - 1)))) then
      if polOvf pol == 1 then (0, false) else (clampTo (-(2 ^ (m - 1))) (2 ^ (m - 1) - 1) r, polOvf pol == 3)
    else if r = 0 then (if polUnf pol == 0 then signed s 1 else 0, polUnf pol == 3)
    else (clampTo (-(2 ^ (m - 1))) (2 ^ (m - 1) - 1) r, false)

/-- The integer before the policy acts on it. -/
def rawInt (E : Int) (past : Bool) (x : Num) : Int :=
  match x with
  | .fin _ _ _ => bfpQ m rm x E
  | _ => (blockInt m rm pol E past x).1

/-- A NaN or an infinity that selects fault. -/
def earlyFault (x : Num) : Bool := (x == .nan && polNan pol == 3) || (x.infinite && polInf pol == 3)

/-- The positions of the elements with a property. -/
def positions {α : Type} (p : α → Bool) (l : List α) : List Nat := l.zipIdx.filterMap fun (x, i) => if p x then some i else none

theorem bfpConvert_special (h : meets pol v 2 = true) : bfpConvert m rm pol v = ⟨255, v.map fun _ => 0, 0, positions (earlyFault pol) v⟩ :=
  if_pos h

theorem bfpConvert_plain (h : meets pol v 2 = false) : bfpConvert m rm pol v =
    ⟨if (v.map (rawInt m rm pol (blockExp m rm pol v).1 (blockExp m rm pol v).2)).all (· == 0) then 0 else (blockExp m rm pol v).1.toNat,
      (v.map (blockInt m rm pol (blockExp m rm pol v).1 (blockExp m rm pol v).2)).map (·.1),
      if ((v.filter Num.nonzero).foldl raiseTop none).isNone then 0 else underAt m rm v (blockExp m rm pol v).1,
      positions (earlyFault pol) v ++ positions (·.2) (v.map (blockInt m rm pol (blockExp m rm pol v).1 (blockExp m rm pol v).2))⟩ :=
  if_neg (by rw [Bool.not_eq_true]; exact h)


end Parts

theorem mem_positions {α : Type} (p : α → Bool) (l : List α) (i : Nat) : i ∈ positions p l ↔ ∃ x, l[i]? = some x ∧ p x = true := by
  simp only [positions, List.mem_filterMap, Prod.exists, List.mk_mem_zipIdx_iff_getElem?]
  constructor
  · rintro ⟨x, j, hx, hif⟩
    split at hif
    · next hp =>
      obtain rfl := Option.some.inj hif
      exact ⟨x, hx, hp⟩
    · cases hif
  · rintro ⟨x, hx, hp⟩
    exact ⟨x, i, hx, by rw [if_pos hp]⟩

/-! ## Special operands of the block -/

theorem any_nan (v : List Num) : (v.any (· == .nan)) = true ↔ .nan ∈ v := by simp

theorem meets_iff {pol : Nat} (hp : pol < 256) (v : List Num) (a : Nat) :
    meets pol v a = true ↔ (.nan ∈ v ∧ pol / 64 = a) ∨ (v.any Num.infinite = true ∧ pol / 16 % 4 = a) := by
  rw [meets, Bool.or_eq_true, Bool.and_eq_true, Bool.and_eq_true, any_nan, beq_iff_eq, beq_iff_eq, polNan_eq hp, polInf_eq]

theorem infinite_iff (x : Num) : x.infinite = true ↔ ∃ s, x = .inf s := by cases x <;> simp [Num.infinite]

theorem earlyFault_iff {pol : Nat} (hp : pol < 256) (x : Num) :
    earlyFault pol x = true ↔ (x = .nan ∧ pol / 64 = 3) ∨ (x.infinite = true ∧ pol / 16 % 4 = 3) := by
  rw [earlyFault, Bool.or_eq_true, Bool.and_eq_true, Bool.and_eq_true, beq_iff_eq, beq_iff_eq, beq_iff_eq, polNan_eq hp, polInf_eq]

/-! ## The largest exponent -/

/-- The exponent of a finite number. -/
def Num.top : Num → Int
  | .fin _ k g => topExp k g
  | _ => 0

theorem Num.top_brackets {x : Num} (h : x.nonzero = true) : (2 : Rat) ^ x.top ≤ |x.rat| ∧ |x.rat| < 2 ^ (x.top + 1) := by
  cases x with
  | fin s k g =>
    rw [abs_rat_fin]
    exact (stands_exact k g).exponent (by simpa [Num.nonzero] using h)
  | nan => cases h
  | inf s => cases h

theorem raiseTop_foldl (l : List Num) (hl : ∀ x ∈ l, x.nonzero = true) (b : Int) :
    ∃ em, l.foldl raiseTop (some b) = some em ∧ b ≤ em ∧ (em = b ∨ ∃ x ∈ l, x.top = em) ∧ ∀ x ∈ l, x.top ≤ em := by
  induction l generalizing b with
  | nil => exact ⟨b, rfl, le_rfl, .inl rfl, by simp⟩
  | cons x xs ih =>
    have hx : raiseTop (some b) x = some (max b x.top) := by
      have := hl x (.head _)
      cases x <;> simp_all [raiseTop, Num.top, Num.nonzero]
    obtain ⟨em, hem, hle, hat, hall⟩ := ih (fun y hy => hl y (.tail _ hy)) (max b x.top)
    refine ⟨em, by rw [List.foldl_cons, hx, hem], (le_max_left _ _).trans hle, ?_, ?_⟩
    · rcases hat with rfl | ⟨y, hy, hyt⟩
      · rcases max_choice b x.top with h | h
        · exact .inl h
        · exact .inr ⟨x, .head _, h.symm⟩
      · exact .inr ⟨y, .tail _ hy, hyt⟩
    · intro y hy
      rcases List.mem_cons.1 hy with rfl | hy
      · exact (le_max_right _ _).trans hle
      · exact hall y hy

/-- The fold of the model gives the largest exponent. -/
theorem raiseTop_max {l : List Num} (hl : ∀ x ∈ l, x.nonzero = true) (hne : l ≠ []) :
    ∃ em, l.foldl raiseTop none = some em ∧ (∃ x ∈ l, x.top = em) ∧ ∀ x ∈ l, x.top ≤ em := by
  obtain ⟨x, xs, rfl⟩ := List.exists_cons_of_ne_nil hne
  have hx : raiseTop none x = some x.top := by
    have := hl x (.head _)
    cases x <;> simp_all [raiseTop, Num.top, Num.nonzero]
  obtain ⟨em, hem, hle, hat, hall⟩ := raiseTop_foldl xs (fun y hy => hl y (.tail _ hy)) x.top
  refine ⟨em, by rw [List.foldl_cons, hx, hem], ?_, fun y hy => ?_⟩
  · rcases hat with rfl | ⟨y, hy, hyt⟩
    · exact ⟨x, .head _, rfl⟩
    · exact ⟨y, .tail _ hy, hyt⟩
  · rcases List.mem_cons.1 hy with rfl | hy
    · exact hle
    · exact hall y hy

/-! ## The integers -/

theorem bfpQ_eq (m : Nat) (rm : Rm) (x : Num) (E : Int) : bfpQ m rm x E = selected rm (x.rat / (2 : Rat) ^ (E - 126 - m)) := by
  cases x with
  | fin s k g => exact roundQ_selected rm s k g _
  | nan => cases rm <;> simp [bfpQ, Num.rat, selected]
  | inf s => cases rm <;> simp [bfpQ, Num.rat, selected]

theorem bfpQ_zero (m : Nat) (rm : Rm) (s : Bool) (g E : Int) : bfpQ m rm (.fin s 0 g) E = 0 := by
  rw [bfpQ_eq, Num.rat_fin]
  cases rm <;> simp [selected]

theorem rat_neg_iff {s : Bool} {k : Nat} (hk : k ≠ 0) (g : Int) : (Num.fin s k g).rat < 0 ↔ s = true := by
  have : (0 : Rat) < k * 2 ^ g := by positivity
  rw [Num.rat_fin, mul_assoc]
  cases s <;> simp [this, this.le]

section Ints

variable {m : Nat} {rm : Rm} {pol : Nat} {E : Int} {past : Bool} {x : Num}

/-- An integer is in the range of `m` bits. -/
def InRange (m : Nat) (r : Int) : Prop := -(2 ^ (m - 1)) ≤ r ∧ r ≤ 2 ^ (m - 1) - 1

theorem clampTo_of_inRange {r : Int} (h : InRange m r) : clampTo (-(2 ^ (m - 1))) (2 ^ (m - 1) - 1) r = r := by
  rw [clampTo, if_neg (not_lt.2 h.1), if_neg (not_lt.2 h.2)]

theorem clampTo_of_not_inRange {r : Int} (h : 2 ^ (m - 1) - 1 < r ∨ r < -(2 ^ (m - 1))) :
    clampTo (-(2 ^ (m - 1))) (2 ^ (m - 1) - 1) r = if 2 ^ (m - 1) - 1 < r then 2 ^ (m - 1) - 1 else -(2 ^ (m - 1)) := by
  have hpos : (0 : Int) < 2 ^ (m - 1) := by positivity
  unfold clampTo
  rcases h with h | h
  · rw [if_neg (by omega), if_pos h, if_pos h]
  · rw [if_pos h, if_neg (by omega)]

theorem two_le_pow (hm : 2 ≤ m) : (2 : Int) ≤ 2 ^ (m - 1) := by
  calc (2 : Int) = 2 ^ 1 := rfl
    _ ≤ 2 ^ (m - 1) := pow_le_pow_right₀ one_le_two (by omega)

theorem blockInt_in (hx : x.nonzero = true) (hr : InRange m (bfpQ m rm x E)) (h0 : bfpQ m rm x E ≠ 0) :
    blockInt m rm pol E past x = (bfpQ m rm x E, false) := by
  cases x with
  | fin s k g =>
    have hk : k ≠ 0 := by simpa [Num.nonzero] using hx
    simp [blockInt, hk, h0, not_lt.2 hr.1, not_lt.2 hr.2, clampTo_of_inRange hr]
  | nan => cases hx
  | inf s => cases hx

theorem blockInt_under (hm : 2 ≤ m) (hx : x.nonzero = true) (h0 : bfpQ m rm x E = 0) :
    blockInt m rm pol E past x = (if pol % 4 ≠ 0 then 0 else if x.rat < 0 then -1 else 1, pol % 4 == 3) := by
  have hpow := two_le_pow hm
  cases x with
  | fin s k g =>
    have hk : k ≠ 0 := by simpa [Num.nonzero] using hx
    have h1 : ¬(2 : Int) ^ (m - 1) - 1 < 0 := by omega
    have h2 : ¬(0 : Int) < -(2 ^ (m - 1)) := by omega
    simp only [blockInt, hk, h0, h1, h2, polUnf_eq, rat_neg_iff hk]
    cases s <;> simp [signed]
  | nan => cases hx
  | inf s => cases hx

theorem blockInt_out (hm : 2 ≤ m) (hx : x.nonzero = true) (hr : 2 ^ (m - 1) - 1 < bfpQ m rm x E ∨ bfpQ m rm x E < -(2 ^ (m - 1))) :
    blockInt m rm pol E past x = if past = true ∧ pol / 4 % 4 = 1 then (0, false)
      else (if 2 ^ (m - 1) - 1 < bfpQ m rm x E then 2 ^ (m - 1) - 1 else -(2 ^ (m - 1)), past && pol / 4 % 4 == 3) := by
  have hpow := two_le_pow hm
  have h0 : bfpQ m rm x E ≠ 0 := by omega
  cases x with
  | fin s k g =>
    have hk : k ≠ 0 := by simpa [Num.nonzero] using hx
    have hr' : (decide (2 ^ (m - 1) - 1 < bfpQ m rm (.fin s k g) E) || decide (bfpQ m rm (.fin s k g) E < -(2 ^ (m - 1)))) = true := by
      simpa only [Bool.or_eq_true, decide_eq_true_iff] using hr
    simp only [blockInt, if_neg hk, if_neg h0, polOvf_eq, clampTo_of_not_inRange hr, hr']
    cases past <;> simp
  | nan => cases hx
  | inf s => cases hx

end Ints

/-! ## The exponent -/

section Exponent

variable {m : Nat} {rm : Rm} {pol : Nat} {v : List Num}

theorem blockExp_of_nil (h : v.filter Num.nonzero = []) : blockExp m rm pol v = (if meets pol v 0 then 254 else 0, false) := by
  simp only [blockExp, h, List.foldl_nil]

theorem raiseTop_filter (h : v.filter Num.nonzero ≠ []) : ∃ em, (v.filter Num.nonzero).foldl raiseTop none = some em ∧
    (∃ x ∈ v.filter Num.nonzero, x.top = em) ∧ ∀ x ∈ v.filter Num.nonzero, x.top ≤ em :=
  raiseTop_max (fun _ hx => (List.mem_filter.1 hx).2) h

theorem firstExp_up {em : Int} (h : ∃ x ∈ v.filter Num.nonzero, 2 ^ (m - 1) - 1 < bfpQ m rm x (em + 128)) : firstExp m rm v em = em + 129 := by
  obtain ⟨x, hx, hlt⟩ := h
  rw [firstExp, if_pos (List.any_eq_true.2 ⟨x, hx, by simpa using hlt⟩)]
  ring

theorem firstExp_stay {em : Int} (h : ∀ x ∈ v.filter Num.nonzero, bfpQ m rm x (em + 128) ≤ 2 ^ (m - 1) - 1) : firstExp m rm v em = em + 128 := by
  rw [firstExp, if_neg]
  rw [List.any_eq_true]
  rintro ⟨x, hx, hlt⟩
  exact (h x hx).not_gt (of_decide_eq_true hlt)

/-- The choice among the first exponent, the one below it, and the two ends. -/
theorem blockExp_of_some {em E0 : Int} (h : (v.filter Num.nonzero).foldl raiseTop none = some em) (hE0 : firstExp m rm v em = E0) :
    ((blockExp m rm pol v).2 = true ↔ 254 < E0) ∧ (254 < E0 → (blockExp m rm pol v).1 = 254) ∧ (E0 ≤ 1 → (blockExp m rm pol v).1 = 1) ∧
      (1 < E0 → E0 ≤ 254 → 2 * satAt m rm v (E0 - 1) + underAt m rm v (E0 - 1) < underAt m rm v E0 → (blockExp m rm pol v).1 = E0 - 1) ∧
      (1 < E0 → E0 ≤ 254 → underAt m rm v E0 ≤ 2 * satAt m rm v (E0 - 1) + underAt m rm v (E0 - 1) → (blockExp m rm pol v).1 = E0) := by
  rw [blockExp, h]
  simp only [hE0]
  split
  · simp_all
    omega
  split
  · simp_all
  split <;> simp_all <;> omega

theorem blockExp_nonneg : 0 ≤ (blockExp m rm pol v).1 := by
  rw [blockExp]
  split
  · dsimp only
    split <;> decide
  · split
    · decide
    · split
      · decide
      · split <;> dsimp only <;> omega

end Exponent

/-- Every integer is 0 before the policy acts. -/
theorem rawInt_all_zero {m : Nat} (hm : 2 ≤ m) (rm : Rm) (pol : Nat) (v : List Num) (E : Int) (past : Bool) :
    (v.map (rawInt m rm pol E past)).all (· == 0) = true ↔ (∀ x ∈ v.filter Num.nonzero, bfpQ m rm x E = 0) ∧ meets pol v 0 = false := by
  have hpow := two_le_pow hm
  have h1 : (2 : Int) ^ (m - 1) - 1 ≠ 0 := by omega
  have h2 : -(2 : Int) ^ (m - 1) ≠ 0 := by omega
  have hx : ∀ x, rawInt m rm pol E past x = 0 ↔ (x.nonzero = true → bfpQ m rm x E = 0) ∧ (x = .nan → polNan pol ≠ 0) ∧
      (x.infinite = true → polInf pol ≠ 0) := fun x => by
    cases x with
    | nan => simp [rawInt, blockInt, Num.nonzero, Num.infinite, h1]
    | inf s => cases s <;> simp [rawInt, blockInt, Num.nonzero, Num.infinite, h1, h2]
    | fin s k g =>
      rcases eq_or_ne k 0 with rfl | hk
      · simp [rawInt, Num.nonzero, Num.infinite, bfpQ_zero]
      · simp [rawInt, Num.nonzero, Num.infinite, hk]
  simp only [List.all_map, List.all_eq_true, Function.comp_apply, beq_iff_eq, hx, List.mem_filter, meets, Bool.or_eq_false_iff,
    Bool.and_eq_false_iff, List.any_eq_false]
  constructor
  · intro h
    refine ⟨fun x ⟨hxv, hn⟩ => (h x hxv).1 hn, ?_, ?_⟩
    · by_cases hp : polNan pol = 0
      · exact .inl fun x hxv hxn => (h x hxv).2.1 (by simpa using hxn) hp
      · exact .inr (by simpa using hp)
    · by_cases hp : polInf pol = 0
      · exact .inl fun x hxv hxn => (h x hxv).2.2 hxn hp
      · exact .inr (by simpa using hp)
  · rintro ⟨hz, hn, hi⟩ x hxv
    refine ⟨fun hx => hz x ⟨hxv, hx⟩, fun hx hp => ?_, fun hx hp => ?_⟩
    · rcases hn with hn | hn
      · exact hn x hxv (by simp [hx])
      · simp [hp] at hn
    · rcases hi with hi | hi
      · exact hi x hxv hx
      · simp [hp] at hi

/-- An element's fault under the policy for its class of result. -/
theorem blockInt_fault {m : Nat} (hm : 2 ≤ m) (rm : Rm) (pol : Nat) (E : Int) (past : Bool) (x : Num) :
    (blockInt m rm pol E past x).2 = true ↔ (x.nonzero = true ∧ bfpQ m rm x E = 0 ∧ pol % 4 = 3) ∨
      (x.nonzero = true ∧ past = true ∧ (2 ^ (m - 1) - 1 < bfpQ m rm x E ∨ bfpQ m rm x E < -(2 ^ (m - 1))) ∧ pol / 4 % 4 = 3) := by
  have hpow := two_le_pow hm
  by_cases hx : x.nonzero = true
  · by_cases h0 : bfpQ m rm x E = 0
    · rw [blockInt_under hm hx h0, beq_iff_eq, h0]
      have : ¬((2 : Int) ^ (m - 1) - 1 < 0 ∨ (0 : Int) < -(2 ^ (m - 1))) := by omega
      simp only [hx, this, false_and, and_false, or_false, true_and]
    · by_cases hr : 2 ^ (m - 1) - 1 < bfpQ m rm x E ∨ bfpQ m rm x E < -(2 ^ (m - 1))
      · rw [blockInt_out hm hx hr]
        split
        · next h => simp [h.2, h0]
        · next h => cases past <;> simp_all
      · rw [blockInt_in hx ⟨by omega, by omega⟩ h0]
        simp only [h0, hr, Bool.false_eq_true, false_and, and_false, or_false]
  · have : (blockInt m rm pol E past x).2 = false := by
      cases x with
      | nan => rfl
      | inf s => rfl
      | fin s k g =>
        have hk : k = 0 := by simpa [Num.nonzero] using hx
        simp [blockInt, hk]
    simp [this, hx]


/-! ## The block -/

theorem bfpConvert_faults_special {m : Nat} {rm : Rm} {pol : Nat} (hp : pol < 256) {v : List Num} (h : meets pol v 2 = true) (i : Nat) :
    i ∈ (bfpConvert m rm pol v).faults ↔ (v[i]? = some .nan ∧ pol / 64 = 3) ∨ (∃ s, v[i]? = some (.inf s) ∧ pol / 16 % 4 = 3) := by
  rw [bfpConvert_special m rm pol v h]
  simp only [mem_positions, earlyFault_iff hp, infinite_iff]
  constructor
  · rintro ⟨x, hx, ⟨rfl, ha⟩ | ⟨⟨s, rfl⟩, ha⟩⟩
    · exact .inl ⟨hx, ha⟩
    · exact .inr ⟨s, hx, ha⟩
  · rintro (⟨hx, ha⟩ | ⟨s, hx, ha⟩)
    · exact ⟨_, hx, .inl ⟨rfl, ha⟩⟩
    · exact ⟨_, hx, .inr ⟨⟨s, rfl⟩, ha⟩⟩

theorem bfpConvert_faults {m : Nat} (hm : 2 ≤ m) {rm : Rm} {pol : Nat} (hp : pol < 256) {v : List Num} (h : meets pol v 2 = false) (i : Nat) :
    i ∈ (bfpConvert m rm pol v).faults ↔ ∃ x, v[i]? = some x ∧ ((x = .nan ∧ pol / 64 = 3) ∨ (x.infinite = true ∧ pol / 16 % 4 = 3) ∨
      (x.nonzero = true ∧ bfpQ m rm x (blockExp m rm pol v).1 = 0 ∧ pol % 4 = 3) ∨
      (x.nonzero = true ∧ (blockExp m rm pol v).2 = true ∧
        (2 ^ (m - 1) - 1 < bfpQ m rm x (blockExp m rm pol v).1 ∨ bfpQ m rm x (blockExp m rm pol v).1 < -(2 ^ (m - 1))) ∧ pol / 4 % 4 = 3)) := by
  rw [bfpConvert_plain m rm pol v h]
  simp only [List.mem_append, mem_positions, earlyFault_iff hp, List.getElem?_map, Option.map_eq_some_iff]
  constructor
  · rintro (⟨x, hx, hf⟩ | ⟨y, ⟨x, hx, rfl⟩, hf⟩)
    · exact ⟨x, hx, hf.imp_right .inl⟩
    · exact ⟨x, hx, .inr (.inr ((blockInt_fault hm rm pol _ _ x).1 hf))⟩
  · rintro ⟨x, hx, hf | hf | hf⟩
    · exact .inl ⟨x, hx, .inl hf⟩
    · exact .inl ⟨x, hx, .inr hf⟩
    · exact .inr ⟨_, ⟨x, hx, rfl⟩, (blockInt_fault hm rm pol _ _ x).2 hf⟩

/-- Settles O23: the model's selection in named parts (`bfpConvert_plain`), each of which is what R85 says with the model's integers read as
the selection of R73 (`bfpQ_eq`). -/
theorem blockSelection : Obligations.BlockSelection := by
  unfold Obligations.BlockSelection
  intro m rm pol v hm _ hp _ b nanAct infAct mx mn q fin special sated under sat
  have hq : q = bfpQ m rm := funext fun x => funext fun E => (bfpQ_eq m rm x E).symm
  have hspecial : special ↔ meets pol v 2 = true := (meets_iff hp v 2).symm
  have hsated : sated ↔ meets pol v 0 = true := (meets_iff hp v 0).symm
  have hunder : under = underAt m rm v := by simp only [under, hq]; rfl
  have hsat : sat = satAt m rm v := by simp only [sat, hq]; rfl
  rw [hspecial, Bool.not_eq_true]
  refine ⟨fun h => ?_, fun h => ⟨(blockExp m rm pol v).1, (blockExp m rm pol v).2 = true, fun hnil => ?_, fun hne => ?_, ?_, fun hz => ?_, fun hz => ?_,
    ?_, fun i x hx => ?_, fun i => ?_⟩⟩
  · refine ⟨?_, ?_, ?_, bfpConvert_faults_special hp h⟩ <;> simp only [b, bfpConvert_special m rm pol v h]
  · rw [blockExp_of_nil hnil, hsated]
    exact ⟨Bool.false_ne_true, fun h0 => if_pos h0, fun h0 => if_neg h0⟩
  · obtain ⟨em, hem, ⟨x, hx, hxt⟩, hall⟩ := raiseTop_filter hne
    rw [hq, hunder, hsat]
    refine ⟨em, firstExp m rm v em, ⟨x, hx, ?_⟩, fun y hy => ?_, firstExp_up, firstExp_stay, blockExp_of_some hem rfl⟩
    · rw [← hxt]
      exact (Num.top_brackets (List.mem_filter.1 hx).2).1
    · refine (Num.top_brackets (List.mem_filter.1 hy).2).2.trans_le (zpow_le_zpow_right₀ one_le_two ?_)
      have := hall y hy
      omega
  · simp only [b, bfpConvert_plain m rm pol v h, hunder]
    split
    · next hnone =>
      have hnil : v.filter Num.nonzero = [] := by
        by_contra hne
        obtain ⟨em, hem, -⟩ := raiseTop_filter hne
        simp [hem] at hnone
      simp [underAt, hnil]
    · rfl
  · rw [hq, hsated, Bool.not_eq_true] at hz
    simp only [b, bfpConvert_plain m rm pol v h]
    rw [if_pos ((rawInt_all_zero hm rm pol v _ _).2 hz)]
  · rw [hq, hsated] at hz
    simp only [b, bfpConvert_plain m rm pol v h]
    rw [if_neg, Int.toNat_of_nonneg blockExp_nonneg]
    rw [rawInt_all_zero hm]
    rintro ⟨hall, hn⟩
    rcases hz with ⟨x, hx, h0⟩ | hz
    · exact h0 (hall x hx)
    · simp [hn] at hz
  · simp [b, bfpConvert_plain m rm pol v h]
  · refine ⟨(blockInt m rm pol (blockExp m rm pol v).1 (blockExp m rm pol v).2 x).1, ?_, ?_, ?_, ?_, ?_, ?_, ?_⟩
    · simp [b, bfpConvert_plain m rm pol v h, hx]
    · rintro rfl
      simp only [blockInt, polNan_eq hp, beq_iff_eq]
      rfl
    · rintro s rfl
      simp only [blockInt, polInf_eq, beq_iff_eq]
      rfl
    · rintro s e rfl
      rfl
    · rw [hq]
      exact fun hn h0 h1 h2 => by rw [blockInt_in hn ⟨h0, h1⟩ h2]
    · rw [hq]
      exact fun hn h0 => by rw [blockInt_under hm hn h0]
    · rw [hq]
      intro hn hr
      rw [blockInt_out hm hn hr]
      exact ⟨fun hpast => by rw [if_pos hpast], fun hpast => by rw [if_neg hpast]⟩
  · rw [hq]
    exact bfpConvert_faults hm hp h i

end Sys2Proof

/-! # Binary32 numbers in order (03 R70, R77)

A number that is not NaN has a key in a linear order; `Num.le`, the comparison and the choice of the larger or smaller are that order's, and
an encoding and the number that it encodes have the same key. -/

namespace Sys2Proof

/-! ## The order -/

/-- Infinities outside, then the exact value, then −0 below +0. -/
def Num.key (x : Num) : Int ×ₗ Rat ×ₗ Bool :=
  toLex (match x with | .inf s => if s then -1 else 1 | _ => 0, toLex (x.rat, !x.isNeg))

theorem key_le_iff {a b : Rat} {i j : Int} {p q : Bool} : (toLex (i, toLex (a, p)) : Int ×ₗ Rat ×ₗ Bool) ≤ toLex (j, toLex (b, q)) ↔
    i < j ∨ i = j ∧ (a < b ∨ a = b ∧ p ≤ q) := by
  rw [Prod.Lex.toLex_le_toLex, Prod.Lex.toLex_le_toLex]

theorem key_lt_iff {a b : Rat} {i j : Int} {p q : Bool} : (toLex (i, toLex (a, p)) : Int ×ₗ Rat ×ₗ Bool) < toLex (j, toLex (b, q)) ↔
    i < j ∨ i = j ∧ (a < b ∨ a = b ∧ p < q) := by
  rw [Prod.Lex.toLex_lt_toLex, Prod.Lex.toLex_lt_toLex]

theorem Num.key_le {a b : Num} (ha : a ≠ .nan) (hb : b ≠ .nan) :
    a.key ≤ b.key ↔ a.le b = true ∧ (b.le a = true → b.isNeg = true → a.isNeg = true) := by
  cases a with
  | nan => exact absurd rfl ha
  | inf s =>
    cases b with
    | nan => exact absurd rfl hb
    | inf t => cases s <;> cases t <;> simp [Num.key, Num.le, Num.isNeg, key_le_iff]
    | fin t n g => cases s <;> simp [Num.key, Num.le, key_le_iff]
  | fin s m e =>
    cases b with
    | nan => exact absurd rfl hb
    | inf t => cases t <;> simp [Num.key, Num.le, key_le_iff]
    | fin t n g =>
      simp only [Num.key, Num.le, Num.isNeg, key_le_iff, decide_eq_true_iff, lt_self_iff_false, false_or, true_and]
      rcases lt_trichotomy (Num.fin s m e).rat (Num.fin t n g).rat with h | h | h
      · simp [h, h.le, not_le.2 h]
      · cases s <;> cases t <;> simp [h]
      · simp [not_lt.2 h.le, not_le.2 h, h.ne']

/-- The comparison and the test of signs of `pick` are the strict order. -/
theorem Num.cmp_key {a b : Num} (ha : a ≠ .nan) (hb : b ≠ .nan) :
    ∃ d, a.cmp b = some d ∧ (decide (d < 0) || (d == 0 && a.isNeg && !b.isNeg)) = decide (a.key < b.key) := by
  cases a with
  | nan => exact absurd rfl ha
  | inf s =>
    cases b with
    | nan => exact absurd rfl hb
    | inf t => exact ⟨_, rfl, by cases s <;> cases t <;> simp [Num.key, Num.isNeg, signed, key_lt_iff]⟩
    | fin t n g => exact ⟨_, rfl, by cases s <;> simp [Num.key, Num.isNeg, signed, key_lt_iff]⟩
  | fin s m e =>
    cases b with
    | nan => exact absurd rfl hb
    | inf t => exact ⟨_, rfl, by cases t <;> simp [Num.key, Num.isNeg, signed, key_lt_iff]⟩
    | fin t n g =>
      refine ⟨_, rfl, ?_⟩
      have hp : (0 : Rat) < 2 ^ min e g := by positivity
      generalize hx : signed s m * 2 ^ (e - min e g).toNat = x
      generalize hy : signed t n * 2 ^ (g - min e g).toNat = y
      have h1 : (Num.fin s m e).rat = x * 2 ^ min e g := by rw [← hx, Num.scaled_eq s m (min_le_left e g), div_mul_cancel₀ _ hp.ne']
      have h2 : (Num.fin t n g).rat = y * 2 ^ min e g := by rw [← hy, Num.scaled_eq t n (min_le_right e g), div_mul_cancel₀ _ hp.ne']
      have hlt : (Num.fin s m e).rat < (Num.fin t n g).rat ↔ x - y < 0 := by
        rw [h1, h2, mul_lt_mul_iff_left₀ hp, Int.cast_lt, sub_neg]
      have heq : (Num.fin s m e).rat = (Num.fin t n g).rat ↔ x - y = 0 := by
        rw [h1, h2, mul_left_inj' hp.ne', Int.cast_inj, sub_eq_zero]
      simp only [Num.key, Num.isNeg, key_lt_iff, hlt, heq, lt_self_iff_false, false_or, true_and]
      rw [Bool.eq_iff_iff]
      cases s <;> cases t <;> simp

/-! ## The larger and the smaller -/

/-- `x` stands before `r` in the direction of the choice. -/
def Num.before (larger : Bool) (x r : Num) : Prop := if larger then x.key ≤ r.key else r.key ≤ x.key

theorem Num.before_refl (larger : Bool) (x : Num) : x.before larger x := by cases larger <;> exact le_refl x.key

theorem Num.before_trans {larger : Bool} {x y z : Num} (h : x.before larger y) (h' : y.before larger z) : x.before larger z := by
  cases larger
  · exact le_trans (b := y.key) h' h
  · exact le_trans (b := y.key) h h'

theorem Num.pick_nan_left (larger : Bool) (b : Num) : Num.pick larger .nan b = b := by simp [Num.pick, Num.cmp]

theorem Num.pick_nan_right (larger : Bool) (a : Num) : Num.pick larger a .nan = a := by cases a <;> simp [Num.pick, Num.cmp]

theorem Num.pick_key (larger : Bool) {a b : Num} (ha : a ≠ .nan) (hb : b ≠ .nan) :
    Num.pick larger a b = if decide (a.key < b.key) != larger then a else b := by
  obtain ⟨d, hd, hlt⟩ := Num.cmp_key ha hb
  simp only [Num.pick, hd, hlt]

/-- The choice between two is one of them, a NaN only where both are, and no number comes after it. -/
theorem Num.pick_spec (larger : Bool) (a b : Num) : (Num.pick larger a b = a ∨ Num.pick larger a b = b) ∧
    (Num.pick larger a b = .nan → a = .nan ∧ b = .nan) ∧ (a ≠ .nan → a.before larger (Num.pick larger a b)) ∧
    (b ≠ .nan → b.before larger (Num.pick larger a b)) := by
  by_cases ha : a = .nan
  · subst ha
    rw [Num.pick_nan_left]
    exact ⟨.inr rfl, fun h => ⟨rfl, h⟩, fun h => absurd rfl h, fun _ => b.before_refl larger⟩
  by_cases hb : b = .nan
  · subst hb
    rw [Num.pick_nan_right]
    exact ⟨.inl rfl, fun h => ⟨h, rfl⟩, fun _ => a.before_refl larger, fun h => absurd rfl h⟩
  rw [Num.pick_key larger ha hb]
  split
  · next h =>
    refine ⟨.inl rfl, fun h => absurd h ha, fun _ => a.before_refl larger, fun _ => ?_⟩
    cases larger <;> simp_all [Num.before, le_of_lt]
  · next h =>
    refine ⟨.inr rfl, fun h => absurd h hb, fun _ => ?_, fun _ => b.before_refl larger⟩
    cases larger <;> simp_all [Num.before, le_of_lt]

theorem Num.foldl_pick (larger : Bool) (bs : List Num) (a : Num) : bs.foldl (Num.pick larger) a ∈ a :: bs ∧
    (bs.foldl (Num.pick larger) a = .nan → ∀ x ∈ a :: bs, x = .nan) ∧ ∀ x ∈ a :: bs, x ≠ .nan → x.before larger (bs.foldl (Num.pick larger) a) := by
  induction bs generalizing a with
  | nil => simp [Num.before_refl]
  | cons b bs ih =>
    obtain ⟨hmem, hnan, hbefore⟩ := ih (Num.pick larger a b)
    obtain ⟨hone, hpn, hpa, hpb⟩ := Num.pick_spec larger a b
    rw [List.foldl_cons]
    have hpick : ∀ x : Num, x.before larger (Num.pick larger a b) → Num.pick larger a b ≠ .nan →
        x.before larger (bs.foldl (Num.pick larger) (Num.pick larger a b)) := fun x h hn => Num.before_trans h (hbefore _ (.head _) hn)
    refine ⟨?_, fun h x hx => ?_, fun x hx hn => ?_⟩
    · rcases List.mem_cons.1 hmem with e | e
      · rw [e]
        rcases hone with e | e <;> simp [e]
      · exact .tail _ (.tail _ e)
    · have hp := hpn (hnan h _ (.head _))
      rcases List.mem_cons.1 hx with rfl | hx
      · exact hp.1
      rcases List.mem_cons.1 hx with rfl | hx
      · exact hp.2
      · exact hnan h x (.tail _ hx)
    · rcases List.mem_cons.1 hx with rfl | hx
      · exact hpick _ (hpa hn) fun e => hn (hpn e).1
      rcases List.mem_cons.1 hx with rfl | hx
      · exact hpick _ (hpb hn) fun e => hn (hpn e).2
      · exact hbefore x (.tail _ hx) hn

end Sys2Proof

namespace Sys2Proof

/-! ## Encodings of binary32 -/

theorem f32_fields {w : Nat} (hw : w < 2 ^ 32) : ∃ neg E M, E < 2 ^ Fmt.f32.ebits ∧ M < 2 ^ Fmt.f32.fbits ∧
    w = Fmt.f32.signBit neg + (E * 2 ^ Fmt.f32.fbits + M) := by
  refine ⟨decide (2 ^ 31 ≤ w), w / 2 ^ 23 % 2 ^ 8, w % 2 ^ 23, Nat.mod_lt _ (by norm_num), Nat.mod_lt _ (by norm_num), ?_⟩
  have hf : Fmt.f32.fbits = 23 := rfl
  have hs : Fmt.f32.signBit (decide (2 ^ 31 ≤ w)) = (decide (2 ^ 31 ≤ w)).toNat * 2 ^ 31 := rfl
  rw [hf, hs]
  by_cases h : 2 ^ 31 ≤ w
  · simp only [h, decide_true, Bool.toNat_true]
    omega
  · simp only [h, decide_false, Bool.toNat_false]
    omega

theorem log2_of_bounds {m n : Nat} (h0 : 2 ^ n ≤ m) (h1 : m < 2 ^ (n + 1)) : Nat.log2 m = n := by
  have hm : m ≠ 0 := (Nat.two_pow_pos n |>.trans_le h0).ne'
  exact Nat.le_antisymm (Nat.lt_succ_iff.1 ((Nat.log2_lt hm).2 h1)) ((Nat.le_log2 hm).2 h0)

theorem f32_le_maxf {m : Nat} {e : Int} (hm : m < 2 ^ 24) (he : e ≤ 104) : (m : Rat) * 2 ^ e ≤ Fmt.f32.maxf := by
  have h1 : (m : Rat) ≤ 0xFFFFFF := by exact_mod_cast (by omega : m ≤ 0xFFFFFF)
  have h2 : (2 : Rat) ^ e ≤ 2 ^ (104 : Int) := zpow_le_zpow_right₀ one_le_two he
  exact mul_le_mul h1 h2 (by positivity) (by norm_num)

/-- A finite number of the format is its own rounding, and its encoding is what it was decoded from. -/
theorem f32_result_finite (rm : Rm) {neg : Bool} {E M : Nat} (hE : E < 255) (hM : M < 2 ^ 23) :
    Fmt.f32.result rm (if E = 0 then .fin neg M (-149) else .fin neg (2 ^ 23 + M) ((E : Int) - (127 : Nat) - (23 : Nat))) false =
      Fmt.f32.signBit neg + (E * 2 ^ 23 + M) := by
  have hq : ∀ t, Fmt.f32.quantum t = max t (-126) - 24 + 1 := fun _ => rfl
  have hexact : ∀ {m : Nat} {e : Int}, m ≠ 0 → Fmt.f32.quantum (topExp m e) = e → m < 2 ^ 24 → e ≤ 104 →
      Fmt.f32.result rm (.fin neg m e) false = Fmt.f32.encode neg m e := fun {m e} hm he hm24 he104 => by
    have hround : Fmt.f32.round rm neg m e false = (m, e) := by
      refine Prod.ext ?_ he
      have : (Fmt.f32.round rm neg m e false).1 = roundQ rm neg m e false (Fmt.f32.quantum (topExp m e)) := rfl
      rw [this, he, roundQ_of_le le_rfl, sub_self, Int.toNat_zero, pow_zero, mul_one]
    rw [Fmt.result_fin hm, hround, if_neg (by rw [Fmt.over_iff]; exact not_lt.2 (f32_le_maxf hm24 he104))]
  by_cases h0 : E = 0
  · rw [if_pos h0, h0]
    rcases eq_or_ne M 0 with rfl | hM0
    · cases neg <;> rfl
    have ht : topExp M (-149) < -126 := by
      have := (Nat.log2_lt hM0).2 hM
      unfold topExp
      omega
    rw [hexact hM0 (by rw [hq]; omega) (by omega) (by norm_num), Fmt.encode_subnormal hM0 ht]
    show Fmt.f32.signBit neg + (0 * 2 ^ 23 + M * 2 ^ (0 : Nat)) = _
    rw [pow_zero, mul_one]
  · have he : (E : Int) - (127 : Nat) - (23 : Nat) = E - 150 := by
      push_cast
      ring
    rw [if_neg h0, he]
    have hl : Nat.log2 (2 ^ 23 + M) = 23 := log2_of_bounds (by omega) (by omega)
    have ht : topExp (2 ^ 23 + M) ((E : Int) - 150) = E - 127 := by
      rw [topExp, hl]
      push_cast
      ring
    rw [hexact (by omega) (by rw [hq, ht]; omega) (by omega) (by omega), Fmt.encode_normal (by omega) (by rw [ht]; show (-126 : Int) ≤ _; omega), ht, hl]
    show Fmt.f32.signBit neg + (((E : Int) - 127 + (127 : Nat)).toNat * 2 ^ 23 + ((2 ^ 23 + M) * 2 ^ 23 / 2 ^ 23 - 2 ^ 23)) = _
    rw [Nat.mul_div_cancel _ (by norm_num)]
    have : ((E : Int) - 127 + (127 : Nat)).toNat = E := by omega
    omega

/-- What an encoding that is not a NaN decodes to is encoded as it was. -/
theorem f32_result_decode (rm : Rm) {w : Nat} (hw : w < 2 ^ 32) (hn : Fmt.f32.decode w ≠ .nan) :
    Fmt.f32.result rm (Fmt.f32.decode w) false = w := by
  obtain ⟨neg, E, M, hE, hM, rfl⟩ := f32_fields hw
  rw [Fmt.sound_f32.decode_fields hE hM] at hn ⊢
  have hi : Fmt.f32.hasInf = true := rfl
  have hpow : 2 ^ Fmt.f32.ebits = 256 := rfl
  by_cases h : E = 2 ^ Fmt.f32.ebits - 1
  · by_cases hM0 : M = 0
    · simp only [h, hM0, hi, decide_true, Bool.true_or, Bool.and_true, if_true]
      rfl
    · exact absurd (by simp [h, hM0, hi]) hn
  · rw [if_neg (by simp [h])]
    exact f32_result_finite rm (E := E) (by omega) hM

theorem f32_isNeg {w : Nat} (hw : w < 2 ^ 32) (hn : Fmt.f32.decode w ≠ .nan) : (Fmt.f32.decode w).isNeg = true ↔ 2 ^ 31 ≤ w := by
  obtain ⟨neg, E, M, hE, hM, rfl⟩ := f32_fields hw
  have hsign : neg = true ↔ 2 ^ 31 ≤ Fmt.f32.signBit neg + (E * 2 ^ Fmt.f32.fbits + M) := by
    have hf : Fmt.f32.fbits = 23 := rfl
    have he : Fmt.f32.ebits = 8 := rfl
    have hs : Fmt.f32.signBit neg = neg.toNat * 2 ^ 31 := rfl
    rw [hf] at hM ⊢
    rw [he] at hE
    rw [hs]
    cases neg
    · simp
      omega
    · simp
  rw [← hsign]
  rw [Fmt.sound_f32.decode_fields hE hM] at hn ⊢
  revert hn
  split
  · split
    · exact fun _ => Iff.rfl
    · exact fun hn => absurd rfl hn
  · split <;> exact fun _ => Iff.rfl

/-! ## Choices among encodings -/

theorem atMost_iff {x y : Nat} (hx : x < 2 ^ 32) (hy : y < 2 ^ 32) (hxn : Fmt.f32.decode x ≠ .nan) (hyn : Fmt.f32.decode y ≠ .nan) :
    atMost x y ↔ (Fmt.f32.decode x).key ≤ (Fmt.f32.decode y).key := by
  rw [Num.key_le hxn hyn, f32_isNeg hx hxn, f32_isNeg hy hyn]
  simp [atMost, hxn, hyn]

/-- The encoding that the model gives a number of the format. -/
def Num.code (x : Num) : Nat := Fmt.f32.result .rne x false

/-- A number of the format: its encoding stands for it. -/
structure Codable (x : Num) : Prop where
  ne_nan : x ≠ .nan
  lt : x.code < 2 ^ 32
  decode_ne : Fmt.f32.decode x.code ≠ .nan
  key_eq : (Fmt.f32.decode x.code).key = x.key

theorem code_decode {w : Nat} (hw : w < 2 ^ 32) (hn : Fmt.f32.decode w ≠ .nan) : (Fmt.f32.decode w).code = w := f32_result_decode .rne hw hn

theorem codable_decode {w : Nat} (hw : w < 2 ^ 32) (hn : Fmt.f32.decode w ≠ .nan) : Codable (Fmt.f32.decode w) := by
  have := code_decode hw hn
  exact ⟨hn, this.trans_lt hw, by rwa [this], by rw [this]⟩

theorem f32_result_ne_nan (rm : Rm) (s : Bool) (m : Nat) (e : Int) : Fmt.f32.decode (Fmt.f32.result rm (.fin s m e) false) ≠ .nan := by
  rcases Fmt.sound_f32.decode_result_cases (rm := rm) (neg := s) (m := m) (e := e) rfl with h | ⟨m', e', h⟩ <;> simp [h]

theorem f32_result_lt (rm : Rm) (s : Bool) (m : Nat) (e : Int) : Fmt.f32.result rm (.fin s m e) false < 2 ^ 32 :=
  Fmt.sound_f32.result_lt (by simp [Fine])

theorem codable_zero : Codable (.fin false 0 0) := by
  have hd : Fmt.f32.decode (Num.fin false 0 0).code = .fin false 0 (-149) := rfl
  exact ⟨by simp, by decide, by simp [hd], by simp [hd, Num.key, Num.rat_fin, Num.isNeg]⟩

/-- An integer as a number. -/
def ofInteger (n : Int) : Num := .fin (decide (n < 0)) n.natAbs 0

theorem rat_ofInteger (n : Int) : (ofInteger n).rat = n := by
  rw [ofInteger, Num.rat_fin, zpow_zero, mul_one, ← signed_cast, signed_decide_natAbs]

/-- An integer of fewer than 24 bits is a number of the format. -/
theorem codable_integer {n : Int} (hn : n.natAbs < 2 ^ 24) : Codable (ofInteger n) := by
  refine ⟨by simp [ofInteger], f32_result_lt _ _ _ _, f32_result_ne_nan _ _ _ _, ?_⟩
  rcases eq_or_ne n 0 with rfl | h0
  · exact codable_zero.key_eq
  have hm : n.natAbs ≠ 0 := by simpa using h0
  have hqe : Fmt.f32.quantum (topExp n.natAbs 0) ≤ 0 := by
    have := (Nat.log2_lt hm).2 hn
    show max (topExp n.natAbs 0) (-126) - 24 + 1 ≤ 0
    unfold topExp
    omega
  have hround : (Fmt.f32.round .rne (decide (n < 0)) n.natAbs 0 false).1 * (2 : Rat) ^ Fmt.f32.quantum (topExp n.natAbs 0) = n.natAbs * 2 ^ (0 : Int) := by
    have : (Fmt.f32.round .rne (decide (n < 0)) n.natAbs 0 false).1 = roundQ .rne (decide (n < 0)) n.natAbs 0 false (Fmt.f32.quantum (topExp n.natAbs 0)) := rfl
    rw [this, roundQ_of_le hqe, ← exact_quotient hqe, div_mul_cancel₀ _ (by positivity)]
  obtain ⟨m', e', hd, hv⟩ := Fmt.sound_f32.decode_result (rm := .rne) (neg := decide (n < 0)) (stands_exact n.natAbs 0) hm (by simp [Fine])
    (hround.trans_le (f32_le_maxf (by omega) (by norm_num)))
  rw [Num.code, ofInteger, hd]
  simp only [Num.key, Num.rat_fin, Num.isNeg, mul_assoc, hv, hround]

/-- Of two encodings `x` stands before `r` in the direction of the choice. -/
def beforeCode (larger : Bool) (x r : Nat) : Prop := if larger then atMost x r else atMost r x

theorem Codable.beforeCode {x y : Num} (larger : Bool) (h : Codable x) (h' : Codable y) (hb : x.before larger y) : beforeCode larger x.code y.code := by
  cases larger
  · exact (atMost_iff h'.lt h.lt h'.decode_ne h.decode_ne).2 (by rw [h.key_eq, h'.key_eq]; exact hb)
  · exact (atMost_iff h.lt h'.lt h.decode_ne h'.decode_ne).2 (by rw [h.key_eq, h'.key_eq]; exact hb)

theorem pickF32_nan (larger : Bool) {a : Num} {bs : List Num} (h : ∀ x ∈ a :: bs, x = .nan) : pickF32 larger a bs = 0x7FC00000 := by
  rw [pickF32, h _ (Num.foldl_pick larger bs a).1]
  rfl

/-- Among numbers of the format, NaNs apart, the choice is the encoding of one, and none comes after it. -/
theorem pickF32_spec (larger : Bool) {a : Num} {bs : List Num} (hc : ∀ x ∈ a :: bs, x ≠ .nan → Codable x) (h : ∃ x ∈ a :: bs, x ≠ .nan) :
    (∃ x ∈ a :: bs, x ≠ .nan ∧ pickF32 larger a bs = x.code) ∧ ∀ x ∈ a :: bs, x ≠ .nan → beforeCode larger x.code (pickF32 larger a bs) := by
  obtain ⟨hmem, hnan, hbefore⟩ := Num.foldl_pick larger bs a
  obtain ⟨y, hy, hyn⟩ := h
  have hr : bs.foldl (Num.pick larger) a ≠ .nan := fun e => hyn (hnan e y hy)
  exact ⟨⟨_, hmem, hr, rfl⟩, fun x hx hn => (hc x hx hn).beforeCode larger (hc _ hmem hr) (hbefore x hx hn)⟩

end Sys2Proof

/-! # One element of a tile (03 R87, R88; 11 R274, R278, R279) -/

namespace Sys2Proof

open Machine (Tag VReg)

/-! ## Bits of a fragment -/

theorem bitAt_eq_testBit (w i : Nat) : bitAt w i = w.testBit i := by
  rw [bitAt, Nat.testBit_eq_decide_div_mod_eq, Bool.eq_iff_iff]
  simp

theorem testBit_bitsOf (w lo len i : Nat) : (bitsOf w lo len).testBit i = (decide (i < len) && w.testBit (lo + i)) := by
  rw [bitsOf, Nat.testBit_mod_two_pow, Nat.testBit_div_two_pow, add_comm]

/-- The bits of a word give its two's-complement reading. -/
theorem asSigned_eq_ofFnLE {w n : Nat} (hw : w ≠ 0) (f : Fin w → Bool) (h : ∀ b : Fin w, n.testBit b.val = f b) :
    asSigned w n = (BitVec.ofFnLE f).toInt := by
  have hbv : BitVec.ofFnLE f = BitVec.ofNat w n := BitVec.eq_of_getLsbD_eq fun i hi => by
    rw [BitVec.getLsbD_ofFnLE, dif_pos hi, BitVec.getLsbD_ofNat, decide_eq_true hi, Bool.true_and, ← h ⟨i, hi⟩]
  obtain ⟨v, rfl⟩ := Nat.exists_eq_succ_of_ne_zero hw
  rw [hbv, BitVec.toInt_eq_toNat_cond, BitVec.toNat_ofNat, asSigned]
  have : 2 ^ (v + 1) = 2 * 2 ^ v := pow_succ' 2 v
  simp only [Nat.succ_eq_add_one, Nat.add_sub_cancel]
  split <;> split <;> omega

/-- A stored byte under a plane count and a fill bit, bit by bit (11 R279). -/
theorem bfpByte_eq (n p : Nat) (fill : Bool) : bfpByte p fill n =
    (BitVec.ofFnLE fun b : Fin 8 => if 8 - p ≤ b.val then n.testBit b.val else decide (b.val + 1 + p = 8 ∧ fill = true)).toInt := by
  have hbit : ∀ c < 2 ^ (8 - p), ∀ b, (n / 2 ^ (8 - p) * 2 ^ (8 - p) + c).testBit b = if b < 8 - p then c.testBit b else n.testBit b :=
    fun c hc b => by
      rw [mul_comm, Nat.testBit_two_pow_mul_add _ hc]
      split
      · rfl
      · rw [Nat.testBit_div_two_pow]
        congr 1
        omega
  have hp : 8 - min p 8 = 8 - p := by omega
  unfold bfpByte
  simp only [hp]
  refine asSigned_eq_ofFnLE (by decide) _ fun b => ?_
  split
  · next h =>
    rw [Bool.and_eq_true, decide_eq_true_iff] at h
    rw [hbit _ (Nat.pow_lt_pow_right one_lt_two (by omega)), Nat.testBit_two_pow]
    split
    · next hb =>
      rw [if_neg (not_le.2 hb)]
      simp only [h.1, and_true, decide_eq_decide]
      omega
    · next hb => rw [if_pos (not_lt.1 hb)]
  · next h =>
    have hb0 := hbit 0 (by positivity) b.val
    rw [add_zero] at hb0
    rw [hb0]
    split
    · next hb =>
      rw [if_neg (not_le.2 hb), Nat.zero_testBit, eq_comm, decide_eq_false_iff_not]
      rintro ⟨hlt, hf⟩
      exact h (by simp [hf]; omega)
    · next hb => rw [if_pos (not_lt.1 hb)]

section Fragment

variable (gw : Nat) (vs : List VReg) (i : Nat)

theorem fragBits_eq (lo : Nat) : fragBits gw vs i lo =
    ((fragReg vs (gw / 8) i).lanes.getD (8 * (i % (gw / 8)) + lo / 32) 0#32).toNat.testBit (lo % 32) := rfl

theorem fragByte_testBit {k b : Nat} (hb : b < 8) :
    (fragByte (fragReg vs (gw / 8) i) (i % (gw / 8)) k).testBit b = fragBits gw vs i (8 * k + b) := by
  rw [fragByte, testBit_bitsOf, fragBits_eq, decide_eq_true hb, Bool.true_and, show (8 * k + b) / 32 = k / 4 by omega,
    show 8 * (k % 4) + b = (8 * k + b) % 32 by omega]

theorem planesOf_eq (t : Tag) (w : Nat) : planesOf t w = if t.fmt = 6 ∧ t.pln < 8 then min t.pln w else w := by
  simp [planesOf]

theorem readBlock_eq (fillm w : Nat) : readBlock fillm w (fragReg vs (gw / 8) i) (i % (gw / 8)) = (List.range 32).map (fragRead gw fillm w vs i) := by
  refine List.map_congr_left fun k _ => ?_
  rw [bfpByte_eq, fragRead]
  congr 2
  funext b
  simp only [fragByte_testBit gw vs i b.isLt, planesOf_eq]
  congr 1
  simp only [Bool.or_eq_true, Bool.and_eq_true, beq_iff_eq]
  rfl

theorem fragHalf_eq (k : Nat) : fragHalf (fragReg vs (gw / 8) i) (i % (gw / 8)) k = fragInt16 gw vs i k := by
  refine asSigned_eq_ofFnLE (by decide) _ fun b => ?_
  have hb := b.isLt
  rw [testBit_bitsOf, fragBits_eq, decide_eq_true hb, Bool.true_and, show (16 * k + b.val) / 32 = k / 2 by omega,
    show 16 * (k % 2) + b.val = (16 * k + b.val) % 32 by omega]

/-- The lanes of a block side by side. -/
theorem foldl_lanes_testBit (L : Nat → Nat) (hL : ∀ l, L l < 2 ^ 32) (n b : Nat) :
    ((List.range n).foldl (fun a l => a + L l * 2 ^ (32 * l)) 0 < 2 ^ (32 * n)) ∧
      ((List.range n).foldl (fun a l => a + L l * 2 ^ (32 * l)) 0).testBit b = (decide (b < 32 * n) && (L (b / 32)).testBit (b % 32)) := by
  induction n with
  | zero => simp
  | succ n ih =>
    obtain ⟨hlt, hbit⟩ := ih
    rw [List.range_succ, List.foldl_append, List.foldl_cons, List.foldl_nil, add_comm, mul_comm]
    constructor
    · have hmul : 2 ^ (32 * n) * (L n + 1) ≤ 2 ^ (32 * n) * 2 ^ 32 := Nat.mul_le_mul_left _ (hL n)
      rw [show 32 * (n + 1) = 32 * n + 32 by ring, pow_add]
      rw [mul_add, mul_one] at hmul
      omega
    · rw [Nat.testBit_two_pow_mul_add _ hlt]
      split
      · next h => rw [hbit, decide_eq_true h, decide_eq_true (by omega)]
      · next h =>
        by_cases hb : b < 32 * (n + 1)
        · rw [decide_eq_true hb, Bool.true_and, show b / 32 = n by omega, show b % 32 = b - 32 * n by omega]
        · rw [decide_eq_false hb, Bool.false_and]
          exact Nat.testBit_lt_two_pow ((hL n).trans_le (Nat.pow_le_pow_right two_pos (by omega)))

theorem fragCode_testBit (b : Nat) :
    (fragCode (fragReg vs (gw / 8) i) (i % (gw / 8))).testBit b = (decide (b < 256) && fragBits gw vs i b) :=
  (foldl_lanes_testBit (fun l => ((fragReg vs (gw / 8) i).lanes.getD (8 * (i % (gw / 8)) + l) 0#32).toNat) (fun _ => BitVec.isLt _) 8 b).2

end Fragment

theorem popc256_eq (n : Nat) : popc256 n = (List.range 256).countP fun b => n.testBit b := by
  have hfold : ∀ (l : List Nat) (a : Nat), l.foldl (fun c i => c + (bitAt n i).toNat) a = a + l.countP fun b => n.testBit b := by
    intro l
    induction l with
    | nil => simp
    | cons x xs ih =>
      intro a
      rw [List.foldl_cons, ih, List.countP_cons, bitAt_eq_testBit]
      cases n.testBit x
      · simp
      · simp
        ring
  have := hfold (List.range 256) 0
  rwa [zero_add] at this

end Sys2Proof

namespace Sys2Proof

open Machine (Tag VReg)

/-! ## The rows that an element is computed from -/

section Rows

variable (gw fillm w : Nat) (vs : List VReg) (i : Nat)

theorem tileRow_bytes : (tileRow fillm w vs (gw / 8) i).bytes = (List.range 32).map (fragRead gw fillm w vs i) := readBlock_eq gw vs i fillm w

theorem tileRow_halves : (tileRow fillm w vs (gw / 8) i).halves = (List.range 16).map (fragInt16 gw vs i) :=
  List.map_congr_left fun k _ => fragHalf_eq gw vs i k

theorem tileRow_code_testBit (b : Nat) : (tileRow fillm w vs (gw / 8) i).code.testBit b = (decide (b < 256) && fragBits gw vs i b) :=
  fragCode_testBit gw vs i b

end Rows

/-! ## Added and chosen results -/

/-- What an element becomes when `y` is added to it and the sum is rounded once. -/
def Added (acc w : Nat) (y : Rat) : Prop :=
  (Fmt.f32.decode acc = .nan → w = 0x7FC00000) ∧ (∀ s, Fmt.f32.decode acc = .inf s → w = acc) ∧
    ∀ s m e, Fmt.f32.decode acc = .fin s m e → RoundedTo w ((Fmt.f32.decode acc).rat + y)

theorem rat_eq_zero {s : Bool} {m : Nat} {e : Int} : (Num.fin s m e).rat = 0 ↔ m = 0 := by
  have : (2 : Rat) ^ e ≠ 0 := by positivity
  cases s <;> simp [Num.rat_fin, this]

/-- Two numbers of one sign sum to 0 where both are 0. -/
theorem rat_add_eq_zero {s : Bool} {m n : Nat} {e g : Int} (h : (Num.fin s m e).rat + (Num.fin s n g).rat = 0) : (Num.fin s n g).rat = 0 := by
  have h1 : (0 : Rat) ≤ m * 2 ^ e := by positivity
  have h2 : (0 : Rat) ≤ n * 2 ^ g := by positivity
  rw [Num.rat_fin, Num.rat_fin, mul_assoc, mul_assoc] at h
  rw [Num.rat_fin, mul_assoc]
  cases s <;> simp only [sgn, if_true, if_false, Bool.false_eq_true] at * <;> linarith

theorem added_result {acc : Nat} (hacc : acc < 2 ^ 32) {u : Bool} {k : Nat} {h : Int} (hu : (Num.fin u k h).rat = 0 → u = false) :
    Added acc (Fmt.f32.result .rne (Num.add .rne (Fmt.f32.decode acc) (.fin u k h)) false) (Num.fin u k h).rat := by
  refine ⟨fun ha => by rw [ha]; rfl, fun s ha => ?_, fun s m e ha => ?_⟩
  · have := code_decode hacc (by rw [ha]; simp)
    rw [ha] at this ⊢
    exact this
  · rw [ha]
    obtain ⟨u', k', h', hadd, hrat, hsign⟩ := Num.add_fin .rne s u m k e h
    refine ⟨u', k', h', hrat, fun h0 => ?_, by rw [hadd]⟩
    rw [hsign (rat_eq_zero.1 (hrat.trans h0))]
    split
    · next hs =>
      subst hs
      exact hu (rat_add_eq_zero h0)
    · rfl

/-- An exact value rounded once. -/
theorem roundedTo_result {u : Bool} {k : Nat} {h : Int} (hu : (Num.fin u k h).rat = 0 → u = false) :
    RoundedTo (Fmt.f32.result .rne (.fin u k h) false) (Num.fin u k h).rat := ⟨u, k, h, rfl, hu, rfl⟩

/-- The choice between the old element and finitely many numbers of the format. -/
theorem pickF32_old (larger : Bool) {acc : Nat} (hacc : acc < 2 ^ 32) (n : Nat) (x : Nat → Num) (hn : n ≠ 0) (hx : ∀ k < n, Codable (x k)) :
    (Fmt.f32.decode acc ≠ .nan → beforeCode larger acc (pickF32 larger (Fmt.f32.decode acc) ((List.range n).map x))) ∧
    (∀ k < n, beforeCode larger (x k).code (pickF32 larger (Fmt.f32.decode acc) ((List.range n).map x))) ∧
    ((Fmt.f32.decode acc ≠ .nan ∧ pickF32 larger (Fmt.f32.decode acc) ((List.range n).map x) = acc) ∨
      ∃ k < n, pickF32 larger (Fmt.f32.decode acc) ((List.range n).map x) = (x k).code) := by
  have hmem : ∀ k < n, x k ∈ Fmt.f32.decode acc :: (List.range n).map x := fun k hk =>
    .tail _ (List.mem_map.2 ⟨k, List.mem_range.2 hk, rfl⟩)
  have hc : ∀ z ∈ Fmt.f32.decode acc :: (List.range n).map x, z ≠ .nan → Codable z := fun z hz hzn => by
    rcases List.mem_cons.1 hz with rfl | hz
    · exact codable_decode hacc hzn
    · obtain ⟨k, hk, rfl⟩ := List.mem_map.1 hz
      exact hx k (List.mem_range.1 hk)
  have h0 := Nat.pos_of_ne_zero hn
  obtain ⟨⟨z, hz, hzn, heq⟩, hbefore⟩ := pickF32_spec larger hc ⟨x 0, hmem 0 h0, (hx 0 h0).ne_nan⟩
  refine ⟨fun ha => ?_, fun k hk => hbefore _ (hmem k hk) (hx k hk).ne_nan, ?_⟩
  · have := hbefore _ (.head _) ha
    rwa [code_decode hacc ha] at this
  · rcases List.mem_cons.1 hz with rfl | hz
    · exact .inl ⟨hzn, heq.trans (code_decode hacc hzn)⟩
    · obtain ⟨k, hk, rfl⟩ := List.mem_map.1 hz
      exact .inr ⟨k, List.mem_range.1 hk, heq⟩

/-! ## The semirings -/

section Semirings

variable (gw fa fb wa wb i j acc : Nat) (A B : List VReg) (soff : Int)

theorem foldl_zip_products (l : List Nat) (f g : Nat → Int) (a : Int) :
    ((l.map f).zip (l.map g)).foldl (fun n x => n + x.1 * x.2) a = a + (l.map fun k => f k * g k).sum := by
  induction l generalizing a with
  | nil => simp
  | cons x xs ih => rw [List.map_cons, List.map_cons, List.zip_cons_cons, List.foldl_cons, ih, List.map_cons, List.sum_cons, add_assoc]

/-- `.pt`: a block exponent of 255 gives the canonical NaN (03 R87). -/
theorem mmaElem_nan {a b : TileRow} (h : a.exp = 255 ∨ b.exp = 255) : mmaElem 0 soff a b acc = 0x7FC00000 ∧ mmaElem 4 soff a b acc = 0x7FC00000 := by
  have hb : (a.exp == 255 || b.exp == 255) = true := by simpa using h
  exact ⟨if_pos hb, if_pos hb⟩

theorem rat_scaled (P e : Int) : (Num.fin (decide (P < 0)) P.natAbs e).rat = P * 2 ^ e := by
  rw [Num.rat_fin, ← signed_cast, signed_decide_natAbs]

theorem scaled_sign {P e : Int} (h : (Num.fin (decide (P < 0)) P.natAbs e).rat = 0) : decide (P < 0) = false := by
  have := Int.natAbs_eq_zero.1 (rat_eq_zero.1 h)
  simp [this]

theorem mmaElem_pt_eq {a b : TileRow} {P : Int} (hP : (a.bytes.zip b.bytes).foldl (fun n x => n + x.1 * x.2) 0 = P) (ha : a.exp ≠ 255)
    (hb : b.exp ≠ 255) : mmaElem 0 soff a b acc = if a.exp == 0 || b.exp == 0 || P == 0 then acc
      else Fmt.f32.result .rne (Num.add .rne (Fmt.f32.decode acc) (.fin (decide (P < 0)) P.natAbs ((a.exp : Int) + b.exp - 268 + soff))) false := by
  subst hP
  exact if_neg (by simp [ha, hb])

theorem mmaElem_pt {a b : TileRow} (hacc : acc < 2 ^ 32) {P : Int} (hP : (a.bytes.zip b.bytes).foldl (fun n x => n + x.1 * x.2) 0 = P)
    (ha : a.exp ≠ 255) (hb : b.exp ≠ 255) : (a.exp = 0 ∨ b.exp = 0 ∨ P = 0 → mmaElem 0 soff a b acc = acc) ∧
      (a.exp ≠ 0 → b.exp ≠ 0 → P ≠ 0 → Added acc (mmaElem 0 soff a b acc) (P * (2 : Rat) ^ ((a.exp : Int) + b.exp - 268 + soff))) := by
  rw [mmaElem_pt_eq acc soff hP ha hb]
  constructor
  · exact fun h => if_pos (by simpa [or_assoc] using h)
  · intro ha0 hb0 hP0
    rw [if_neg (by simp [ha0, hb0, hP0]), ← rat_scaled]
    exact added_result hacc scaled_sign

theorem mmaElem_px {a b : TileRow} (hacc : acc < 2 ^ 32) : Added acc (mmaElem 1 soff a b acc) ((popc256 (a.code ^^^ b.code) : Nat) : Rat) := by
  have : mmaElem 1 soff a b acc = Fmt.f32.result .rne (Num.add .rne (Fmt.f32.decode acc) (.fin false (popc256 (a.code ^^^ b.code)) 0)) false := rfl
  rw [this]
  have hrat : (Num.fin false (popc256 (a.code ^^^ b.code)) 0).rat = (popc256 (a.code ^^^ b.code) : Nat) := by simp [Num.rat_fin]
  rw [← hrat]
  exact added_result hacc fun _ => rfl

theorem popc256_tileRows : popc256 ((tileRow fa wa A (gw / 8) i).code ^^^ (tileRow fb wb B (gw / 8) j).code) =
    (List.range 256).countP fun b => fragBits gw A i b != fragBits gw B j b := by
  rw [popc256_eq]
  refine List.countP_congr fun b hb => ?_
  rw [Nat.testBit_xor, tileRow_code_testBit, tileRow_code_testBit, decide_eq_true (List.mem_range.1 hb), Bool.true_and, Bool.true_and]

theorem mmaElem_oa {a b : TileRow} : mmaElem 2 soff a b acc = if a.code &&& b.code = 0 then acc else 0x3F800000 := by
  simp [mmaElem]

theorem codes_disjoint : (tileRow fa wa A (gw / 8) i).code &&& (tileRow fb wb B (gw / 8) j).code = 0 ↔
    ∀ b < 256, fragBits gw A i b = true → fragBits gw B j b = false := by
  have hbit : ∀ b, ((tileRow fa wa A (gw / 8) i).code &&& (tileRow fb wb B (gw / 8) j).code).testBit b =
      (decide (b < 256) && (fragBits gw A i b && fragBits gw B j b)) := fun b => by
    rw [Nat.testBit_and, tileRow_code_testBit, tileRow_code_testBit]
    cases decide (b < 256) <;> rfl
  constructor
  · intro h b hb ha
    have := hbit b
    rw [h, Nat.zero_testBit, decide_eq_true hb, ha] at this
    simpa using this.symm
  · intro h
    refine Nat.eq_of_testBit_eq fun b => ?_
    rw [hbit, Nat.zero_testBit]
    by_cases hb : b < 256
    · cases ha : fragBits gw A i b with
      | false => simp
      | true => simp [h b hb ha]
    · simp [hb]

/-- The saturated sum of two halves (03 R88). -/
def halfSum (k : Nat) : Int := max (-32768) (min 32767 (fragInt16 gw A i k + fragInt16 gw B j k))

theorem clampTo_eq (x : Int) : clampTo (-32768) 32767 x = max (-32768) (min 32767 x) := by
  unfold clampTo
  split
  · omega
  · split <;> omega

theorem mmaElem_mp : mmaElem 3 soff (tileRow fa wa A (gw / 8) i) (tileRow fb wb B (gw / 8) j) acc =
    pickF32 false (Fmt.f32.decode acc) ((List.range 16).map fun k => ofInteger (halfSum gw i j A B k)) := by
  have hks : (((tileRow fa wa A (gw / 8) i).halves.zip (tileRow fb wb B (gw / 8) j).halves).map fun x => clampTo (-32768) 32767 (x.1 + x.2)) =
      (List.range 16).map (halfSum gw i j A B) := by
    rw [tileRow_halves, tileRow_halves, List.zip_map', List.map_map]
    exact List.map_congr_left fun k _ => clampTo_eq _
  have : mmaElem 3 soff (tileRow fa wa A (gw / 8) i) (tileRow fb wb B (gw / 8) j) acc = pickF32 false (Fmt.f32.decode acc)
      ((((tileRow fa wa A (gw / 8) i).halves.zip (tileRow fb wb B (gw / 8) j).halves).map fun x => clampTo (-32768) 32767 (x.1 + x.2)).map ofInteger) := rfl
  rw [this, hks, List.map_map]
  rfl

/-- One product of `.mt`, rounded (03 R88). -/
def mtProduct (ea eb : Nat) (soff p : Int) : Num :=
  if ea == 0 || eb == 0 || p == 0 then .fin false 0 0
  else Fmt.f32.decode (Fmt.f32.result .rne (.fin (decide (p < 0)) p.natAbs ((ea : Int) + eb - 268 + soff)) false)

theorem codable_mtProduct (ea eb : Nat) (soff p : Int) : Codable (mtProduct ea eb soff p) := by
  unfold mtProduct
  split
  · exact codable_zero
  · exact codable_decode (f32_result_lt _ _ _ _) (f32_result_ne_nan _ _ _ _)

theorem code_mtProduct (ea eb : Nat) (soff p : Int) : (ea = 0 ∨ eb = 0 ∨ p = 0 → (mtProduct ea eb soff p).code = 0) ∧
    (ea ≠ 0 → eb ≠ 0 → p ≠ 0 → RoundedTo (mtProduct ea eb soff p).code (p * (2 : Rat) ^ ((ea : Int) + eb - 268 + soff))) := by
  constructor
  · intro h
    have : mtProduct ea eb soff p = .fin false 0 0 := if_pos (by simpa [or_assoc] using h)
    rw [this]
    rfl
  · intro ha hb hp
    have : mtProduct ea eb soff p = _ := if_neg (by simp [ha, hb, hp])
    rw [this, code_decode (f32_result_lt _ _ _ _) (f32_result_ne_nan _ _ _ _), ← rat_scaled]
    exact roundedTo_result scaled_sign

theorem mmaElem_mt {a b : TileRow} (ha : a.exp ≠ 255) (hb : b.exp ≠ 255) : mmaElem 4 soff a b acc =
    pickF32 true (Fmt.f32.decode acc) ((a.bytes.zip b.bytes).map fun x => mtProduct a.exp b.exp soff (x.1 * x.2)) :=
  if_neg (by simp [ha, hb])

theorem mmaElem_mt_rows (ha : (tileRow fa wa A (gw / 8) i).exp ≠ 255) (hb : (tileRow fb wb B (gw / 8) j).exp ≠ 255) :
    mmaElem 4 soff (tileRow fa wa A (gw / 8) i) (tileRow fb wb B (gw / 8) j) acc = pickF32 true (Fmt.f32.decode acc) ((List.range 32).map fun k =>
      mtProduct (tileRow fa wa A (gw / 8) i).exp (tileRow fb wb B (gw / 8) j).exp soff (fragRead gw fa wa A i k * fragRead gw fb wb B j k)) := by
  rw [mmaElem_mt acc soff ha hb, tileRow_bytes, tileRow_bytes, List.zip_map', List.map_map]
  rfl

end Semirings

end Sys2Proof

namespace Sys2Proof

open Machine (Tag VReg)

/-! ## Fields of the descriptor -/

theorem descSoff_eq (d : Lane32) : descSoff d.toNat = (d.extractLsb' 16 8).toInt := by
  rw [BitVec.toInt_eq_toNat_cond, BitVec.extractLsb'_toNat, Nat.shiftRight_eq_div_pow, descSoff, asSigned, bitsOf, Nat.mod_mod]
  split <;> split <;> omega

theorem descMwa_eq (d : Nat) : descMwa d = d % 16 := by simp [descMwa, bitsOf]

/-! ## Elements under the fragments of a tile operation -/

section Rows

variable (gw fa fb wa wb i j : Nat) {acc : Nat} (A B : List VReg) (soff : Int)

/-- The product of bytes `k` of a row and a column (03 R87). -/
def byteProduct (k : Nat) : Int := fragRead gw fa wa A i k * fragRead gw fb wb B j k

theorem mmaElem_pt_rows (hacc : acc < 2 ^ 32) (ha : (tileRow fa wa A (gw / 8) i).exp ≠ 255) (hb : (tileRow fb wb B (gw / 8) j).exp ≠ 255) :
    let P := ((List.range 32).map (byteProduct gw fa fb wa wb i j A B)).sum
    let ea := (tileRow fa wa A (gw / 8) i).exp
    let eb := (tileRow fb wb B (gw / 8) j).exp
    let el := mmaElem 0 soff (tileRow fa wa A (gw / 8) i) (tileRow fb wb B (gw / 8) j) acc
    (ea = 0 ∨ eb = 0 ∨ P = 0 → el = acc) ∧ (ea ≠ 0 → eb ≠ 0 → P ≠ 0 → Added acc el (P * (2 : Rat) ^ ((ea : Int) + eb - 268 + soff))) := by
  refine mmaElem_pt acc soff hacc ?_ ha hb
  rw [tileRow_bytes, tileRow_bytes, foldl_zip_products, zero_add]
  rfl

/-- `.mt`: the largest of the old element and the rounded products (03 R88). -/
theorem mmaElem_mt_largest (hacc : acc < 2 ^ 32) (ha : (tileRow fa wa A (gw / 8) i).exp ≠ 255) (hb : (tileRow fb wb B (gw / 8) j).exp ≠ 255) :
    let N := fun k => (mtProduct (tileRow fa wa A (gw / 8) i).exp (tileRow fb wb B (gw / 8) j).exp soff (byteProduct gw fa fb wa wb i j A B k)).code
    let el := mmaElem 4 soff (tileRow fa wa A (gw / 8) i) (tileRow fb wb B (gw / 8) j) acc
    (Fmt.f32.decode acc ≠ .nan → atMost acc el) ∧ (∀ k < 32, atMost (N k) el) ∧
      ((Fmt.f32.decode acc ≠ .nan ∧ el = acc) ∨ ∃ k < 32, el = N k) := by
  intro N el
  have hel : el = pickF32 true (Fmt.f32.decode acc) _ := mmaElem_mt_rows gw fa fb wa wb i j acc A B soff ha hb
  rw [hel]
  exact pickF32_old true hacc 32 _ (by decide) fun k _ => codable_mtProduct _ _ _ _

theorem halfSum_rounded (k : Nat) : RoundedTo (ofInteger (halfSum gw i j A B k)).code (halfSum gw i j A B k) := by
  have h := roundedTo_result (u := decide (halfSum gw i j A B k < 0)) (k := (halfSum gw i j A B k).natAbs) (h := 0) scaled_sign
  have hrat : (Num.fin (decide (halfSum gw i j A B k < 0)) (halfSum gw i j A B k).natAbs 0).rat = halfSum gw i j A B k := rat_ofInteger _
  rwa [hrat] at h

/-- `.mp`: the least of the old element and the saturated sums (03 R88). -/
theorem mmaElem_mp_least (hacc : acc < 2 ^ 32) :
    let N := fun k => (ofInteger (halfSum gw i j A B k)).code
    let el := mmaElem 3 soff (tileRow fa wa A (gw / 8) i) (tileRow fb wb B (gw / 8) j) acc
    (Fmt.f32.decode acc ≠ .nan → atMost el acc) ∧ (∀ k < 16, atMost el (N k)) ∧
      ((Fmt.f32.decode acc ≠ .nan ∧ el = acc) ∨ ∃ k < 16, el = N k) := by
  intro N el
  have hel : el = pickF32 false (Fmt.f32.decode acc) _ := mmaElem_mp gw fa fb wa wb i j acc A B soff
  rw [hel]
  exact pickF32_old false hacc 16 _ (by decide) fun k _ => codable_integer (by unfold halfSum; omega)

end Rows

end Sys2Proof

namespace Sys2Proof

open Machine

/-! # Reads and scalings of a tile, and the exponential unit (03 R90-R92; 11 R284-R286) -/

/-! ## Scaling, maxima and register writes -/

theorem sclElem_rounded {x f g : Nat} {s s' s2 : Bool} {m m' m2 : Nat} {e e' e2 : Int} (hx : Fmt.f32.decode x = .fin s m e)
    (hf : Fmt.f32.decode f = .fin s' m' e') (hg : Fmt.f32.decode g = .fin s2 m2 e2)
    (h0 : (Num.fin s m e).rat * (Num.fin s' m' e').rat + (Num.fin s2 m2 e2).rat ≠ 0) :
    RoundedTo (sclElem x f g) ((Num.fin s m e).rat * (Num.fin s' m' e').rat + (Num.fin s2 m2 e2).rat) := by
  obtain ⟨u, k, h, hadd, hrat, -⟩ := Num.add_fin .rne (s != s') s2 (m * m') m2 (e + e') e2
  rw [Num.rat_mul_fin] at hrat
  exact ⟨u, k, h, hrat, fun hz => absurd hz h0, by rw [sclElem, hx, hf, hg, Num.mul_fin, hadd]⟩

theorem tileAt_lt (t : List Lane32) (i j : Nat) : tileAt t i j < 2 ^ 32 := BitVec.isLt _

theorem tileMax_getD (col : Bool) (t : List Lane32) {i : Nat} (hi : i < 64) : (tileMax col t).getD i 0 =
    pickF32 true .nan ((List.range 64).map fun j => Fmt.f32.decode (if col then tileAt t j i else tileAt t i j)) := by
  simp [tileMax, List.getD_eq_getElem?_getD, hi]

/-- The choice among encodings, of which some may be NaN. -/
theorem pickF32_codes (larger : Bool) (n : Nat) (e : Nat → Nat) (he : ∀ j, e j < 2 ^ 32) :
    ((∀ j < n, Fmt.f32.decode (e j) = .nan) → pickF32 larger .nan ((List.range n).map fun j => Fmt.f32.decode (e j)) = 0x7FC00000) ∧
    ((∃ j < n, Fmt.f32.decode (e j) ≠ .nan) → (∃ j < n, pickF32 larger .nan ((List.range n).map fun j => Fmt.f32.decode (e j)) = e j) ∧
      ∀ j < n, Fmt.f32.decode (e j) ≠ .nan → beforeCode larger (e j) (pickF32 larger .nan ((List.range n).map fun j => Fmt.f32.decode (e j)))) := by
  have hof : ∀ z ∈ Num.nan :: (List.range n).map (fun j => Fmt.f32.decode (e j)), z ≠ .nan → ∃ j < n, z = Fmt.f32.decode (e j) := fun z hz hzn => by
    rcases List.mem_cons.1 hz with rfl | hz
    · exact absurd rfl hzn
    · obtain ⟨j, hj, rfl⟩ := List.mem_map.1 hz
      exact ⟨j, List.mem_range.1 hj, rfl⟩
  have hmem : ∀ j < n, Fmt.f32.decode (e j) ∈ Num.nan :: (List.range n).map (fun j => Fmt.f32.decode (e j)) := fun j hj =>
    .tail _ (List.mem_map.2 ⟨j, List.mem_range.2 hj, rfl⟩)
  constructor
  · intro h
    refine pickF32_nan larger fun z hz => ?_
    by_contra hzn
    obtain ⟨j, hj, rfl⟩ := hof z hz hzn
    exact hzn (h j hj)
  · rintro ⟨j, hj, hjn⟩
    obtain ⟨⟨z, hz, hzn, heq⟩, hbefore⟩ := pickF32_spec larger (fun z hz hzn => by
      obtain ⟨j, -, rfl⟩ := hof z hz hzn
      exact codable_decode (he j) hzn) ⟨_, hmem j hj, hjn⟩
    obtain ⟨j', hj', rfl⟩ := hof z hz hzn
    refine ⟨⟨j', hj', heq.trans (code_decode (he j') hzn)⟩, fun j hj hjn => ?_⟩
    have := hbefore _ (hmem j hj) hjn
    rwa [code_decode (he j) hjn] at this

theorem v_not_mem_plainTag {r l d fmt : Nat} {y : Lane32} {act : List Nat} : RegWrite.v r l y ∉ plainTag d fmt act := by
  simp [plainTag]

theorem mem_rdWrites (gw row0 nr d : Nat) (act frag : List Nat) (elem : Nat → Nat → Lane32) (r l : Nat) (y : Lane32) :
    .v r l y ∈ rdWrites gw row0 nr d act frag elem ↔
      ∃ q < nr * 64 / gw, r = d + q ∧ l ∈ act ∧ y = elem ((row0 + (gw * q + l) / 64) % 64) ((gw * q + l) % 64) := by
  simp only [rdWrites, List.mem_flatMap, List.mem_range, List.mem_append, v_not_mem_plainTag, or_false, List.mem_map, RegWrite.v.injEq]
  constructor
  · rintro ⟨q, hq, l', hl', rfl, rfl, rfl⟩
    exact ⟨q, hq, rfl, hl', rfl⟩
  · rintro ⟨q, hq, rfl, hl, rfl⟩
    exact ⟨q, hq, l, hl, rfl, rfl, rfl⟩

/-- The value that `acc.max` writes for a maximum `m` over an old element `o` (11 R285). -/
theorem pickF32_pair {m o : Nat} (hm : m < 2 ^ 32) (ho : o < 2 ^ 32) :
    pickF32 true (Fmt.f32.decode m) [Fmt.f32.decode o] < 2 ^ 32 ∧
    (Fmt.f32.decode m ≠ .nan → Fmt.f32.decode o ≠ .nan → atMost m (pickF32 true (Fmt.f32.decode m) [Fmt.f32.decode o]) ∧
      atMost o (pickF32 true (Fmt.f32.decode m) [Fmt.f32.decode o]) ∧
      (pickF32 true (Fmt.f32.decode m) [Fmt.f32.decode o] = m ∨ pickF32 true (Fmt.f32.decode m) [Fmt.f32.decode o] = o)) ∧
    (Fmt.f32.decode m = .nan → Fmt.f32.decode o ≠ .nan → pickF32 true (Fmt.f32.decode m) [Fmt.f32.decode o] = o) ∧
    (Fmt.f32.decode m ≠ .nan → Fmt.f32.decode o = .nan → pickF32 true (Fmt.f32.decode m) [Fmt.f32.decode o] = m) := by
  have hpick : pickF32 true (Fmt.f32.decode m) [Fmt.f32.decode o] = (Num.pick true (Fmt.f32.decode m) (Fmt.f32.decode o)).code := rfl
  rw [hpick]
  by_cases hmn : Fmt.f32.decode m = .nan
  · rw [hmn, Num.pick_nan_left]
    by_cases hon : Fmt.f32.decode o = .nan
    · rw [hon]
      exact ⟨by decide, fun h => absurd rfl h, fun _ h => absurd rfl h, fun h => absurd rfl h⟩
    · rw [code_decode ho hon]
      exact ⟨ho, fun h => absurd rfl h, fun _ _ => rfl, fun h => absurd rfl h⟩
  by_cases hon : Fmt.f32.decode o = .nan
  · rw [hon, Num.pick_nan_right, code_decode hm hmn]
    exact ⟨hm, fun _ h => absurd rfl h, fun h => absurd h hmn, fun _ _ => rfl⟩
  obtain ⟨hone, -, hbm, hbo⟩ := Num.pick_spec true (Fmt.f32.decode m) (Fmt.f32.decode o)
  have hcm := codable_decode hm hmn
  have hco := codable_decode ho hon
  have hcp : Codable (Num.pick true (Fmt.f32.decode m) (Fmt.f32.decode o)) := by rcases hone with e | e <;> rwa [e]
  have h1 := hcm.beforeCode true hcp (hbm hmn)
  have h2 := hco.beforeCode true hcp (hbo hon)
  rw [code_decode hm hmn] at h1
  rw [code_decode ho hon] at h2
  refine ⟨hcp.lt, fun _ _ => ⟨h1, h2, ?_⟩, fun h => absurd h hmn, fun _ h => absurd h hon⟩
  rcases hone with e | e
  · exact .inl (by rw [e, code_decode hm hmn])
  · exact .inr (by rw [e, code_decode ho hon])

theorem mem_maxWrites (gw d : Nat) (old : List VReg) (mrg : Bool) (act frag ms : List Nat) {q l : Nat} (hq : q < 64 / gw) (hl : l ∈ act) :
    .v (d + q) l (BitVec.ofNat 32 (if mrg then pickF32 true (Fmt.f32.decode (ms.getD (gw * q + l) 0))
      [Fmt.f32.decode ((old.getD q ⟨[], ⟨0#64, 0#16⟩⟩).lanes.getD l 0#32).toNat] else ms.getD (gw * q + l) 0)) ∈ maxWrites gw d old mrg act frag ms :=
  List.mem_flatMap.2 ⟨q, List.mem_range.2 hq, List.mem_append_left _ (List.mem_map.2 ⟨l, hl, rfl⟩)⟩

theorem getD_lt {ms : List Nat} (h : ∀ m ∈ ms, m < 2 ^ 32) (i : Nat) : ms.getD i 0 < 2 ^ 32 := by
  rw [List.getD_eq_getElem?_getD]
  cases hi : ms[i]? with
  | none => simp
  | some m => exact h m (List.mem_of_getElem? hi)

theorem toNat_ofNat_lt {n : Nat} (h : n < 2 ^ 32) : (BitVec.ofNat 32 n).toNat = n := by rw [BitVec.toNat_ofNat, Nat.mod_eq_of_lt h]

/-! ## The table of the exponential unit -/

/-- The 64th root of 2, scaled by 2^80 and rounded down. -/
def exuRoot : Nat := 1222090158679699302578122

/-- The entries of row `s` against the powers of the root from below and from above, doubled. -/
def RowClose (s : Nat) : Prop :=
  ((2 * (exuRow s).1 - 1) * (2 ^ 80) ^ s ≤ 2 ^ 17 * exuRoot ^ s ∧ 2 ^ 17 * (exuRoot + 1) ^ s ≤ (2 * (exuRow s).1 + 1) * (2 ^ 80) ^ s) ∧
  (2 * (exuRow s).2 - 1) * (2 ^ 80) ^ (s + 1) ≤ 2 ^ 17 * (exuRoot ^ s * (exuRoot - 2 ^ 80)) ∧
    2 ^ 17 * ((exuRoot + 1) ^ s * (exuRoot + 1 - 2 ^ 80)) ≤ (2 * (exuRow s).2 + 1) * (2 ^ 80) ^ (s + 1)

theorem exuRoot_brackets : exuRoot ^ 64 ≤ 2 * (2 ^ 80) ^ 64 ∧ 2 * (2 ^ 80) ^ 64 < (exuRoot + 1) ^ 64 := by
  unfold exuRoot
  norm_num

theorem rows_close : ∀ s < 64, RowClose s := by
  unfold RowClose
  decide

end Sys2Proof

namespace Sys2Proof

/-- The 64th root of 2. -/
noncomputable def root64 : ℝ := (2 : ℝ) ^ ((1 : ℝ) / 64)

theorem root64_pow (s : Nat) : root64 ^ s = (2 : ℝ) ^ ((s : ℝ) / 64) := by
  rw [root64, ← Real.rpow_natCast, ← Real.rpow_mul two_pos.le]
  congr 1
  ring

theorem root64_brackets : (exuRoot : ℝ) / 2 ^ 80 ≤ root64 ∧ root64 ≤ ((exuRoot : ℝ) + 1) / 2 ^ 80 := by
  obtain ⟨h0, h1⟩ := exuRoot_brackets
  have hr : root64 ^ 64 = 2 := by rw [root64_pow]; norm_num
  have hpos : 0 ≤ root64 := Real.rpow_nonneg two_pos.le _
  constructor
  · rw [← pow_le_pow_iff_left₀ (by positivity) hpos (by norm_num : (64 : Nat) ≠ 0), hr, div_pow, div_le_iff₀ (by positivity)]
    exact_mod_cast h0
  · rw [← pow_le_pow_iff_left₀ hpos (by positivity) (by norm_num : (64 : Nat) ≠ 0), hr, div_pow, le_div_iff₀ (by positivity)]
    exact_mod_cast h1.le

theorem root64_pow_brackets (s : Nat) : (exuRoot : ℝ) ^ s / (2 ^ 80) ^ s ≤ root64 ^ s ∧ root64 ^ s ≤ ((exuRoot : ℝ) + 1) ^ s / (2 ^ 80) ^ s := by
  obtain ⟨h0, h1⟩ := root64_brackets
  rw [← div_pow, ← div_pow]
  exact ⟨pow_le_pow_left₀ (by positivity) h0 s, pow_le_pow_left₀ (Real.rpow_nonneg two_pos.le _) h1 s⟩

/-- An entry lies within one half of a value that bracketed values are within one half of. -/
theorem abs_sub_le_half {c n0 n1 D : Nat} {y : ℝ} (hD : 0 < D) (h0 : (n0 : ℝ) / D ≤ y) (h1 : y ≤ (n1 : ℝ) / D)
    (k0 : (2 * c - 1) * D ≤ 2 ^ 17 * n0) (k1 : 2 ^ 17 * n1 ≤ (2 * c + 1) * D) : |(c : ℝ) - y * 2 ^ 16| ≤ 1 / 2 := by
  have hD' : (0 : ℝ) < D := by exact_mod_cast hD
  rw [div_le_iff₀ hD'] at h0
  rw [le_div_iff₀ hD'] at h1
  have k0' : (2 * (c : ℝ) - 1) * D ≤ 2 ^ 17 * n0 := by
    have : (2 * (c : ℝ) - 1) ≤ ((2 * c - 1 : Nat) : ℝ) := by
      rw [sub_le_iff_le_add]
      exact_mod_cast (by omega : 2 * c ≤ 2 * c - 1 + 1)
    calc (2 * (c : ℝ) - 1) * D ≤ ((2 * c - 1 : Nat) : ℝ) * D := by gcongr
      _ ≤ 2 ^ 17 * n0 := by exact_mod_cast k0
  have k1' : (2 : ℝ) ^ 17 * n1 ≤ (2 * c + 1) * D := by exact_mod_cast k1
  rw [abs_le]
  constructor
  · have : y * 2 ^ 17 * D ≤ (2 * c + 1) * D := by linarith
    have := le_of_mul_le_mul_right this hD'
    linarith
  · have : (2 * (c : ℝ) - 1) * D ≤ y * 2 ^ 17 * D := by linarith
    have := le_of_mul_le_mul_right this hD'
    linarith

theorem exuRow_close {s : Nat} (hs : s < 64) : |((exuRow s).1 : ℝ) - (2 : ℝ) ^ ((s : ℝ) / 64) * 2 ^ 16| ≤ 1 / 2 ∧
    |((exuRow s).2 : ℝ) - ((2 : ℝ) ^ (((s : ℝ) + 1) / 64) - (2 : ℝ) ^ ((s : ℝ) / 64)) * 2 ^ 16| ≤ 1 / 2 := by
  obtain ⟨⟨h1, h2⟩, h3, h4⟩ := rows_close s hs
  obtain ⟨p0, p1⟩ := root64_pow_brackets s
  obtain ⟨r0, r1⟩ := root64_brackets
  have hdiff : (2 : ℝ) ^ (((s : ℝ) + 1) / 64) - (2 : ℝ) ^ ((s : ℝ) / 64) = root64 ^ s * (root64 - 1) := by
    rw [← root64_pow, show ((s : ℝ) + 1) / 64 = ((s + 1 : Nat) : ℝ) / 64 by push_cast; ring, ← root64_pow]
    ring
  have hle : 2 ^ 80 ≤ exuRoot := by decide
  have hle' : (2 : ℝ) ^ 80 ≤ exuRoot := by exact_mod_cast hle
  have hpos : (0 : ℝ) ≤ root64 ^ s := (by positivity : (0 : ℝ) ≤ (exuRoot : ℝ) ^ s / (2 ^ 80) ^ s).trans p0
  constructor
  · rw [← root64_pow]
    exact abs_sub_le_half (D := (2 ^ 80) ^ s) (by positivity) (by simpa only [Nat.cast_pow, Nat.cast_ofNat] using p0)
      (by simpa only [Nat.cast_pow, Nat.cast_add, Nat.cast_one, Nat.cast_ofNat] using p1) h1 h2
  · rw [hdiff]
    refine abs_sub_le_half (D := (2 ^ 80) ^ (s + 1)) (by positivity) ?_ ?_ h3 h4
    · have hone : ((exuRoot : ℝ) - 2 ^ 80) / 2 ^ 80 ≤ root64 - 1 := by rw [sub_div, div_self (by positivity)]; linarith
      have hnn : (0 : ℝ) ≤ ((exuRoot : ℝ) - 2 ^ 80) / 2 ^ 80 := div_nonneg (by linarith) (by positivity)
      simp only [Nat.cast_mul, Nat.cast_sub hle, Nat.cast_pow, Nat.cast_ofNat]
      rw [pow_succ (2 ^ 80 : ℝ), ← div_mul_div_comm]
      exact mul_le_mul p0 hone hnn hpos
    · have hone : root64 - 1 ≤ ((exuRoot : ℝ) + 1 - 2 ^ 80) / 2 ^ 80 := by rw [sub_div, div_self (by positivity)]; linarith
      have hnn : (0 : ℝ) ≤ root64 - 1 := by
        have : (1 : ℝ) ≤ exuRoot / 2 ^ 80 := by rwa [le_div_iff₀ (by positivity), one_mul]
        linarith
      simp only [Nat.cast_mul, Nat.cast_sub (hle.trans (Nat.le_add_right _ 1)), Nat.cast_pow, Nat.cast_add, Nat.cast_one, Nat.cast_ofNat]
      rw [pow_succ (2 ^ 80 : ℝ), ← div_mul_div_comm]
      exact mul_le_mul p1 hone hnn (by positivity)

/-! ## The exponential unit -/

theorem exu_log2e : Fmt.f32.decode 0x3FB8AA3B = .fin false 12102203 (-23) := by decide

theorem exu_nan {x : Nat} (hx : Fmt.f32.decode x = .nan) : exu x = 0x7FC00000 := by rw [exu, hx]
theorem exu_inf {x : Nat} {s : Bool} (hx : Fmt.f32.decode x = .inf s) : exu x = if s then 0 else 0x7F800000 := by rw [exu, hx]

/-- The product of an operand with log2 e, rounded (03 R90). -/
def exuArg (s : Bool) (m : Nat) (e : Int) : Nat := Fmt.f32.result .rne (Num.mul (.fin s m e) (Fmt.f32.decode 0x3FB8AA3B)) false

theorem exuArg_rounded (s : Bool) {m : Nat} (hm : m ≠ 0) (e : Int) :
    RoundedTo (exuArg s m e) ((Num.fin s m e).rat * (12102203 / 2 ^ 23)) := by
  have hrat : (Num.fin s m e).rat * (12102203 / 2 ^ 23) = (Num.fin (s != false) (m * 12102203) (e + -23)).rat := by
    rw [Num.rat_mul_fin]
    congr 1
    norm_num [Num.rat_fin]
  rw [exuArg, exu_log2e, Num.mul_fin, hrat]
  exact roundedTo_result fun h0 => absurd (rat_eq_zero.1 h0) (by simp [hm])

/-- What the unit makes of its rounded argument (03 R90, R91). -/
def exuOf : Num → Nat
  | .nan => 0x7FC00000
  | .inf neg => if neg then 0 else 0x7F800000
  | .fin neg m e =>
    let k := (-e).toNat
    let v := signed neg (m * 2 ^ e.toNat)
    if 128 * 2 ^ k ≤ v then 0x7F800000
    else
      let n := v / 2 ^ k
      let f := 64 * (v % 2 ^ k).toNat
      let c := exuRow (f / 2 ^ k)
      if n < -126 then 0 else Fmt.f32.result .rne (.fin false (c.1 * 2 ^ k + c.2 * (f % 2 ^ k)) (n - 16 - k)) false

/-- The cases of the operand are split before anything is evaluated: the kernel would count the literals down when it compares two matches. -/
theorem exu_fin {x : Nat} {s : Bool} {m : Nat} {e : Int} (hx : Fmt.f32.decode x = .fin s m e) : exu x = exuOf (Fmt.f32.decode (exuArg s m e)) := by
  unfold exu exuArg
  split
  · next h => rw [hx] at h; cases h
  · next h => rw [hx] at h; cases h
  · rw [hx]
    generalize Fmt.f32.decode (Fmt.f32.result .rne _ false) = y
    cases y <;> rfl

theorem exuArg_zero (s : Bool) (e : Int) : Fmt.f32.decode (exuArg s 0 e) = .fin s 0 (-149) := by
  rw [exuArg, exu_log2e, Num.mul_fin, zero_mul, f32_result_zero]
  cases s <;> rfl

theorem exu_zero {x : Nat} {s : Bool} {e : Int} (hx : Fmt.f32.decode x = .fin s 0 e) : exu x = 0x3F800000 := by
  rw [exu_fin hx, exuArg_zero]
  cases s <;> decide

/-- The argument as a binary fraction. -/
theorem rat_eq_div (t : Bool) (n : Nat) (g : Int) : (Num.fin t n g).rat = ((signed t (n * 2 ^ g.toNat) : Int) : Rat) / (2 ^ (-g).toNat : Nat) := by
  rw [signed_cast, Num.rat_fin]
  push_cast
  rcases le_total 0 g with h | h
  · obtain ⟨k, rfl⟩ := Int.eq_ofNat_of_zero_le h
    simp
  · obtain ⟨k, hk⟩ := Int.eq_ofNat_of_zero_le (neg_nonneg.2 h)
    obtain rfl : g = -(k : Int) := by omega
    simp [div_eq_mul_inv]

/-- Whole part and fraction of a value `v / D`, and the fraction in 64ths. -/
theorem split_fraction (v : Int) {D : Nat} (hD : 0 < D) : ⌊(v : Rat) / D⌋ = v / D ∧
    64 * ((v : Rat) / D - ⌊(v : Rat) / D⌋) = (64 * (v % D).toNat : Nat) / (D : Rat) ∧
    ⌊64 * ((v : Rat) / D - ⌊(v : Rat) / D⌋)⌋.toNat = 64 * (v % D).toNat / D ∧
    64 * ((v : Rat) / D - ⌊(v : Rat) / D⌋) - ⌊64 * ((v : Rat) / D - ⌊(v : Rat) / D⌋)⌋ = (64 * (v % D).toNat % D : Nat) / (D : Rat) := by
  have hD' : (D : Rat) ≠ 0 := by exact_mod_cast hD.ne'
  have hfloor : ⌊(v : Rat) / D⌋ = v / D := Rat.floor_intCast_div_natCast v D
  have hmod : ((v % D).toNat : Rat) = v - D * (v / D : Int) := by
    have h1 : ((v % D).toNat : Int) = v % D := Int.toNat_of_nonneg (Int.emod_nonneg _ (by omega))
    have h2 : (v % D : Int) = v - D * (v / D) := Int.emod_def v D
    have h3 : (((v % D).toNat : Int) : Rat) = ((v - D * (v / D) : Int) : Rat) := by rw [h1, h2]
    rw [Int.cast_natCast] at h3
    rw [h3]
    push_cast
    rfl
  have hfrac : 64 * ((v : Rat) / D - ⌊(v : Rat) / D⌋) = (64 * (v % D).toNat : Nat) / (D : Rat) := by
    rw [hfloor, Nat.cast_mul, hmod]
    push_cast
    field_simp
  have hnat : ⌊((64 * (v % D).toNat : Nat) : Rat) / D⌋ = ((64 * (v % D).toNat / D : Nat) : Int) := Rat.floor_natCast_div_natCast _ _
  refine ⟨hfloor, hfrac, by rw [hfrac, hnat, Int.toNat_natCast], ?_⟩
  rw [hfrac, hnat, eq_div_iff hD', sub_mul, div_mul_cancel₀ _ hD', sub_eq_iff_eq_add]
  have hdm : 64 * (v % D).toNat = 64 * (v % D).toNat % D + 64 * (v % D).toNat / D * D := (Nat.mod_add_div' _ D).symm
  have := congrArg (Nat.cast (R := Rat)) hdm
  push_cast at this ⊢
  exact this

end Sys2Proof

namespace Sys2Proof

/-- The row of the table for the fraction of `y`, and the interpolation within it (R90, R91). -/
theorem exuOf_fin (t : Bool) (n : Nat) (g : Int) :
    let y := (Num.fin t n g).rat
    let c := exuRow ⌊64 * (y - ⌊y⌋)⌋.toNat
    (128 ≤ y → exuOf (.fin t n g) = 0x7F800000) ∧ (⌊y⌋ < -126 → exuOf (.fin t n g) = 0) ∧
      (y < 128 → -126 ≤ ⌊y⌋ → RoundedTo (exuOf (.fin t n g)) ((c.1 + c.2 * (64 * (y - ⌊y⌋) - ⌊64 * (y - ⌊y⌋)⌋)) * (2 : Rat) ^ (⌊y⌋ - 16))) := by
  intro y c
  obtain ⟨k, hk⟩ : ∃ k, k = (-g).toNat := ⟨_, rfl⟩
  obtain ⟨v, hv⟩ : ∃ v, v = signed t (n * 2 ^ g.toNat) := ⟨_, rfl⟩
  have hD : 0 < 2 ^ k := by positivity
  have hy : y = (v : Rat) / (2 ^ k : Nat) := by rw [hk, hv]; exact rat_eq_div t n g
  obtain ⟨hfloor, hfrac, hrow, hrem⟩ := split_fraction v hD
  rw [← hy] at hfloor hfrac hrow hrem
  have hcast : ((2 ^ k : Nat) : Int) = 2 ^ k := by push_cast; rfl
  rw [hcast] at hfloor hfrac hrow hrem
  have hge : 128 * 2 ^ k ≤ v ↔ 128 ≤ y := by
    rw [hy, le_div_iff₀ (by exact_mod_cast hD)]
    exact_mod_cast Iff.rfl
  have heq : exuOf (.fin t n g) = if 128 * 2 ^ k ≤ v then 0x7F800000 else if ⌊y⌋ < -126 then 0 else
      Fmt.f32.result .rne (.fin false (c.1 * 2 ^ k + c.2 * (64 * (v % 2 ^ k).toNat % 2 ^ k)) (⌊y⌋ - 16 - k)) false := by
    have hc : c = exuRow (64 * (v % 2 ^ k).toNat / 2 ^ k) := by simp only [c, hrow]
    rw [hc, hfloor]
    simp only [exuOf, hk, hv]
  have hlow : ⌊y⌋ < -126 → ¬128 ≤ y := fun h h' => by
    have : (128 : Int) ≤ ⌊y⌋ := Int.le_floor.2 (by exact_mod_cast h')
    omega
  rw [heq]
  refine ⟨fun h => if_pos (hge.2 h), fun h => ?_, fun h0 h1 => ?_⟩
  · rw [if_neg (mt hge.1 (hlow h)), if_pos h]
  · rw [if_neg (mt hge.1 (not_le.2 h0)), if_neg (not_lt.2 h1), hrem]
    have hrat : (c.1 + c.2 * ((64 * (v % 2 ^ k).toNat % 2 ^ k : Nat) / (2 ^ k : Nat))) * (2 : Rat) ^ (⌊y⌋ - 16) =
        (Num.fin false (c.1 * 2 ^ k + c.2 * (64 * (v % 2 ^ k).toNat % 2 ^ k)) (⌊y⌋ - 16 - k)).rat := by
      rw [Num.rat_fin, zpow_sub₀ two_ne_zero (⌊y⌋ - 16) k, zpow_natCast]
      simp only [sgn, Bool.false_eq_true, if_false, one_mul, Nat.cast_add, Nat.cast_mul, Nat.cast_pow, Nat.cast_ofNat]
      field_simp
    rw [hrat]
    exact roundedTo_result fun _ => rfl

end Sys2Proof

/-! # The matrix engine performs an operation (11 R271, R278-R288) -/

namespace Sys2Proof

open Machine Host

/-! ## Cores and tiles -/

section Tiles

variable {s : State} {core n k : Nat}

theorem State.core_modCore (h : core < s.cores.length) (f : Machine.Core → Machine.Core) : (s.modCore core f).core core = f (s.core core) := by
  simp only [Machine.State.core, State.modCore_cores, List.getD_eq_getElem?_getD, modAt_get_self, List.getElem?_eq_getElem h]
  rfl

/-- A change of a core that keeps a field of it keeps that field of every core. -/
theorem State.core_modCore_field {α : Type} (p : Machine.Core → α) {f : Machine.Core → Machine.Core} (hf : ∀ c, p (f c) = p c) (s : State)
    (core k : Nat) : p ((s.modCore core f).core k) = p (s.core k) := by
  simp only [Machine.State.core, State.modCore_cores, List.getD_eq_getElem?_getD, modAt_get]
  split
  · cases s.cores[k]? <;> simp [hf]
  · rfl

theorem lookup_filter_ne {α : Type} (l : List (Nat × α)) {m n : Nat} (h : m ≠ n) : (l.filter fun x => x.1 != n).lookup m = l.lookup m := by
  induction l with
  | nil => rfl
  | cons x xs ih =>
    by_cases hx : x.1 = n
    · rw [List.filter_cons_of_neg (by simp [hx]), ih, List.lookup_cons, beq_false_of_ne (by rw [hx]; exact h)]
    · rw [List.filter_cons_of_pos (by simp [hx]), List.lookup_cons, List.lookup_cons, ih]

theorem setTile_tile (h : core < s.cores.length) (t : List Lane32) : ((s.setTile core n t).core core).tile n = t := by
  rw [State.setTile, State.core_modCore h, Core.tile]
  simp

theorem setTile_tile_ne (hn : k ≠ n) (h : core < s.cores.length) (t : List Lane32) :
    ((s.setTile core n t).core core).tile k = (s.core core).tile k := by
  rw [State.setTile, State.core_modCore h, Core.tile, Core.tile, List.lookup_cons, beq_false_of_ne hn, lookup_filter_ne _ hn]

theorem setTile_ops (t : List Lane32) : ((s.setTile core n t).core core).ops = (s.core core).ops := by
  rw [State.setTile]
  exact State.core_modCore_field (·.ops) (fun _ => by rfl) s core core

theorem setTile_drains (t : List Lane32) : ((s.setTile core n t).core core).drains = (s.core core).drains := by
  rw [State.setTile]
  exact State.core_modCore_field (·.drains) (fun _ => by rfl) s core core

theorem setTile_cores_length (t : List Lane32) : (s.setTile core n t).cores.length = s.cores.length := by simp [State.setTile]

theorem Core.tile_congr {c c' : Machine.Core} (h : c.tiles = c'.tiles) (n : Nat) : c.tile n = c'.tile n := by rw [Core.tile, Core.tile, h]

theorem State.core_lt_of_nextOp {mma : Bool} {o : TileOp} (h : (s.core core).nextOp mma = some o) : core < s.cores.length := by
  by_contra hc
  have : s.core core = Machine.Core.reset := by simp [Machine.State.core, List.getD_eq_getElem?_getD, hc]
  rw [this] at h
  cases mma <;> cases h

theorem Core.nextOp_isMma {c : Machine.Core} {mma : Bool} {o : TileOp} (h : c.nextOp mma = some o) : o.op.isMma = mma := by
  unfold Core.nextOp at h
  split at h
  · cases h
  · next y hy =>
    split at h
    · cases h
    · obtain rfl := Option.some.inj h
      simpa using List.find?_some hy

end Tiles

/-! ## A word of a running group completes -/

section Complete

variable {s : State} {g : Nat} {G : Group} {w : OWord} {ws : List RegWrite}

theorem Group.release_stage (G : Group) (o : OWord) : (G.release o).stage = G.stage := rfl
theorem Group.release_outst (G : Group) (o : OWord) : (G.release o).outst = G.outst.filter fun x => x.id != o.id := rfl

theorem Machine.Group.Rewritten.stage {G H : Group} (h : G.Rewritten H) : H.stage = G.stage := by obtain ⟨⟨_, _, _, _, _, _, _, _, rfl⟩, -⟩ := h; rfl
theorem Machine.Group.Rewritten.outst {G H : Group} (h : G.Rewritten H) : H.outst = G.outst := by obtain ⟨⟨_, _, _, _, _, _, _, _, rfl⟩, -⟩ := h; rfl

@[simp] theorem State.l1Acquire_mem (s : State) (c scope : Nat) : (s.l1Acquire c scope).mem = s.mem := by unfold State.l1Acquire; split <;> rfl
@[simp] theorem State.l1Acquire_groups (s : State) (c scope : Nat) : (s.l1Acquire c scope).groups = s.groups := by
  unfold State.l1Acquire
  split <;> rfl

theorem State.l1Acquire_core {α : Type} (p : Machine.Core → α) (hp : ∀ (c : Machine.Core) l a, p { c with l1 := l, asm := a } = p c)
    (s : State) (c scope k : Nat) : p ((s.l1Acquire c scope).core k) = p (s.core k) := by
  unfold State.l1Acquire
  split
  · rfl
  · exact State.core_modCore_field p (fun c => hp c _ _) s c k

theorem finishStop_running (h : s.groups[g]? = some G) (hr : G.stage = .running) : s.finishStop g = s := by
  have : (s.group g).stage = .running := by rw [State.group_eq h, hr]
  simp [State.finishStop, this]

/-- What the completion of a word changes of a running group, and what it leaves of the cores. -/
theorem complete_running (h : s.groups[g]? = some G) (hr : G.stage = .running) :
    (s.complete g w ws).mem = s.mem ∧ (s.complete g w ws).groups[g]? = some ((G.putVar ws).release w) ∧
      ∀ {α : Type} (p : Machine.Core → α), (∀ (c : Machine.Core) l a, p { c with l1 := l, asm := a } = p c) →
        ∀ k, p ((s.complete g w ws).core k) = p (s.core k) := by
  have hg : ((s.modGroup g fun G => (G.putVar ws).release w).l1Acquire ((s.modGroup g fun G => (G.putVar ws).release w).group g).core w.acq).groups[g]? =
      some ((G.putVar ws).release w) := by simp [h]
  have hstage : ((G.putVar ws).release w).stage = .running := by rw [Group.release_stage, (G.rewritten_putVar ws).stage, hr]
  have heq : s.complete g w ws =
      (s.modGroup g fun G => (G.putVar ws).release w).l1Acquire ((s.modGroup g fun G => (G.putVar ws).release w).group g).core w.acq :=
    finishStop_running hg hstage
  rw [heq]
  exact ⟨by simp, hg, fun p hp k => State.l1Acquire_core p hp _ _ _ k⟩

theorem opDone_eq {core : Nat} {o : TileOp} (h : s.groups[o.g]? = some G) (hw : G.outst.find? (fun y => y.id == o.word) = some w) :
    s.opDone core o ws = (s.dropOp core o).complete o.g w ws := by
  have hg : (s.dropOp core o).group o.g = G := State.group_eq h
  have : (s.dropOp core o).word? o.g o.word = some w := by rw [State.word?, hg, hw]
  simp only [State.opDone, this]

/-- The operation leaves the queue and its word completes; tiles and drains stay. -/
theorem opDone_running {core : Nat} {o : TileOp} (hc : core < s.cores.length) (h : s.groups[o.g]? = some G) (hr : G.stage = .running)
    (hw : G.outst.find? (fun y => y.id == o.word) = some w) :
    (s.opDone core o ws).mem = s.mem ∧ (s.opDone core o ws).groups[o.g]? = some ((G.putVar ws).release w) ∧
      ((s.opDone core o ws).core core).ops = (s.core core).ops.erase o ∧
      (∀ n, ((s.opDone core o ws).core core).tile n = (s.core core).tile n) ∧ ((s.opDone core o ws).core core).drains = (s.core core).drains := by
  rw [opDone_eq h hw]
  obtain ⟨hmem, hg, hcore⟩ := complete_running (s := s.dropOp core o) (w := w) (ws := ws) h hr
  refine ⟨hmem, hg, ?_, fun n => Core.tile_congr ?_ n, ?_⟩
  · rw [hcore (·.ops) (fun _ _ _ => rfl), State.dropOp, State.core_modCore hc]
  · rw [hcore (·.tiles) (fun _ _ _ => rfl), State.dropOp]
    exact State.core_modCore_field (·.tiles) (fun _ => by rfl) s core core
  · rw [hcore (·.drains) (fun _ _ _ => rfl), State.dropOp]
    exact State.core_modCore_field (·.drains) (fun _ => by rfl) s core core

end Complete

end Sys2Proof

namespace Sys2Proof

open Machine Host

/-! ## Elements of a new tile -/

section Elements

variable {α β : Type}

/-- Rows of 64 laid one after another. -/
theorem flatMap_rows_get (f : Nat → Nat → α) (n : Nat) {i j : Nat} (hi : i < n) (hj : j < 64) :
    ((List.range n).flatMap fun i => (List.range 64).map (f i))[64 * i + j]? = some (f i j) := by
  have hlen : ∀ n, ((List.range n).flatMap fun i => (List.range 64).map (f i)).length = 64 * n := fun n => by
    simp [List.length_flatMap, mul_comm]
  induction n with
  | zero => omega
  | succ n ih =>
    rw [List.range_succ (n := n), List.flatMap_append, List.flatMap_singleton]
    rcases Nat.lt_succ_iff_lt_or_eq.1 hi with h | rfl
    · rw [List.getElem?_append_left (by rw [hlen]; omega), ih h]
    · rw [List.getElem?_append_right (by rw [hlen]; omega), hlen, Nat.add_sub_cancel_left]
      simp [hj]

theorem tileAt_of_get {t : List Lane32} {r c v : Nat} (h : t[64 * r + c]? = some (BitVec.ofNat 32 v)) : tileAt t r c = v % 2 ^ 32 := by
  rw [tileAt, List.getD_eq_getElem?_getD, h]
  exact BitVec.toNat_ofNat v 32

theorem get_eq_tileAt {t : List Lane32} (ht : t.length = 4096) {r c : Nat} (hr : r < 64) (hc : c < 64) :
    ∃ y : Lane32, t[64 * r + c]? = some y ∧ y.toNat = tileAt t r c := by
  have h : 64 * r + c < t.length := by omega
  refine ⟨t[64 * r + c], List.getElem?_eq_getElem h, ?_⟩
  rw [tileAt, List.getD_eq_getElem?_getD, List.getElem?_eq_getElem h]
  rfl

theorem mmaTile_at (sr desc gw : Nat) (a b : List VReg) {t : List Lane32} (ht : t.length = 4096) {r c : Nat} (hr : r < 64) (hc : c < 64) :
    tileAt (mmaTile sr desc a b gw t) r c = mmaElem sr (descSoff desc) (tileRow (descFillm desc) (descMwa desc) a (gw / 8) r)
      (tileRow (descFillm desc) (descMwb desc) b (gw / 8) c) (tileAt t r c) % 2 ^ 32 := by
  obtain ⟨y, hy, hyt⟩ := get_eq_tileAt ht hr hc
  refine tileAt_of_get ?_
  have hcell := flatMap_rows_get (fun i j => (tileRow (descFillm desc) (descMwa desc) a (gw / 8) i,
    tileRow (descFillm desc) (descMwb desc) b (gw / 8) j)) 64 hr hc
  rw [mmaTile, List.getElem?_map, Option.map_eq_some_iff]
  refine ⟨(y, tileRow (descFillm desc) (descMwa desc) a (gw / 8) r, tileRow (descFillm desc) (descMwb desc) b (gw / 8) c), List.getElem?_zip_eq_some.2 ⟨hy, ?_⟩, by rw [← hyt]⟩
  simpa only [List.flatMap_map, List.map_map, Function.comp_def] using hcell

theorem replicate_at (v : Lane32) {r c : Nat} (hr : r < 64) (hc : c < 64) : tileAt (List.replicate 4096 v) r c = v.toNat := by
  rw [tileAt, List.getD_eq_getElem?_getD, List.getElem?_replicate, if_pos (by omega)]
  rfl

theorem tileScl_at (f g : List Lane32) {t : List Lane32} (ht : t.length = 4096) {r c : Nat} (hr : r < 64) (hc : c < 64) :
    tileAt (tileScl f g t) r c = sclElem (tileAt t r c) (f.getD r 0#32).toNat (g.getD r 0#32).toNat % 2 ^ 32 := by
  obtain ⟨y, hy, hyt⟩ := get_eq_tileAt ht hr hc
  refine tileAt_of_get ?_
  have hrow : (64 * r + c) / 64 = r := by omega
  simp [tileScl, List.getElem?_zipIdx, hy, hyt, hrow]

end Elements

/-! ## One operation -/

/-- The tile after an operation on it. -/
def tileAfter (gw : Nat) (t : List Lane32) : TOp → List Lane32
  | .mma sr d a b => mmaTile sr d.toNat a b gw t
  | .zero v => List.replicate 4096 v
  | .scl f g => tileScl f g t
  | .ld vals => vals
  | .drn _ z => if z then List.replicate 4096 0#32 else t
  | _ => t

theorem tileAfter_at {gw : Nat} {t : List Lane32} (ht : t.length = 4096) {op : TOp} {r c v : Nat} (hr : r < 64) (hc : c < 64)
    (hv : tileResult gw t r c op = some v) : tileAt (tileAfter gw t op) r c = v % 2 ^ 32 := by
  cases op with
  | mma sr d a b =>
    obtain rfl := Option.some.inj hv
    exact mmaTile_at sr d.toNat gw a b ht hr hc
  | zero x =>
    obtain rfl := Option.some.inj hv
    rw [Nat.mod_eq_of_lt x.isLt]
    exact replicate_at x hr hc
  | scl f g =>
    obtain rfl := Option.some.inj hv
    exact tileScl_at f g ht hr hc
  | ld vals =>
    obtain rfl := Option.some.inj hv
    exact (Nat.mod_eq_of_lt (tileAt_lt vals r c)).symm
  | rd | max | drn => cases hv

/-- The state in which an operation's word completes: what the pipe has changed by then, of an operation `o` of the core. -/
structure Performed (s s1 : State) (core gw : Nat) (o : TileOp) (ws : List RegWrite) : Prop where
  mem : s1.mem = s.mem
  groups : s1.groups = s.groups
  cores : s1.cores.length = s.cores.length
  ops : (s1.core core).ops = (s.core core).ops
  tile : (s1.core core).tile o.phys = tileAfter gw ((s.core core).tile o.phys) o.op
  others : ∀ n, n ≠ o.phys → (s1.core core).tile n = (s.core core).tile n
  reads : ∀ ws', tileReads gw ((s.core core).tile o.phys) o.op = some ws' → ws = ws' ∧ s1 = s
  drains : ∀ a z, o.op = .drn a z → (s1.core core).drains.length = (s.core core).drains.length + 1024

theorem performed_setTile {s : State} {core gw : Nat} {o : TileOp} (hc : core < s.cores.length)
    (hr : tileReads gw ((s.core core).tile o.phys) o.op = none) (hd : ∀ a z, o.op ≠ .drn a z) :
    Performed s (s.setTile core o.phys (tileAfter gw ((s.core core).tile o.phys) o.op)) core gw o [] :=
  ⟨rfl, rfl, setTile_cores_length _, setTile_ops _, setTile_tile hc _, fun _ hn => setTile_tile_ne hn hc _, fun _ h => by simp [hr] at h,
    fun a z h => absurd h (hd a z)⟩

/-- A read changes nothing before its word completes. -/
theorem performed_read {s : State} {core gw : Nat} {o : TileOp} {ws : List RegWrite}
    (hr : tileReads gw ((s.core core).tile o.phys) o.op = some ws) (hd : ∀ a z, o.op ≠ .drn a z) : Performed s s core gw o ws := by
  refine ⟨rfl, rfl, rfl, rfl, ?_, fun _ _ => rfl, fun ws' h => ⟨Option.some.inj (hr.symm.trans h), rfl⟩, fun a z h => absurd h (hd a z)⟩
  cases ho : o.op with
  | rd | max => rfl
  | mma | zero | scl | ld | drn => simp [ho, tileReads] at hr

theorem performed_drain {s : State} {core gw : Nat} {o : TileOp} {a : Nat} {z : Bool} {ds : List Drain} (hc : core < s.cores.length)
    (ho : o.op = .drn a z) (hlen : ds.length = 1024) :
    let s1 := s.modCore core fun c => { c with drains := c.drains ++ ds }
    Performed s (if z then s1.setTile core o.phys (List.replicate 4096 0#32) else s1) core gw o [] := by
  intro s1
  have hc1 : core < s1.cores.length := by simpa [s1] using hc
  have hops : (s1.core core).ops = (s.core core).ops := State.core_modCore_field (·.ops) (fun _ => by rfl) s core core
  have htiles : ∀ n, (s1.core core).tile n = (s.core core).tile n :=
    fun n => Core.tile_congr (State.core_modCore_field (·.tiles) (fun _ => by rfl) s core core) n
  have hdrains : (s1.core core).drains.length = (s.core core).drains.length + 1024 := by
    rw [State.core_modCore hc, List.length_append, hlen]
  have hnone : tileReads gw ((s.core core).tile o.phys) o.op = none := by rw [ho]; rfl
  cases z with
  | true =>
    exact ⟨rfl, rfl, (setTile_cores_length _).trans (by simp [s1]), (setTile_ops _).trans hops, by rw [ho]; exact setTile_tile hc1 _,
      fun n hn => (setTile_tile_ne hn hc1 _).trans (htiles n), fun _ h => by simp [hnone] at h, fun _ _ _ => by rw [if_pos rfl, setTile_drains, hdrains]⟩
  | false =>
    exact ⟨rfl, rfl, by simp [s1], hops, by rw [ho]; exact htiles _, fun n _ => htiles n, fun _ h => by simp [hnone] at h, fun _ _ _ => hdrains⟩

/-- A pipe's event performs its operation. -/
theorem perform_eq {i : Instr} {s : State} {core : Nat} {o : TileOp} {G : Group} {mma : Bool}
    (hi : i = .multiplyPipePerform core true ∧ mma = true ∨ i = .accPortPerform core true ∧ mma = false)
    (hn : (s.core core).nextOp mma = some o) (hG : s.groups[o.g]? = some G) :
    ∃ s1 ws, exec i s = .next (s1.opDone core o ws) ∧ Performed s s1 core G.gw o ws := by
  have hc := State.core_lt_of_nextOp hn
  have hop := Core.nextOp_isMma hn
  have hgw : (s.group o.g).gw = G.gw := by rw [State.group_eq hG]
  obtain ⟨g, word, pc, tile, phys, op⟩ := o
  dsimp only at hgw hop
  rcases hi with ⟨rfl, rfl⟩ | ⟨rfl, rfl⟩
  · have hexec : exec (.multiplyPipePerform core true) s = execMultiplyPipePerform core true s := rfl
    rw [hexec, execMultiplyPipePerform, hn]
    cases op with
    | mma sr d a b =>
      refine ⟨_, _, rfl, ?_⟩
      rw [hgw]
      exact performed_setTile (o := ⟨g, word, pc, tile, phys, .mma sr d a b⟩) hc rfl fun _ _ h => by cases h
    | zero | rd | max | scl | ld | drn => cases hop
  · have hexec : exec (.accPortPerform core true) s = execAccPortPerform core true s := rfl
    rw [hexec, execAccPortPerform, hn]
    cases op with
    | mma => cases hop
    | zero v => exact ⟨_, _, rfl, performed_setTile (o := ⟨g, word, pc, tile, phys, .zero v⟩) hc rfl fun _ _ h => by cases h⟩
    | scl f h => exact ⟨_, _, rfl, performed_setTile (o := ⟨g, word, pc, tile, phys, .scl f h⟩) hc rfl fun _ _ h => by cases h⟩
    | ld vals => exact ⟨_, _, rfl, performed_setTile (o := ⟨g, word, pc, tile, phys, .ld vals⟩) hc rfl fun _ _ h => by cases h⟩
    | rd exp row0 nr d act frag =>
      refine ⟨s, rdWrites G.gw row0 nr d act frag _, ?_, performed_read rfl fun _ _ h => by cases h⟩
      simp only [Option.map_some, Bool.not_true, Bool.and_false, Bool.false_eq_true, if_false, hgw]
      rfl
    | max col mrg d old act frag =>
      refine ⟨s, maxWrites G.gw d old mrg act frag _, ?_, performed_read rfl fun _ _ h => by cases h⟩
      simp only [Option.map_some, hgw]
      rfl
    | drn a z =>
      exact ⟨_, _, rfl, performed_drain (o := ⟨g, word, pc, tile, phys, .drn a z⟩) hc rfl (List.length_map _ |>.trans List.length_range)⟩

end Sys2Proof

/-! # A failed residue check stops its group (11 R280, 21 R443) -/

namespace Sys2Proof.Machine

/-! ## What faults and completions leave of every group and tile -/

/-- The registers of a vector stay, no fault is forgotten, and a group that does not run does not begin to. -/
def Group.Keeps (G H : Group) : Prop := H.v = G.v ∧ G.faults ⊆ H.faults ∧ (G.stage ≠ .running → H.stage ≠ .running)

theorem Group.Keeps.refl {G : Group} : G.Keeps G := ⟨rfl, List.Subset.refl _, id⟩

theorem Group.Keeps.trans {G H K : Group} (h : G.Keeps H) (h' : H.Keeps K) : G.Keeps K :=
  ⟨h'.1.trans h.1, List.Subset.trans h.2.1 h'.2.1, fun hs => h'.2.2 (h.2.2 hs)⟩

theorem Group.Keeps.of_eq {G H : Group} (hv : H.v = G.v) (hf : H.faults = G.faults) (hs : H.stage = G.stage) : G.Keeps H :=
  ⟨hv, by simp [hf], by simp [hs]⟩

/-- A group takes the fault `f` at the clock `n`: the first step of `State.groupFault`. -/
def Group.stopFor (n : Nat) (f : Flt) (G : Group) : Group :=
  { G with faults := G.faults ++ [{ f with time := n }], stage := if G.stage == .running then .stopping else G.stage,
           suspend := none, want := [], paid := none }

theorem Group.stopFor_stage (n : Nat) (f : Flt) (G : Group) : (G.stopFor n f).stage ≠ .running := by
  cases hs : G.stage <;> simp [Group.stopFor, hs]

theorem Group.keeps_stopFor (n : Nat) (f : Flt) (G : Group) : G.Keeps (G.stopFor n f) :=
  ⟨rfl, List.subset_append_left _ _, fun _ => Group.stopFor_stage n f G⟩

/-- Every group keeps what `Group.Keeps` says, and every core its tiles. -/
structure State.Keeps (s t : State) : Prop where
  groups : ∀ (g : Nat) (G : Group), s.groups[g]? = some G → ∃ H, t.groups[g]? = some H ∧ G.Keeps H
  tiles : ∀ core, (t.core core).tiles = (s.core core).tiles

namespace State.Keeps

variable {s t u : State}

theorem refl : s.Keeps s := ⟨fun _ G h => ⟨G, h, .refl⟩, fun _ => rfl⟩

theorem of_eq (h : s.Keeps t) (hg : u.groups = t.groups) (hc : u.cores = t.cores) : s.Keeps u :=
  ⟨by rw [hg]; exact h.groups, fun k => by rw [State.core, hc]; exact h.tiles k⟩

theorem modGroup (h : s.Keeps t) {g : Nat} {f : Group → Group} (hf : ∀ G : Group, G.Keeps (f G)) : s.Keeps (t.modGroup g f) := by
  refine ⟨fun k G hG => ?_, h.tiles⟩
  obtain ⟨H, hH, hk⟩ := h.groups k G hG
  rw [State.modGroup_groups, modAt_get, hH]
  split
  · exact ⟨f H, rfl, hk.trans (hf H)⟩
  · exact ⟨H, rfl, hk⟩

theorem modCore (h : s.Keeps t) {c : Nat} {f : Core → Core} (hf : ∀ k, (f k).tiles = k.tiles) : s.Keeps (t.modCore c f) :=
  ⟨h.groups, fun k => (State.core_modCore_field (·.tiles) hf t c k).trans (h.tiles k)⟩

theorem ite (h : s.Keeps t) (h' : s.Keeps u) {p : Prop} [Decidable p] : s.Keeps (if p then t else u) := by
  split
  · exact h
  · exact h'

theorem foldl {α : Type} {f : State → α → State} (h : s.Keeps t) (hf : ∀ u a, s.Keeps u → s.Keeps (f u a)) (l : List α) :
    s.Keeps (l.foldl f t) := by
  induction l generalizing t with
  | nil => exact h
  | cons a l ih => exact ih (hf t a h)

theorem wrMem (h : s.Keeps t) {pa n v : Nat} : s.Keeps (t.wrMem pa n v) := h.of_eq rfl rfl
theorem modTeam (h : s.Keeps t) {i : Nat} {f : Team → Team} : s.Keeps (t.modTeam i f) := h.of_eq rfl rfl
theorem modTen (h : s.Keeps t) {i : Nat} {f : Tenancy → Tenancy} : s.Keeps (t.modTen i f) := h.of_eq rfl rfl
theorem countErr (h : s.Keeps t) {d : Bool} {i : Nat} : s.Keeps (t.countErr d i) := h.of_eq rfl rfl
theorem unask (h : s.Keeps t) {g : Nat} : s.Keeps (t.unask g) := h.of_eq rfl rfl
theorem dropOp (h : s.Keeps t) {core : Nat} {o : TileOp} : s.Keeps (t.dropOp core o) := h.modCore fun _ => rfl

theorem putQueue (h : s.Keeps t) {tid q : Nat} : s.Keeps (t.putQueue tid q) := by
  unfold State.putQueue
  dsimp only
  split
  · exact (h.foldl (fun _ _ hu => hu.wrMem) _).ite h
  · exact h

theorem setLife (h : s.Keeps t) {tid : Nat} {life : Life} : s.Keeps (t.setLife tid life) := h.modTeam.wrMem

theorem runOn (h : s.Keeps t) {tid : Nat} : s.Keeps (t.runOn tid) :=
  h.ite (h.foldl (fun _ _ hu => hu.setLife.modTeam.ite hu) _)

theorem haltLaunch (h : s.Keeps t) {l : Nat} : s.Keeps (t.haltLaunch l) :=
  (h.of_eq (u := t.modLaunch l _) rfl rfl).foldl (fun _ _ hu => hu.setLife.ite hu) _

theorem writeRec (h : s.Keeps t) {ten : Nat} {r : FRec} : s.Keeps (t.writeRec ten r) := by
  unfold State.writeRec
  dsimp only
  split
  · exact ((h.foldl (fun _ _ hu => hu.wrMem) _).modTen).modGroup fun _ => .of_eq rfl rfl rfl
  · exact ((h.foldl (fun _ _ hu => hu.wrMem) _).modTen).modGroup fun _ => .of_eq rfl rfl rfl
  · exact ((h.foldl (fun _ _ hu => hu.wrMem) _).modTen).modTeam.putQueue
  · exact (h.foldl (fun _ _ hu => hu.wrMem) _).modTen

theorem post (h : s.Keeps t) {ten : Nat} {r : FRec} : s.Keeps (t.post ten r) := h.writeRec.ite (h.modTen.ite h.modTen)

theorem writeImage (h : s.Keeps t) {g : Nat} : s.Keeps (t.writeImage g) := by
  have hstop : s.Keeps (t.modGroup g fun G => { G with stopAt := t.clock }) := h.modGroup fun _ => .of_eq rfl rfl rfl
  exact hstop.of_eq rfl rfl

/-- A group that parks takes a stage in which it does not run. -/
theorem park (h : s.Keeps t) {g : Nat} {stage : Stage} (hs : stage ≠ .running) : s.Keeps (t.park g stage) := by
  unfold State.park
  refine writeImage (h.modGroup fun _ => ?_)
  exact ⟨rfl, List.Subset.refl _, fun _ => hs⟩

theorem finishStop (h : s.Keeps t) {g : Nat} : s.Keeps (t.finishStop g) := by
  unfold State.finishStop
  dsimp only
  split
  · split
    · exact h
    · exact (h.park (by decide)).post
  · exact h

/-- What a fault does after the group has stopped. -/
theorem groupFault_of_stopFor {g : Nat} {f : Flt} (h : s.Keeps ((t.unask g).modGroup g (Group.stopFor t.clock f))) :
    s.Keeps (t.groupFault g f) :=
  (h.runOn.haltLaunch.ite h.runOn).finishStop

theorem groupFault (h : s.Keeps t) {g : Nat} {f : Flt} : s.Keeps (t.groupFault g f) :=
  groupFault_of_stopFor (h.unask.modGroup (Group.keeps_stopFor _ _))

theorem takeBack (h : s.Keeps t) {g : Nat} {o : OWord} : s.Keeps (t.takeBack g o) := h.modGroup fun _ => .of_eq rfl rfl rfl

theorem takeBackFor (h : s.Keeps t) {g : Nat} {o : OWord} {stay : List Nat} : s.Keeps (t.takeBackFor g o stay) :=
  h.takeBack.modGroup fun _ => .of_eq rfl rfl rfl

theorem l1Acquire (h : s.Keeps t) {c scope : Nat} : s.Keeps (t.l1Acquire c scope) :=
  ⟨by rw [State.l1Acquire_groups]; exact h.groups, fun k => (State.l1Acquire_core (·.tiles) (fun _ _ _ => rfl) t c scope k).trans (h.tiles k)⟩

/-- A word that completes with no register writes. -/
theorem complete (h : s.Keeps t) {g : Nat} {o : OWord} : s.Keeps (t.complete g o []) := by
  unfold State.complete
  refine finishStop (l1Acquire (h.modGroup fun _ => ?_))
  exact .of_eq rfl rfl rfl

theorem opDone (h : s.Keeps t) {core : Nat} {o : TileOp} : s.Keeps (t.opDone core o []) := by
  unfold State.opDone
  dsimp only
  split
  · exact h.dropOp.complete
  · exact h.dropOp

theorem takeBackWord (h : s.Keeps t) {g : Nat} {w : Option OWord} :
    s.Keeps (match w with | some w => t.takeBackFor g w [] | none => t) := by
  cases w with
  | some w => exact h.takeBackFor
  | none => exact h

theorem arithCheck (h : s.Keeps t) {core : Nat} {o : TileOp} : s.Keeps (t.arithCheck core o) := h.dropOp.takeBackWord.groupFault

/-- The operations that follow on a tile whose residue check failed. -/
theorem discard (h : s.Keeps t) {core : Nat} (l : List TileOp) (seen : List Nat) :
    s.Keeps (l.foldl (fun (r : List Nat × State) y =>
      if r.1.contains y.g then (r.1, r.2.opDone core y []) else (y.g :: r.1, r.2.arithCheck core y)) (seen, t)).2 := by
  induction l generalizing t seen with
  | nil => exact h
  | cons y l ih =>
    rw [List.foldl_cons]
    split
    · exact ih h.opDone _
    · exact ih h.arithCheck _

end State.Keeps

/-! ## The group that stops -/

/-- A group that a fault stops does not run, holds the fault, and keeps its vector registers, through whatever keeps these. -/
theorem State.groupFault_stops {s t u : State} {g : Nat} {G : Group} {f : Flt} (hG : s.groups[g]? = some G) (h : s.Keeps t)
    (hu : (t.groupFault g f).Keeps u) :
    ∃ H, u.groups[g]? = some H ∧ H.stage ≠ .running ∧ H.v = G.v ∧ { f with time := t.clock } ∈ H.faults := by
  obtain ⟨G1, hG1, hv1, -, -⟩ := h.groups g G hG
  have hstop : ((t.unask g).modGroup g (Group.stopFor t.clock f)).groups[g]? = some (G1.stopFor t.clock f) := by
    rw [State.modGroup_groups, modAt_get_self, State.unask, hG1]
    rfl
  obtain ⟨G2, hG2, hv2, hf2, hs2⟩ := (State.Keeps.groupFault_of_stopFor (g := g) (f := f) .refl).groups g _ hstop
  obtain ⟨H, hH, hv, hf, hs⟩ := hu.groups g G2 hG2
  refine ⟨H, hH, hs (hs2 (Group.stopFor_stage _ _ _)), hv.trans (hv2.trans hv1), hf (hf2 ?_)⟩
  simp [Group.stopFor]

/-- A failed residue check stops the operation's group with ARITH_CHECK; no tile changes. -/
theorem State.residueFail_stops {s : State} {core : Nat} {o : TileOp} {G : Group} (hG : s.groups[o.g]? = some G) :
    (∀ k, ((s.residueFail core o).core k).tiles = (s.core k).tiles) ∧
      ∃ H, (s.residueFail core o).groups[o.g]? = some H ∧ H.stage ≠ .running ∧ H.v = G.v ∧
        ∃ f ∈ H.faults, f.code = 0x41 ∧ f.late = true ∧ f.info = o.tile := by
  have hlater : ∀ {t : State}, t.Keeps (s.arithCheck core o) → t.Keeps (s.residueFail core o) := fun h => h.countErr.discard _ _
  refine ⟨(hlater (State.Keeps.refl.arithCheck)).tiles, ?_⟩
  obtain ⟨H, hH, hs, hv, hf⟩ := State.groupFault_stops hG (State.Keeps.refl.dropOp.takeBackWord) (hlater (t := s.arithCheck core o) .refl)
  exact ⟨H, hH, hs, hv, _, hf, rfl, rfl, rfl⟩

end Sys2Proof.Machine

/-! # Tile operations, element by element and event by event -/

namespace Sys2Proof

open Machine Host

/-- An element of a row's or column's maximum (11 R285). -/
theorem tileMax_element (t : List Lane32) (col : Bool) {i : Nat} (hi : i < 64) :
    let e := fun (j : Nat) => if col then tileAt t j i else tileAt t i j
    let r := (tileMax col t).getD i 0
    ((∀ j < 64, Fmt.f32.decode (e j) = .nan) → r = 0x7FC00000) ∧
    ((∃ j < 64, Fmt.f32.decode (e j) ≠ .nan) → (∃ j < 64, r = e j) ∧ ∀ j < 64, Fmt.f32.decode (e j) ≠ .nan → atMost (e j) r) := by
  intro e r
  have hr : r = _ := tileMax_getD col t hi
  rw [hr]
  exact pickF32_codes true 64 e fun j => by cases col <;> exact tileAt_lt _ _ _

/-- The exponential of a finite operand, through its rounded argument. -/
theorem exu_rounded {x : Nat} {s : Bool} {m : Nat} {e : Int} (hx : Fmt.f32.decode x = .fin s m e) (hm : m ≠ 0) :
    ∃ Y : Nat, RoundedTo Y ((Num.fin s m e).rat * (12102203 / 2 ^ 23)) ∧ exu x = exuOf (Fmt.f32.decode Y) :=
  ⟨exuArg s m e, exuArg_rounded s hm e, exu_fin hx⟩

/-- Once an operation is performed its word completes; the tile, the other tiles and the drains stay as the pipe left them. -/
theorem Performed.completes {s s1 : State} {core : Nat} {o : TileOp} {w : OWord} {G : Group} {ws : List RegWrite}
    (h : Performed s s1 core G.gw o ws) (hc : core < s.cores.length) (hG : s.groups[o.g]? = some G) (hr : G.stage = .running)
    (hw : G.outst.find? (fun y => y.id == o.word) = some w) :
    let t := s1.opDone core o ws
    t.mem = s.mem ∧ (t.core core).ops = (s.core core).ops.erase o ∧
      (∃ H, t.groups[o.g]? = some H ∧ H.outst = G.outst.filter fun y => y.id != w.id) ∧
      (∀ n, (t.core core).tile n = (s1.core core).tile n) ∧ (t.core core).drains = (s1.core core).drains := by
  have hG1 : s1.groups[o.g]? = some G := by rw [h.groups, hG]
  obtain ⟨hmem, hg, hops, htile, hdrains⟩ := opDone_running (ws := ws) (h.cores ▸ hc) hG1 hr hw
  refine ⟨hmem.trans h.mem, by rw [hops, h.ops], ⟨_, hg, ?_⟩, htile, hdrains⟩
  rw [Group.release_outst, (G.rewritten_putVar ws).outst]

/-- Settles O45: the arithmetic of one element, then the events of the engine and the port core, each by its lemma above. -/
theorem tileOperationsPerform : Obligations.TileOperationsPerform := by
  unfold Obligations.TileOperationsPerform
  refine ⟨⟨?_, ?_, ?_, ?_, ?_, ?_, ?_⟩, ?_, ?_, ?_, ?_, ?_⟩
  · intro gw A B desc i j acc _ _ _ hacc d ea eb scale pr old
    rw [descMwa_eq]
    intro el added
    have hscale : scale = 2 ^ ((ea : Int) + eb - 268 + descSoff d) := by rw [descSoff_eq]
    rw [hscale]
    refine ⟨fun h => mmaElem_nan acc (descSoff d) (a := tileRow _ _ A _ i) (b := tileRow _ _ B _ j) h,
      fun ha hb => ⟨mmaElem_pt_rows gw _ _ _ _ i j A B _ hacc ha hb, _, fun k _ => code_mtProduct ea eb _ (pr k),
        mmaElem_mt_largest gw _ _ _ _ i j A B _ hacc ha hb⟩, ?_, ?_, ?_,
      _, fun k _ => halfSum_rounded gw i j A B k, mmaElem_mp_least gw _ _ _ _ i j A B _ hacc⟩
    · have := mmaElem_px acc (descSoff d) (a := tileRow (descFillm d) (d % 16) A (gw / 8) i) (b := tileRow (descFillm d) (descMwb d) B (gw / 8) j) hacc
      rwa [popc256_tileRows] at this
    · rintro ⟨b, hb, h1, h2⟩
      refine (mmaElem_oa acc _).trans (if_neg fun h => ?_)
      simp [(codes_disjoint gw _ _ _ _ i j A B).1 h b hb h1] at h2
    · exact fun h => (mmaElem_oa acc _).trans (if_pos ((codes_disjoint gw _ _ _ _ i j A B).2 h))
  · exact fun x f g _ _ _ s m e s' m' e' s2 m2 e2 hx hf hg h0 => sclElem_rounded hx hf hg h0
  · exact fun t col i hi => tileMax_element t col hi
  · exact mem_rdWrites
  · intro gw d old mrg act frag ms q l hq hl hms m o
    have hm : m < 2 ^ 32 := getD_lt hms _
    obtain ⟨hlt, hboth, hnan, hold⟩ := pickF32_pair hm (BitVec.isLt (((old.getD q ⟨[], ⟨0#64, 0#16⟩⟩).lanes.getD l 0#32)))
    refine ⟨_, mem_maxWrites gw d old mrg act frag ms hq hl, ?_, ?_, ?_, ?_⟩
    · rintro rfl
      exact toNat_ofNat_lt hm
    all_goals
      rintro rfl
      rw [if_pos rfl, toNat_ofNat_lt hlt]
    · exact hboth
    · exact hnan
    · exact hold
  · exact fun s hs => exuRow_close hs
  · intro x _
    refine ⟨exu_nan, fun h => exu_inf h, fun h => exu_inf h, fun s e h => exu_zero h, fun s m e hx hm => ?_⟩
    obtain ⟨Y, hY, hexu⟩ := exu_rounded hx hm
    refine ⟨Y, hY, fun h => by rw [hexu, h]; rfl, fun h => by rw [hexu, h]; rfl, fun s' m' e' h => ?_⟩
    rw [hexu, h]
    exact exuOf_fin s' m' e'
  · intro i s core o w G mma hi hn hc hlen hG hr hw _ t0
    obtain ⟨s1, ws, hexec, h⟩ := perform_eq hi hn hG
    obtain ⟨hmem, hops, ⟨H, hH, houtst⟩, htile, hdrains⟩ := h.completes hc hG hr hw
    refine ⟨_, H, hexec, hmem, hops, hH, houtst, fun n hn => (htile n).trans (h.others n hn), fun ws' hws => ?_, fun r c v hr hc hv => ?_,
      fun a z hop => ⟨by rw [hdrains, h.drains a z hop], ?_⟩⟩
    · obtain ⟨rfl, rfl⟩ := h.reads ws' hws
      exact opDone_eq hG hw
    · rw [htile, h.tile]
      exact tileAfter_at hlen hr hc hv
    · rw [htile, h.tile, hop]
      rfl
  · intro s s' core k d u hd hb
    have hexec : exec (.drainGranuleLand core k) s = execDrainGranuleLand core k s := rfl
    simp only [hexec, execDrainGranuleLand, hd, hb, event_some]
  · intro s s' core k lane va d hd hb
    have hexec : exec (.drainGranuleLand core k) s = execDrainGranuleLand core k s := rfl
    simp only [hexec, execDrainGranuleLand, hd, hb, event_some]
  · intro s core hn
    have hexec : exec (.multiplyPipePerform core true) s = execMultiplyPipePerform core true s := rfl
    rw [hexec, execMultiplyPipePerform, hn, Option.map_none, event_none]
  · intro s core o G w sr d a b hn hop hsr hG hr hw
    obtain ⟨htiles, H, hH, hstage, hv, hf⟩ := State.residueFail_stops (core := core) hG
    have hexec : exec (.multiplyPipePerform core false) s = execMultiplyPipePerform core false s := rfl
    refine ⟨_, H, ?_, Core.tile_congr (htiles core) _, hH, hstage, hv, hf⟩
    rw [hexec, execMultiplyPipePerform, hn, Option.map_some, hop, event_some]
    exact congrArg _ (if_pos (by simp [hsr]))

end Sys2Proof

/-! # Atomics at the home slice (04 R116, 05 R123, 10 R264, R265)

The model performs an `atom` on accesses that carry their operands as bytes, and writes through the state's home memory; the rule folds a
read-modify-write over the memory. `AtomSim` relates the two after each lane. -/

namespace Sys2Proof

open Machine Host

/-! ## Fields of an atomic -/

theorem bitAt_toNat {n : Nat} (x : BitVec n) (i : Nat) : bitAt x.toNat i = x.getLsbD i := by
  rw [bitAt, BitVec.getLsbD, Nat.testBit_eq_decide_div_mod_eq]
  exact Bool.beq_eq_decide_eq _ _

/-- The upper bit of a field of two bits tells whether it is 2 or more. -/
theorem two_le_bitsOf {n : Nat} (x : BitVec n) (lo : Nat) : 2 ≤ bitsOf x.toNat lo 2 ↔ x.getLsbD (lo + 1) = true := by
  rw [← bitAt_toNat, bitAt, beq_iff_eq, bitsOf, Nat.pow_succ 2 lo, ← Nat.div_div_eq_div_mul]
  omega

theorem asSigned_bitsOf_eq_toInt (x : BitVec 32) : asSigned 16 (bitsOf x.toNat 0 16) = (x.setWidth 16).toInt := by
  rw [BitVec.toInt_eq_toNat_cond, BitVec.toNat_setWidth, asSigned, bitsOf]
  simp only [Nat.pow_zero, Nat.div_one, Nat.mod_mod]
  split <;> split <;> omega

theorem fld_scope (b : BitVec 7) : fld b 4 3 = b.toNat / 16 := by
  have hb := b.isLt
  rw [fld, bitsOf]
  omega

/-! ## The checks of an access that passes them (10 R246, R249) -/

theorem offsets_eq (x : Ctx) (mod : BitVec 2) (a : BitVec 7) (imm : Int) (n : Nat) :
    x.offsets mod a imm n = x.part.map fun l => (l, laneOffset x mod a imm n l) := by
  refine List.map_congr_left fun l _ => ?_
  simp [laneOffset, BitVec.toNat_eq]

theorem checkLanes_of_accessOk {r : Nat} {ls : List Nat} {off : Nat → Int} {n : Nat} (h : AccessOk r ls off n) :
    checkLanes r (ls.map fun l => (l, off l)) n = .ok (liveLanes r ls off n, droppedLanes r ls off n) := by
  obtain ⟨hrec, hbounds, hrange, hal⟩ := h
  have hlive : (ls.map fun l => (l, off l)).filter (fun p => recIn r p.2 n) = (ls.filter fun l => recIn r (off l) n).map fun l => (l, off l) := by
    rw [List.filter_map]; rfl
  have hdrop : ((ls.map fun l => (l, off l)).filter fun p => !(recIn r p.2 n)).map (·.1) = droppedLanes r ls off n := by
    rw [List.filter_map, List.map_map]; simp [droppedLanes, Function.comp_def]
  have hstrict : (recStrict r && !(droppedLanes r ls off n).isEmpty) = false := by
    rw [Bool.and_eq_false_imp]
    intro hs
    simpa [droppedLanes] using hbounds hs
  have hin : ∀ p ∈ (ls.filter fun l => recIn r (off l) n).map (fun l => (l, (off l).toNat, recAddr r (off l).toNat)),
      rangeFault p.1 p.2.2 (recAddr r (p.2.1 + n - 1)) = none ∧
      (p.2.2 % n != 0 || (recKind r == 2 && p.2.1 / recRowb r != (p.2.1 + n - 1) / recRowb r)) = false := by
    intro p hp
    obtain ⟨l, hl, rfl⟩ := List.mem_map.1 hp
    obtain ⟨hl, hb⟩ := List.mem_filter.1 hl
    obtain ⟨h1, h2⟩ := hrange l hl hb
    obtain ⟨h3, h4⟩ := hal l hl hb
    refine ⟨by rw [rangeFault, if_neg h1.not_ge, if_neg h2.not_ge], ?_⟩
    by_cases hk : recKind r = 2
    · simp [h3, hk, h4 hk]
    · simp [h3, hk]
  unfold checkLanes
  simp only [hrec, hlive, hdrop, hstrict, Bool.false_eq_true, if_false, List.map_map, Function.comp_def]
  rw [show firstBad _ _ = none from List.findSome?_eq_none_iff.2 fun p hp => (hin p hp).1]
  dsimp only
  rw [show firstBad _ _ = none from List.findSome?_eq_none_iff.2 fun p hp => by simp only [(hin p hp).2, Bool.false_eq_true, if_false]]
  simp [liveLanes]

/-- Every line is translated and no SO access is before it: the access is what its word makes of the lines. -/
theorem access_eq {x : Ctx} {how : How} {reqs : List (Nat × Nat)} {ls : List XLine} (h : x.s.xlateAll x.g x.G x.ten x.pc how reqs = .ok ls)
    (hso : SoFree x ls) (k : List XLine → Res) : x.access how reqs k = k ls := by
  unfold Ctx.access
  rw [h]
  refine if_neg fun hc => ?_
  simp only [Bool.and_eq_true, Bool.or_eq_true, List.any_eq_true, beq_iff_eq] at hc
  obtain ⟨hl, ho | hq⟩ := hc
  · obtain ⟨o, ho, ht⟩ := ho
    rw [(hso hl).1 o ho] at ht
    cases ht
  · rw [(hso hl).2] at hq
    cases hq

/-- A release that finds everything performed lets its word go on. -/
theorem relThen_eq {x : Ctx} {scope : Nat} {un : Bool} (h : releaseFinds x scope un = .ok) (k : Res) : x.relThen scope un k = k := by
  unfold releaseFinds at h
  unfold Ctx.relThen
  by_cases hu : un = true
  · simp [hu]
  by_cases hs : scope = 0
  · cases hf : x.G.fence with
    | none => simp [hu, hs, Ctx.fenced, hf]
    | some n =>
      rw [if_neg hu, if_pos hs, hf] at h
      have hbefore : x.s.relUpTo x.g 4 (fun k => decide (k < n)) = .ok := h
      simp [hu, hs, Ctx.fenced, hf, hbefore]
  · rw [if_neg hu, if_neg hs] at h
    simp [hu, hs, Ctx.released, h]

theorem mem_mkAccs {reqs : List (Nat × Nat)} {ls : List XLine} {n : Nat} {data : Nat → List Byte} {a : Acc} (h : a ∈ mkAccs reqs ls n data) :
    ∃ l ∈ ls, a.pa = l.pa ∧ a.own = l.own ∧ a.size = n := by
  obtain ⟨⟨r, l⟩, hz, rfl⟩ := List.mem_map.1 h
  exact ⟨l, (List.of_mem_zip hz).2, rfl, rfl, rfl⟩

/-! ## The new value (10 R265) -/

theorem asSigned_eq_readElem {w n : Nat} (hn : n < 2 ^ w) : asSigned w n = readElem false w n := by
  rw [asSigned, readElem, Nat.mod_eq_of_lt hn]
  by_cases h : n < 2 ^ (w - 1)
  · simp [h, h.not_ge]
  · simp [h, Nat.not_lt.1 h]

theorem atomNew_eq_rmwRule {op t old x b : Nat} (ho : old < 2 ^ (if t < 2 then 32 else 64)) (hx : x < 2 ^ (if t < 2 then 32 else 64))
    (hb : b < 2 ^ (if t < 2 then 32 else 64)) : atomNew op t old x b = rmwRule op t old x b := by
  have hw : (if 2 ≤ t then 64 else 32) = if t < 2 then 32 else 64 := by split <;> split <;> omega
  have hrd : ∀ n < 2 ^ (if t < 2 then 32 else 64), (if t % 2 == 1 then ((n % 2 ^ (if t < 2 then 32 else 64) : Nat) : Int)
      else asSigned (if t < 2 then 32 else 64) n) = readElem (decide (t % 2 = 1)) (if t < 2 then 32 else 64) n := fun n hn => by
    by_cases ht : t % 2 = 1
    · rw [Nat.mod_eq_of_lt hn]
      simp [ht, readElem]
    · simp only [ht, beq_iff_eq, if_false, decide_false, asSigned_eq_readElem hn]
  unfold atomNew rmwRule
  simp only [hw, hrd _ ho, hrd _ hx, hrd _ hb]
  match op with
  | 0 | 1 | 2 | 3 | 4 | 5 | 6 | 7 => simp
  | n + 8 => simp

theorem Machine.Cells.readLE_lt (m : List Cell) (a n : Nat) : Cells.readLE m a n < 2 ^ (8 * n) := by
  simpa [Cells.readLE] using leNat_lt (Cells.readN m a n)

/-! ## One atomic at the home slice (04 R116) -/

section Home

variable {x : Ctx} {f : M96}

/-- The bytes of a word of the form. -/
def atomBytes (f : M96) : Nat := if f.imm.getLsbD 21 then 8 else 4

theorem atomArg_eq (x : Ctx) (f : M96) (r : BitVec 7) (l : Nat) : x.atomArg f r l = atomOperand x (f.imm.getLsbD 21) r l := by
  unfold Ctx.atomArg atomOperand atomWide
  rw [bitAt_toNat]
  cases f.imm.getLsbD 21 with
  | false => simp [Ctx.v, Ctx.vn]
  | true =>
    simp only [if_true, Ctx.pair, BitVec.toNat_append]
    rw [← Nat.shiftLeft_add_eq_or_of_lt (BitVec.isLt _), Nat.shiftLeft_eq]
    omega

theorem atomOperand_lt (x : Ctx) (f : M96) (r : BitVec 7) (l : Nat) : atomOperand x (f.imm.getLsbD 21) r l < 2 ^ (8 * atomBytes f) := by
  have h0 := (x.vn r.toNat l).isLt
  have h1 := (x.vn (r.toNat + 1) l).isLt
  unfold atomOperand atomBytes
  cases f.imm.getLsbD 21 with
  | false => simpa using h0
  | true => simp only [if_true]; omega

theorem width_atomT (f : M96) : (if atomT f < 2 then 32 else 64) = 8 * atomBytes f := by
  have hw : 2 ≤ atomT f ↔ f.imm.getLsbD 21 = true := two_le_bitsOf f.imm 20
  unfold atomBytes
  by_cases h : f.imm.getLsbD 21 = true
  · rw [if_neg (Nat.not_lt.2 (hw.2 h)), if_pos h]
  · rw [if_pos (Nat.not_le.1 (mt hw.1 h)), if_neg h]

/-- One read-modify-write of the memory, and the old values so far with their lanes. -/
def rmwStep (x : Ctx) (f : M96) (ms : List Cell × List (Nat × Nat)) (a : Acc) : List Cell × List (Nat × Nat) :=
  let old := Cells.readLE ms.1 a.pa (atomBytes f)
  (Cells.writeLE ms.1 a.pa (atomBytes f) (rmwRule (f.imm.toNat / 2 ^ 16 % 16) (f.imm.toNat / 2 ^ 20 % 4) old
    (atomOperand x (f.imm.getLsbD 21) f.c a.lane) (atomOperand x (f.imm.getLsbD 21) f.d a.lane)), ms.2 ++ [(a.lane, old)])

/-- The old value of a lane as the registers of the result take it. -/
def landedOld (f : M96) (p : Nat × Nat) : List RegWrite :=
  (List.range (atomBytes f / 4)).map fun k => .v (f.d.toNat + k) p.1 (BitVec.ofNat 32 (p.2 / 2 ^ (32 * k)))

theorem oldWrites_eq (f : M96) (lane old : Nat) : oldWrites f.d.toNat lane (2 ≤ atomT f) old = landedOld f (lane, old) := by
  have hw : 2 ≤ atomT f ↔ f.imm.getLsbD 21 = true := two_le_bitsOf f.imm 20
  unfold oldWrites landedOld atomBytes regWrites
  simp only [hw]
  cases f.imm.getLsbD 21 <;> simp [List.range_succ]

@[simp] theorem Machine.State.mended_mem (s : State) (pa n : Nat) : (s.mended pa n).mem = s.mem := by unfold State.mended; split <;> rfl
@[simp] theorem Machine.State.mended_groups (s : State) (pa n : Nat) : (s.mended pa n).groups = s.groups := by
  unfold State.mended; split <;> rfl
@[simp] theorem Machine.State.mended_teams (s : State) (pa n : Nat) : (s.mended pa n).teams = s.teams := by unfold State.mended; split <;> rfl

/-- The new value that an access with its operands leaves. -/
theorem atomNew_operands (x : Ctx) (f : M96) (a : Acc) (m : List Cell) :
    atomNew (atomOp f) (atomT f) (Cells.readLE m a.pa (atomBytes f)) (leNat ((x.atomOperands f a).data.take 8))
        (leNat ((x.atomOperands f a).data.drop 8)) =
      rmwRule (f.imm.toNat / 2 ^ 16 % 16) (f.imm.toNat / 2 ^ 20 % 4) (Cells.readLE m a.pa (atomBytes f))
        (atomOperand x (f.imm.getLsbD 21) f.c a.lane) (atomOperand x (f.imm.getLsbD 21) f.d a.lane) := by
  have harg : ∀ r, leNat (leBytes 8 (x.atomArg f r a.lane)) = atomOperand x (f.imm.getLsbD 21) r a.lane := fun r => by
    rw [leNat_leBytes, atomArg_eq]
    refine Nat.mod_eq_of_lt ((atomOperand_lt x f r a.lane).trans_le (Nat.pow_le_pow_right (by decide) ?_))
    unfold atomBytes
    split <;> omega
  have htake : (x.atomOperands f a).data.take 8 = leBytes 8 (x.atomArg f f.c a.lane) := List.take_left' (leBytes_length _ _)
  have hdrop : (x.atomOperands f a).data.drop 8 = leBytes 8 (x.atomArg f f.d a.lane) := List.drop_left' (leBytes_length _ _)
  rw [htake, hdrop, harg, harg]
  refine atomNew_eq_rmwRule ?_ ?_ ?_ <;> rw [width_atomT]
  · exact Cells.readLE_lt _ _ _
  · exact atomOperand_lt x f f.c a.lane
  · exact atomOperand_lt x f f.d a.lane

/-- The atomic of a lane on this device's memory. -/
theorem atomAcc_here (s : State) (core : Nat) (ret : Bool) {a : Acc} (ho : a.own = .here) (hn : a.size = atomBytes f) :
    (s.atomAcc core (atomOp f) (atomT f) ret f.d.toNat (x.atomOperands f a)).1 =
        (if ret then landedOld f (a.lane, Cells.readLE s.mem a.pa (atomBytes f)) else []) ∧
      (s.atomAcc core (atomOp f) (atomT f) ret f.d.toNat (x.atomOperands f a)).2.mem = (rmwStep x f (s.mem, []) a).1 ∧
      (s.atomAcc core (atomOp f) (atomT f) ret f.d.toNat (x.atomOperands f a)).2.groups = s.groups ∧
      (s.atomAcc core (atomOp f) (atomT f) ret f.d.toNat (x.atomOperands f a)).2.teams = s.teams := by
  have hown : (x.atomOperands f a).own = .here := ho
  have hsize : (x.atomOperands f a).size = atomBytes f := hn
  have hnew := atomNew_operands x f a s.mem
  unfold State.atomAcc State.atomHome
  rw [hown, hsize]
  refine ⟨?_, ?_, ?_, ?_⟩
  · rw [← oldWrites_eq]
    rfl
  · refine (State.mended_mem _ _ _).trans ?_
    rw [rmwStep, ← hnew]
    rfl
  · exact State.mended_groups _ _ _
  · exact State.mended_teams _ _ _

end Home

/-! ## The atomics of a word, lane by lane (10 R265) -/

section Fold

variable {x : Ctx} {f : M96}

/-- The lanes performed so far by the model, `r`, and by the rule, `ms`: one memory; the writes are the known ones and the old values. -/
structure AtomSim (f : M96) (ret : Bool) (s : State) (known : List RegWrite) (r : List RegWrite × State) (ms : List Cell × List (Nat × Nat)) :
    Prop where
  mem : r.2.mem = ms.1
  writes : r.1 = known ++ if ret then ms.2.flatMap (landedOld f) else []
  groups : r.2.groups = s.groups
  teams : r.2.teams = s.teams

/-- What the model does for a lane. -/
def atomStep (x : Ctx) (f : M96) (ret : Bool) (r : List RegWrite × State) (a : Acc) : List RegWrite × State :=
  let got := r.2.atomAcc x.G.core (atomOp f) (atomT f) ret f.d.toNat a
  (r.1 ++ got.1, got.2)

theorem AtomSim.step {ret : Bool} {s : State} {known : List RegWrite} {r : List RegWrite × State} {ms : List Cell × List (Nat × Nat)}
    (h : AtomSim f ret s known r ms) {a : Acc} (ho : a.own = .here) (hn : a.size = atomBytes f) :
    AtomSim f ret s known (atomStep x f ret r (x.atomOperands f a)) (rmwStep x f ms a) := by
  obtain ⟨hmem, hwrites, hgroups, hteams⟩ := h
  obtain ⟨h1, h2, h3, h4⟩ := atomAcc_here (x := x) r.2 x.G.core ret ho hn
  refine ⟨h2.trans ?_, ?_, h3.trans hgroups, h4.trans hteams⟩
  · rw [hmem]
    rfl
  · simp only [atomStep, h1, hmem, hwrites, rmwStep]
    cases ret <;> simp

theorem atomSim_foldl {ret : Bool} {s : State} {known : List RegWrite} {as : List Acc}
    (has : ∀ a ∈ as, a.own = .here ∧ a.size = atomBytes f) {r : List RegWrite × State} {ms : List Cell × List (Nat × Nat)}
    (h : AtomSim f ret s known r ms) :
    AtomSim f ret s known ((as.map (x.atomOperands f)).foldl (atomStep x f ret) r) (as.foldl (rmwStep x f) ms) := by
  induction as generalizing r ms with
  | nil => exact h
  | cons a as ih =>
    obtain ⟨ho, hn⟩ := has a List.mem_cons_self
    exact ih (fun b hb => has b (List.mem_cons_of_mem a hb)) (h.step ho hn)

/-- Outside the words every byte reads as before. -/
theorem read_foldl_rmwStep {as : List Acc} {b : Nat} (hb : ∀ a ∈ as, b < a.pa ∨ a.pa + atomBytes f ≤ b)
    {ms : List Cell × List (Nat × Nat)} (hw : Cells.wf ms.1 = true) :
    Cells.read (as.foldl (rmwStep x f) ms).1 b = Cells.read ms.1 b := by
  induction as generalizing ms with
  | nil => rfl
  | cons a as ih =>
    have hout := hb a List.mem_cons_self
    rw [List.foldl_cons, ih (fun c hc => hb c (List.mem_cons_of_mem a hc)) (Cells.writeLE_wf hw _ _ _)]
    exact Cells.read_writeN_outside hw (by simpa using hout)

end Fold

theorem Machine.Group.Rewritten.seq {G H : Group} (h : G.Rewritten H) : H.seq = G.seq := by
  obtain ⟨⟨_, _, _, _, _, _, _, _, rfl⟩, -⟩ := h
  rfl

theorem SameRegisters.v {G H : Group} (h : SameRegisters G H) : H.v = G.v := by
  obtain ⟨hv, -⟩ := h
  exact hv

/-! ## What an issue leaves of the machine -/

section Leaves

variable {i : Instr} {c : Ctl} {s s' : State} {g : Nat} {pc : Word} {G0 H0 : Group}

/-- A word that is complete at issue changes no register of its group, and nothing of the memory, the teams and the other groups. -/
theorem issued_go_leaves (h : s'.groups[g]? = some H0) : ∃ t H, issued i c s g pc G0 (.go s') = t ∧ t.mem = s'.mem ∧ t.teams = s'.teams ∧
    (∀ k, k ≠ g → t.groups[k]? = s'.groups[k]?) ∧ t.groups[g]? = some H ∧ SameRegisters H0 H := by
  obtain ⟨H, hH, hregs, -⟩ := issued_go_group i c s pc G0 h
  exact ⟨_, H, rfl, rfl, rfl, fun k hk => issued_go_groups_ne i c s s' pc G0 hk, hH, hregs⟩

/-- A word whose result is on its way joins the outstanding words of its group; it changes nothing of the memory, the teams and the other
groups. -/
theorem issued_out_leaves {o : OWord} (h : s'.groups[g]? = some H0) : ∃ t H, issued i c s g pc G0 (.out s' o) = t ∧ t.mem = s'.mem ∧
    t.teams = s'.teams ∧ (∀ k, k ≠ g → t.groups[k]? = s'.groups[k]?) ∧ t.groups[g]? = some H ∧ H.outst = H0.outst ++ [o] := by
  have hadd : ∃ K, (addWord (ctxAt i c s g pc G0) o s').groups[g]? = some K ∧ K.outst = H0.outst ++ [o] :=
    ⟨_, (modAt_get_self _ _ _).trans (congrArg (Option.map _) h), rfl⟩
  obtain ⟨K, hK, ho⟩ := hadd
  obtain ⟨t, H, ht, hmem, hteams, hne, hH, hregs⟩ := issued_go_leaves (i := i) (c := c) (s := s) (pc := pc) (G0 := G0) hK
  exact ⟨t, H, ht, hmem, hteams, fun k hk => (hne k hk).trans (modAt_get_ne _ _ hk.symm), hH, hregs.outst.trans ho⟩

end Leaves

@[simp] theorem Machine.State.l1Acquire_teams (s : State) (c scope : Nat) : (s.l1Acquire c scope).teams = s.teams := by
  unfold State.l1Acquire; split <;> rfl

/-! ## The word -/

/-- Where no access is a peer's, every one is performed at issue. -/
theorem atomNow_eq {as : List Acc} (h : ∀ a ∈ as, isPeer a = false) : atomNow as = as := by
  unfold atomNow
  have hso : (as.filter fun a => a.kind == .so).takeWhile (fun a => !isPeer a) = as.filter fun a => a.kind == .so :=
    List.takeWhile_eq_self_iff.2 fun a ha => by simp [h a (List.mem_filter.1 ha).1]
  refine List.filter_eq_self.2 fun a ha => ?_
  by_cases hk : a.kind = .so <;> simp [hso, h a ha, hk, ha]

theorem firstPoison_eq_none {s : State} {as : List Acc} (h : ∀ a ∈ as, s.poisoned a.pa = false) : firstPoison s as = none := by
  refine List.find?_eq_none.2 fun a ha => ?_
  cases a.own <;> simp [h a ha]

/-! ### Operands change nothing of where an access lies -/

section Operands

variable (x : Ctx) (f : M96) (as : List Acc)

theorem unAll_atomOperands : unAll (as.map (x.atomOperands f)) = unAll as := by simp [unAll, Function.comp_def, Ctx.atomOperands]

theorem touches_atomOperands (G : Group) : G.touches (as.map (x.atomOperands f)) = G.touches as := by
  rw [Group.touches, List.map_map]
  rfl

theorem fits_atomOperands : x.fits (as.map (x.atomOperands f)) = x.fits as := by rw [Ctx.fits, Ctx.fits, List.length_map]

end Operands

section Word

variable {c : Ctl} {f : M96} {s : State} {g : Nat} {pc : Word} {G0 : Group} {x : Ctx} {ls : List XLine}

/-- The lanes' offsets of an `atom`. -/
def atomOffset (f : M96) (x : Ctx) : Nat → Int := laneOffset x f.mod f.a (f.imm.setWidth 16).toInt (atomBytes f)

/-- Its lanes in bounds, with their addresses; the dropped lanes; and its accesses. -/
def atomLive (f : M96) (x : Ctx) : List (Nat × Nat) := liveLanes (x.breg f.b).toNat x.part (atomOffset f x) (atomBytes f)
def atomDropped (f : M96) (x : Ctx) : List Nat := droppedLanes (x.breg f.b).toNat x.part (atomOffset f x) (atomBytes f)
def atomAccs (f : M96) (x : Ctx) (ls : List XLine) : List Acc := mkAccs (atomLive f x) ls (atomBytes f) fun _ => []

/-- What an `atom` writes before its first lane: the tags of its result, and zeros in the lanes out of bounds. -/
def atomKnown (f : M96) (x : Ctx) : List RegWrite := x.known f.d.toNat (atomBytes f / 4) (atomDropped f x)

/-- The writes and the state after the last lane. -/
def atomPerformed (f : M96) (x : Ctx) (ls : List XLine) (ret : Bool) : List RegWrite × State :=
  ((atomAccs f x ls).map (x.atomOperands f)).foldl (atomStep x f ret) (if ret then atomKnown f x else [], x.s)

/-- The scope of the acquire that the form carries, 0 for none. -/
def atomAcquire (f : M96) (un : Bool) : Nat := if atomSem f % 2 == 1 && !un then fld f.b 4 3 else 0

theorem atomBytes_eq (f : M96) : (if atomWide f = true then 8 else 4) = atomBytes f := by
  rw [atomWide, bitAt_toNat]
  rfl

theorem atomRegs_eq (f : M96) : (if atomWide f = true then 2 else 1) = atomBytes f / 4 := by
  rw [← atomBytes_eq]
  split <;> rfl

/-- The scope of the release that the form carries, 0 for none. -/
theorem atomRelease_eq (f : M96) : (if 2 ≤ atomSem f then fld f.b 4 3 else 0) = if f.imm.getLsbD 23 = true then f.b.toNat / 16 else 0 := by
  rw [fld_scope]
  exact if_congr (two_le_bitsOf f.imm 22) rfl rfl

theorem checkLanes_atom (hok : AccessOk (x.breg f.b).toNat x.part (atomOffset f x) (atomBytes f)) :
    checkLanes (x.breg f.b).toNat (x.offsets f.mod f.a (atomImm f) (atomBytes f)) (atomBytes f) = .ok (atomLive f x, atomDropped f x) := by
  rw [offsets_eq, show atomImm f = (f.imm.setWidth 16).toInt from asSigned_bitsOf_eq_toInt f.imm]
  exact checkLanes_of_accessOk hok

theorem atomAccs_here (hhere : ∀ l ∈ ls, l.own = .here ∧ s.poisoned l.pa = false) {a : Acc}
    (ha : a ∈ (atomAccs f x ls).map (x.atomOperands f)) : isPeer a = false ∧ s.poisoned a.pa = false := by
  obtain ⟨b, hb, rfl⟩ := List.mem_map.1 ha
  obtain ⟨l, hl, hpa, hown, -⟩ := mem_mkAccs hb
  obtain ⟨ho, hp⟩ := hhere l hl
  exact ⟨by simp [isPeer, Ctx.atomOperands, hown, ho], by rwa [show (x.atomOperands f b).pa = l.pa from hpa]⟩

/-- An `atom` whose lanes pass their checks, all on this device's memory, performs them and answers. -/
theorem atom_answers (h : Performs (.atom c f) c s g pc G0) (hx : x = ctxAt (.atom c f) c s g pc G0)
    (hok : AccessOk (x.breg f.b).toNat x.part (atomOffset f x) (atomBytes f))
    (hls : x.s.xlateAll g x.G x.ten pc (.atomic (atomHostOk (atomOp f))) (atomLive f x) = .ok ls) (hso : SoFree x ls)
    (hhere : ∀ l ∈ ls, l.own = .here ∧ s.poisoned l.pa = false) (hclear : unAll (atomAccs f x ls) = true ∨ x.G.clear = true)
    (htouch : x.G.touches (atomAccs f x ls) = false) (hfits : x.fits (atomAccs f x ls) = true)
    (hrel : releaseFinds x (if f.imm.getLsbD 23 then f.b.toNat / 16 else 0) (unAll (atomAccs f x ls)) = .ok) :
    Answers (.atom c f) c s g pc G0 (
      if f.imm.getLsbD 24 then
        .out (atomPerformed f x ls true).2
          { x.oword (vset f.d (atomBytes f / 4)) (.land (atomPerformed f x ls true).1) with acq := atomAcquire f (unAll (atomAccs f x ls)) }
      else .go ((atomPerformed f x ls false).2.l1Acquire x.G.core (atomAcquire f (unAll (atomAccs f x ls))))) := by
  refine answers_of_word h.toIssues (rfl : execAtom c f s = _) ?_
  have hpart : x.part.isEmpty = false := by rw [hx]; simpa [ctxAt_part] using h.part
  have hret : atomRet f = f.imm.getLsbD 24 := bitAt_toNat _ _
  have hlines : x.s.xlateAll x.g x.G x.ten x.pc (.atomic (atomHostOk (atomOp f))) (atomLive f x) = .ok ls := by
    rw [← hls, show x.g = g by rw [hx]; rfl, show x.pc = pc by rw [hx]; rfl]
  have hfree : (!(unAll (atomAccs f x ls)) && !x.G.clear) = false := by
    rcases hclear with hu | hc
    · simp [hu]
    · simp [hc]
  have hpeer : ∀ a ∈ (atomAccs f x ls).map (x.atomOperands f), isPeer a = false := fun a ha => (atomAccs_here hhere ha).1
  have hpoison : firstPoison x.s ((atomAccs f x ls).map (x.atomOperands f)) = none :=
    firstPoison_eq_none fun a ha => by rw [hx]; exact (atomAccs_here hhere ha).2
  rw [← hx]
  dsimp only
  rw [hpart, atomBytes_eq, atomRegs_eq, checkLanes_atom hok]
  simp only [Bool.false_eq_true, if_false]
  rw [access_eq hlines hso, show mkAccs (atomLive f x) ls (atomBytes f) (fun _ => []) = atomAccs f x ls from rfl, unAll_atomOperands,
    touches_atomOperands, fits_atomOperands, htouch, hfits, hfree, atomRelease_eq]
  simp only [Bool.not_true, Bool.or_self, Bool.false_eq_true, if_false]
  rw [relThen_eq hrel, List.filter_eq_self.2 fun a ha => by rw [hpeer a ha]; rfl, hpoison]
  dsimp only
  rw [atomNow_eq hpeer, hret, List.filter_eq_nil_iff.2 fun a ha => by simp [ha]]
  cases f.imm.getLsbD 24 <;> rfl

end Word

/-- Settles O39: the word answers with its lanes performed (`atom_answers`), and lane by lane the model's memory and old values are those of the
rule (`atomSim_foldl`). -/
theorem atomicsAtTheHome : Obligations.AtomicsAtTheHome := by
  unfold Obligations.AtomicsAtTheHome
  intro c f s g pc G0 ls h x wide n r off op as scope hok hls hso hhere hclear htouch hfits hrel hwf run
  have hans := atom_answers h (x := x) rfl hok hls hso hhere hclear htouch hfits hrel
  have hsize : ∀ a ∈ as, a.own = .here ∧ a.size = atomBytes f := fun a ha => by
    obtain ⟨l, hl, -, ho, hn⟩ := mem_mkAccs ha
    exact ⟨ho.trans (hhere l hl).1, hn⟩
  have hsim : ∀ ret, AtomSim f ret x.s (if ret then atomKnown f x else []) (atomPerformed f x ls ret) run := fun ret =>
    atomSim_foldl (x := x) hsize ⟨rfl, by cases ret <;> simp, rfl, rfl⟩
  have hgroup : x.s.groups[g]? = some x.G := ctxAt_group _ h.group
  have hne : ∀ k, k ≠ g → x.s.groups[k]? = s.groups[k]? := fun k hk => modAt_get_ne _ _ hk.symm
  have hread : ∀ b : Nat, (∀ a ∈ as, b < a.pa ∨ a.pa + n ≤ b) → Cells.read run.1 b = Cells.read s.mem b := fun b hb =>
    read_foldl_rmwStep (x := x) hb hwf
  by_cases hret : f.imm.getLsbD 24 = true
  · obtain ⟨hmem, hwrites, hgroups, hteams⟩ := hsim true
    rw [if_pos hret] at hans
    obtain ⟨t, H, ht, htm, htt, htn, hH, hout⟩ := issued_out_leaves (hgroups ▸ hgroup)
    rw [Answers, ht] at hans
    refine ⟨t, H, hans, htm.trans hmem, hH, fun b hb => ?_, fun hf => absurd (hf.symm.trans hret) (by decide),
      fun _ => ⟨_, hout, (rewritten_readGroup c G0).seq, congrArg OKind.land hwrites⟩, fun k hk => ?_, htt.trans hteams⟩
    · rw [htm, hmem, hread b hb]
    · rw [htn k hk, hgroups, hne k hk]
  · obtain ⟨hmem, -, hgroups, hteams⟩ := hsim false
    rw [if_neg hret] at hans
    obtain ⟨t, H, ht, htm, htt, htn, hH, hregs⟩ :=
      issued_go_leaves ((congrArg (·[g]?) (State.l1Acquire_groups _ _ _)).trans (hgroups ▸ hgroup))
    rw [Answers, ht] at hans
    rw [State.l1Acquire_mem, hmem] at htm
    rw [State.l1Acquire_teams, hteams] at htt
    refine ⟨t, H, hans, htm, hH, fun b hb => ?_, fun _ => ⟨hregs.outst, hregs.v⟩, fun hr => absurd hr hret, fun k hk => ?_, htt⟩
    · rw [htm, hread b hb]
    · rw [htn k hk, State.l1Acquire_groups, hgroups, hne k hk]

end Sys2Proof

/-! # A lane that stores in an earlier round than a lane before it (10 R263)

A round of a scratchpad instruction takes the lanes, in lane order, whose pages fit among eight, and leaves a lane that does not fit to the next
round. The lanes behind it that fit are still taken, so where the bytes of two lanes overlap the later lane may store first. -/

namespace Sys2Proof

open Machine Host

def roundsCtl : Ctl := ⟨0#4, false, false, 7#3, 7#3, 0#6, 0#4⟩

/-- A plain store of 4 bytes, of v2, at the offsets in v1. -/
def roundsForm : M96 := ⟨2#7, 1#7, 0#7, 0x40#7, 0#2, 0#32⟩

def roundsStore : Instr := .sts roundsCtl roundsForm

/-- Six lanes. Lanes 0 to 3 store across pages 0 to 7, two pages each; lane 4 stores 0 at 32766, across pages 7 and 8; lane 5 stores ones at 32764,
in page 7, which is among the eight pages of the first round. -/
def roundsGroup : Group :=
  { Group.zero with
    lanes := List.replicate 6 ⟨0#64, 1#64, 0#7, .active, 0⟩
    v := [⟨[], ⟨0#64, 0#16⟩⟩, ⟨[4094#32, 12286#32, 20478#32, 28670#32, 32766#32, 32764#32], ⟨0#64, 0#16⟩⟩,
      ⟨List.replicate 5 0#32 ++ [0xFFFFFFFF#32], ⟨0#64, 0#16⟩⟩]
    stage := .running }

/-- The group's nine pages are resident in the one core. -/
def roundsState : State :=
  { State.reset with
    groups := [roundsGroup]
    teams := [{ Team.zero with life := .running, cores := [0] }]
    launches := [{ Launch.zero with hdr := { Header.zero with scr := 9 } }]
    cores := [{ Machine.Core.reset with frames := (List.range 9).map fun p => ⟨p, 0, p, [], 0#256, 0, []⟩ }]
    cur := some (0, 0#64) }

/-- What the store sees. -/
def roundsCtx : Ctx := ctxAt roundsStore roundsCtl roundsState 0 0#64 roundsGroup

def roundsOffset (l : Nat) : Int := laneOffset roundsCtx roundsForm.mod roundsForm.a roundsForm.imm.toInt 4 l

theorem roundsStore_performs : Performs roundsStore roundsCtl roundsState 0 0#64 roundsGroup where
  cur := rfl
  group := rfl
  frag := by decide
  running := rfl
  life := rfl
  ready := by unfold Ready; decide
  legal := by unfold Legal; decide
  part := by decide

theorem roundsCtx_part : roundsCtx.part = [0, 1, 2, 3, 4, 5] := by decide

theorem roundsStore_scratchOk : ScratchOk roundsStore roundsCtx true 4 roundsOffset := by
  have hspace : ∀ l ∈ roundsCtx.part, 0 ≤ roundsOffset l ∧ roundsOffset l + (4 : Nat) ≤ spaceOf roundsCtx true := by decide
  exact fun l hl => ⟨(hspace l hl).1, (hspace l hl).2, fun h => absurd h.1 (by decide)⟩

theorem roundsStore_whole : ∀ l ∈ roundsCtx.part, Whole roundsCtx (spaceBase roundsCtx true + (roundsOffset l).toNat) 4 := by
  unfold Whole Resident
  decide

/-- The byte at an address of a team's space after a step. -/
def byteAfter (o : Outcome State Fault Refusal) (tid addr : Nat) : Option Byte :=
  match o with
  | .next t => some (t.spRead1 tid addr)
  | _ => none

/-- Lane 4, whose turn comes in the second round, stores over what lane 5 has stored in the first. -/
theorem byteAfter_roundsStore : byteAfter (exec roundsStore roundsState) 0 32766 = some 0#8 := by decide +kernel

/-- Refutes O42: its third clause, of stores, by which a byte that no later lane stores to is the lane's own. Of `roundsStore` lane 5 is the last
lane, and the third of its bytes is lane 4's. -/
theorem not_scratchpadWords : ¬ Obligations.ScratchpadWords := by
  unfold Obligations.ScratchpadWords
  rintro ⟨-, -, hstores, -⟩
  obtain ⟨t, -, ht, -, -, hbytes, -⟩ := hstores roundsStore roundsCtl roundsForm roundsState 0 0#64 roundsGroup true 4 _ (.inl rfl) rfl
    roundsStore_performs roundsStore_scratchOk roundsStore_whole rfl ⟨rfl, rfl⟩ rfl (by decide)
  have hlast : ∀ m ∈ roundsCtx.part, ¬ 5 < m := by rw [roundsCtx_part]; decide
  have hbyte : t.spRead1 0 32766 = 0xFF#8 := hbytes 5 (by decide) 2 (by decide) fun m hm hlt => absurd hlt (hlast m hm)
  have hmodel := byteAfter_roundsStore
  rw [ht, byteAfter, hbyte] at hmodel
  exact absurd hmodel (by decide)

end Sys2Proof

/-! # Bits that decode are encoded back (06 R152, R157, R167, R171, R172) -/

namespace Sys2Proof

open Machine

/-! ## Fields side by side -/

theorem bitsOf_lt (w lo n : Nat) : bitsOf w lo n < 2 ^ n := Nat.mod_lt _ (Nat.two_pow_pos n)

@[simp] theorem toNat_ofNat_bitsOf (w lo n : Nat) : (BitVec.ofNat n (bitsOf w lo n)).toNat = bitsOf w lo n := by
  rw [BitVec.toNat_ofNat, Nat.mod_eq_of_lt (bitsOf_lt w lo n)]

@[simp] theorem toNat_bitAt (w i : Nat) : (bitAt w i).toNat = bitsOf w i 1 := by
  unfold bitAt bitsOf
  rcases Nat.mod_two_eq_zero_or_one (w / 2 ^ i) with h | h <;> simp [h]

/-- The number that the fields of widths `ns` make which stand side by side from bit `lo`. -/
def fieldsFrom (w lo : Nat) : List Nat → Nat
  | [] => 0
  | n :: ns => bitsOf w lo n + 2 ^ n * fieldsFrom w (lo + n) ns

/-- A field is the number that its parts make. -/
theorem bitsOf_eq_fieldsFrom {w lo n : Nat} (ns : List Nat) (h : ns.sum = n) : bitsOf w lo n = fieldsFrom w lo ns := by
  subst h
  induction ns generalizing lo with
  | nil => simp [fieldsFrom, bitsOf, Nat.mod_one]
  | cons n ns ih =>
    rw [fieldsFrom, ← ih, List.sum_cons]
    unfold bitsOf
    rw [Nat.pow_add, Nat.pow_add, ← Nat.div_div_eq_div_mul, Nat.mod_mul]

/-! ## The parts of a word encoded as they were read -/

theorem encodeCtl_decodeCtl (w : Nat) : encodeCtl (decodeCtl w) (bitsOf w 0 2) = bitsOf w 0 24 := by
  rw [bitsOf_eq_fieldsFrom (n := 24) [2, 4, 6, 3, 3, 1, 1, 4] rfl]
  simp only [encodeCtl, decodeCtl, toNat_ofNat_bitsOf, toNat_bitAt, fieldsFrom, Nat.reduceAdd]
  ring

/-- The body is what the decoder of its layout reads in `w`. -/
def Body.ReadFrom (w : Nat) : Body → Prop
  | .f64 f => f = decodeF64 w
  | .j64 f => f = decodeJ64 w
  | .m96 f => f = decodeM96 w
  | .w128 f => f = decodeW128 w

/-- A body fills its word above the opcode (06 R157). -/
theorem encodeBody_of_readFrom {w : Nat} {b : Body} (h : b.ReadFrom w) :
    encodeBody b = bitsOf w 34 (30 + 32 * b.len) * 2 ^ 34 := by
  cases b with
  | f64 f =>
    obtain rfl : f = decodeF64 w := h
    rw [bitsOf_eq_fieldsFrom [7, 7, 7, 7, 2] (by rfl)]
    simp only [encodeBody, decodeF64, toNat_ofNat_bitsOf, fieldsFrom, Nat.reduceAdd]
    ring
  | j64 f =>
    obtain rfl : f = decodeJ64 w := h
    rw [bitsOf_eq_fieldsFrom [28, 2] (by rfl)]
    simp only [encodeBody, decodeJ64, toNat_ofNat_bitsOf, fieldsFrom, Nat.reduceAdd]
    ring
  | m96 f =>
    obtain rfl : f = decodeM96 w := h
    rw [bitsOf_eq_fieldsFrom [7, 7, 7, 7, 2, 32] (by rfl)]
    simp only [encodeBody, decodeM96, toNat_ofNat_bitsOf, fieldsFrom, Nat.reduceAdd]
    ring
  | w128 f =>
    obtain rfl : f = decodeW128 w := h
    rw [bitsOf_eq_fieldsFrom [7, 7, 7, 7, 2, 32, 32] (by rfl)]
    simp only [encodeBody, decodeW128, toNat_ofNat_bitsOf, fieldsFrom, Nat.reduceAdd]
    ring

/-- POP1 is put together from its two parts, and taken apart again (06 R167). -/
theorem decodePair_pop1 (w : Nat) :
    (decodePair w).pop1.toNat / 2 ^ 6 = bitsOf w 24 2 ∧ (decodePair w).pop1.toNat % 2 ^ 6 = bitsOf w 62 6 := by
  have hlow := bitsOf_lt w 62 6
  have hhigh := bitsOf_lt w 24 2
  simp only [decodePair, BitVec.toNat_ofNat]
  omega

/-- Two slots fill a paired word above the control field (06 R167). -/
theorem encodePair_decodePair (w : Nat) : encodePair (decodePair w) = bitsOf w 24 72 * 2 ^ 24 := by
  obtain ⟨hhigh, hlow⟩ := decodePair_pop1 w
  rw [encodePair, hhigh, hlow, bitsOf_eq_fieldsFrom (n := 72) [2, 8, 7, 7, 7, 7, 6, 7, 7, 7, 7] rfl]
  simp only [decodePair, toNat_ofNat_bitsOf, fieldsFrom, Nat.reduceAdd]
  ring

/-! ## The opcode map inverted (06 R171) -/

/-- Each entry of a table makes an instruction of the entry's opcode, whose body has the table's layout. -/
def Inverted {F : Type} (body : F → Body) (ops : List (Nat × (Ctl → F → Instr))) : Prop :=
  ∀ e ∈ ops, ∀ c f, (e.2 c f).parts = some (e.1, c, body f)

section Inverted

variable {F : Type} {body : F → Body} {n : Nat} {k : Ctl → F → Instr} {ops ops' : List (Nat × (Ctl → F → Instr))}

theorem inverted_nil : Inverted body [] := fun _ h => absurd h List.not_mem_nil

theorem inverted_cons : Inverted body ((n, k) :: ops) ↔ (∀ c f, (k c f).parts = some (n, c, body f)) ∧ Inverted body ops :=
  List.forall_mem_cons

theorem inverted_append : Inverted body (ops ++ ops') ↔ Inverted body ops ∧ Inverted body ops' := List.forall_mem_append

theorem Inverted.parts (h : Inverted body ops) (hl : ops.lookup n = some k) (c : Ctl) (f : F) : (k c f).parts = some (n, c, body f) := by
  obtain ⟨before, after, rfl, -⟩ := List.lookup_eq_some_iff.1 hl
  exact h (n, k) (List.mem_append_right _ List.mem_cons_self) c f

end Inverted

/-- Where MOD tells two instructions of one opcode apart, both have that opcode. -/
theorem inverted_opsF64 : Inverted .f64 opsF64 := by
  simp only [opsF64, List.flatten_cons, List.flatten_nil, List.append_nil, inverted_append, inverted_cons, inverted_nil, and_true]
  and_intros <;> intro c f <;> (repeat' split) <;> rfl

theorem inverted_opsJ64 : Inverted .j64 opsJ64 := by
  simp only [opsJ64, List.flatten_cons, List.flatten_nil, List.append_nil, inverted_cons, inverted_nil, and_true]
  and_intros <;> exact fun c f => rfl

theorem inverted_opsM96 : Inverted .m96 opsM96 := by
  simp only [opsM96, List.flatten_cons, List.flatten_nil, List.append_nil, inverted_append, inverted_cons, inverted_nil, and_true]
  and_intros <;> exact fun c f => rfl

theorem inverted_opsW128 : Inverted .w128 opsW128 := by
  simp only [opsW128, List.flatten_cons, List.flatten_nil, List.append_nil, inverted_cons, inverted_nil, and_true]
  and_intros <;> exact fun c f => rfl

/-! ## What decodes -/

/-- What `i` is where the bits `w` decode to it: the pair of slots that stand in them, or an instruction of the opcode, the control
field and the body that stand in them. -/
inductive Decoded (w : Nat) : Instr → Prop
  | paired : bitsOf w 0 2 = 1 → Decoded w (.paired (decodeCtl w) (decodePair w))
  | single {i : Instr} (b : Body) : bitsOf w 0 2 = b.len → b.ReadFrom w → i.parts = some (bitsOf w 24 10, decodeCtl w, b) → Decoded w i

theorem decoded_of_decodeBits {w : Nat} {i : Instr} (h : decodeBits w = .ok i) : Decoded w i := by
  have hlen := bitsOf_lt w 0 2
  simp only [decodeBits, beq_iff_eq] at h
  split at h
  · cases h
  next h3 =>
  split at h
  · next hp =>
    simp only [Bool.and_eq_true, beq_iff_eq] at hp
    split at h
    · cases h
      exact .paired hp.1
    · cases h
  split at h
  · cases h
  split at h
  · next h0 =>
    split at h
    · next k hk =>
      cases h
      exact .single (.f64 _) h0 rfl (inverted_opsF64.parts hk _ _)
    · split at h
      · next k hk =>
        cases h
        exact .single (.j64 _) h0 rfl (inverted_opsJ64.parts hk _ _)
      · cases h
  next h0 =>
  split at h
  · next h1 =>
    split at h
    · next k hk =>
      cases h
      exact .single (.m96 _) h1 rfl (inverted_opsM96.parts hk _ _)
    · cases h
  next h1 =>
  have h2 : bitsOf w 0 2 = 2 := by omega
  split at h
  · next k hk =>
    cases h
    exact .single (.w128 _) h2 rfl (inverted_opsW128.parts hk _ _)
  · cases h

theorem encodeBits_of_parts {i : Instr} {opc : Nat} {c : Ctl} {b : Body} (h : i.parts = some (opc, c, b)) :
    encodeBits i = some (encodeCtl c b.len + opc * 2 ^ 24 + encodeBody b) := by
  unfold encodeBits
  split
  · cases h
  · rw [h]

theorem len_of_parts {i : Instr} {opc : Nat} {c : Ctl} {b : Body} (h : i.parts = some (opc, c, b)) : i.len = b.len := by
  unfold Instr.len
  split
  · cases h
  · rw [h]

/-- An instruction is 8, 12 or 16 bytes long (06 R152). -/
theorem size_eq (i : Instr) : i.size = 8 + 4 * i.len := by
  have hl := i.len_lt
  unfold Instr.size
  interval_cases i.len <;> rfl

theorem mod_eq_bitsOf (w n : Nat) : w % 2 ^ n = bitsOf w 0 n := by rw [bitsOf, Nat.pow_zero, Nat.div_one]

/-- Settles O2: the fields that `Decoded` names, encoded as they were read, stand side by side and fill the word. -/
theorem encodeOfDecode : Obligations.EncodeOfDecode := by
  unfold Obligations.EncodeOfDecode
  intro w i h
  rw [mod_eq_bitsOf, size_eq]
  cases decoded_of_decodeBits h with
  | paired h1 =>
    have hsum : bitsOf w 0 96 = bitsOf w 0 24 + bitsOf w 24 72 * 2 ^ 24 := by
      rw [bitsOf_eq_fieldsFrom (n := 96) [24, 72] rfl]
      simp only [fieldsFrom]
      ring
    rw [encodeBits, ← h1, encodeCtl_decodeCtl, encodePair_decodePair, ← hsum]
    rfl
  | single b hb hread hparts =>
    have hsum : bitsOf w 0 (8 * (8 + 4 * b.len)) =
        bitsOf w 0 24 + bitsOf w 24 10 * 2 ^ 24 + bitsOf w 34 (30 + 32 * b.len) * 2 ^ 34 := by
      rw [bitsOf_eq_fieldsFrom [24, 10, 30 + 32 * b.len] (by simp; omega)]
      simp only [fieldsFrom, Nat.reduceAdd]
      ring
    rw [encodeBits_of_parts hparts, len_of_parts hparts, ← hb, encodeCtl_decodeCtl, hb, encodeBody_of_readFrom hread, hsum]

/-- Settles O1: `decodeBits_encodeBits`, which takes the layouts one by one. -/
theorem decodeOfEncode : Obligations.DecodeOfEncode := by
  unfold Obligations.DecodeOfEncode
  exact fun i w hi hp hw => decodeBits_encodeBits hi hp hw

/-- Settles O3: the decoder evaluated at each word. -/
theorem decodeWords : Obligations.DecodeWords := by
  unfold Obligations.DecodeWords
  and_intros <;> rfl

/-! ## Lengths and bytes (06 R152) -/

theorem natToBytes_eq (n w : Nat) : natToBytes n w = leBytes n w := by
  induction n generalizing w with
  | zero => rfl
  | succ n ih =>
    rw [natToBytes, leBytes, ih]
    congr 1
    exact BitVec.eq_of_toNat_eq (by simp)

theorem bytesToNat_eq (bs : List Byte) : bytesToNat bs = leNat bs := by
  induction bs with
  | nil => rfl
  | cons b bs ih => rw [bytesToNat, leNat, ih]

theorem len_of_decodeBits {w : Nat} {i : Instr} (h : decodeBits w = .ok i) : w % 4 = i.len := by
  rw [show (4 : Nat) = 2 ^ 2 from rfl, mod_eq_bitsOf]
  cases decoded_of_decodeBits h with
  | paired h1 => exact h1
  | single b hb _ hparts => rw [hb, len_of_parts hparts]

/-- Settles O4: the length code is that of the layout that was decoded, and little-endian bytes are read back (`leNat_leBytes`). -/
theorem instructionLength : Obligations.InstructionLength := by
  unfold Obligations.InstructionLength
  refine ⟨fun w i h => ?_, fun w h => ?_, fun w n k hk => ?_, fun w n h => ?_⟩
  · have hmod := len_of_decodeBits h
    have hl := i.len_lt
    have hs := size_eq i
    omega
  · have h3 : bitsOf w 0 2 = 3 := by rw [← mod_eq_bitsOf]; exact h
    simp [decodeBits, h3]
  · have hlt : k < (leBytes n w).length := by simpa using hk
    rw [natToBytes_eq, List.getD_eq_getElem _ _ hlt, leBytes_getElem]
  · rw [decode, bytesToNat_eq, natToBytes_eq, leNat_leBytes, Nat.mod_eq_of_lt h]

end Sys2Proof

/-! # Paired words (06 R167-R170) -/

namespace Sys2Proof

open Machine Host

/-! ## What a slot computes -/

/-- No computation of a slot raises a fault. -/
theorem slotComp_ok (j : Instr) (x : Ctx) : ∃ ws, slotComp j x = .ok ws := by
  cases j <;> exact ⟨_, rfl⟩

/-- A slot computes from the group, its fragment and the lanes that take part, wherever the next word stands. -/
theorem slotComp_next (j : Instr) (x : Ctx) (n : Word) : slotComp j { x with next := n } = slotComp j x := by
  cases j <;> rfl

/-- An instruction that may stand in a slot is, as a word of its own, a fixed-latency word with the slot's computation (06 R168). -/
theorem exec_of_pairable {n : Nat} {k : Ctl → F64 → Instr} (h : pairable n = some k) (c : Ctl) (f : F64) (s : State) :
    exec (k c f) s = fixedWord (k c f) c s (slotComp (k c f)) := by
  have hn := lt_of_pairable h
  interval_cases n <;> cases h <;> rfl

/-- Settles O26: the paired word answers with what `slotComp` gives for both slots, which is also what the word of 64 bits answers with
(`exec_of_pairable`); the context of the two differs in the next word alone. -/
theorem pairedSlots : Obligations.PairedSlots := by
  unfold Obligations.PairedSlots
  refine ⟨fun c p s g pc G0 h => ?_, fun pop f c s g pc G0 hpop => ?_, slotComp_next⟩
  · intro x i0 i1
    obtain ⟨w0, h0⟩ := slotComp_ok i0 x
    obtain ⟨w1, h1⟩ := slotComp_ok i1 x
    refine ⟨w0, w1, h0, h1, ?_⟩
    have hexec : exec (.paired c p) s = execPaired c p s := rfl
    rw [Answers, hexec, execPaired, word_issues h]
    simp only [i0, i1, x] at h0 h1
    simp only [h0, h1]
    rfl
  · intro j h
    obtain ⟨ws, hws⟩ := slotComp_ok j (ctxAt j c s g pc G0)
    obtain ⟨k, hk⟩ := Option.isSome_iff_exists.1 hpop
    have hj : j = k c f := by simp only [j, slotInstr, hk]
    have hexec : exec j s = fixedWord j c s (slotComp j) := hj ▸ exec_of_pairable hk c f s
    have hgw : (readGroup c G0).gw = G0.gw := by
      obtain ⟨⟨_, _, _, _, _, _, _, _, e⟩, -⟩ := rewritten_readGroup c G0
      rw [e]
    refine ⟨ws, hws, ?_⟩
    rw [Answers, hexec, fixedWord_issues h hws, hgw]

end Sys2Proof

/-! # Where a result lands (06 R160, R162; 02 R48) -/

namespace Sys2Proof.Machine

/-! ## The results that land, in their order -/

/-- `f` lands before `h`: its time is earlier, or the same and it issued earlier (06 R162). -/
def FixedWrite.Before (f h : FixedWrite) : Prop := f.due < h.due ∨ (f.due = h.due ∧ f.seq < h.seq)

/-- A result goes in ahead of the first that it lands before. -/
theorem insDue_cons (f x : FixedWrite) (l : List FixedWrite) :
    (f.Before x ∧ insDue f (x :: l) = f :: x :: l) ∨ (¬ f.Before x ∧ insDue f (x :: l) = x :: insDue f l) := by
  unfold FixedWrite.Before
  rw [insDue]
  split
  · next h => exact .inl ⟨by simpa using h, rfl⟩
  · next h => exact .inr ⟨by simpa using h, rfl⟩

theorem insDue_perm (f : FixedWrite) (l : List FixedWrite) : (insDue f l).Perm (f :: l) := by
  induction l with
  | nil => exact .refl _
  | cons x l ih =>
    rcases insDue_cons f x l with ⟨-, e⟩ | ⟨-, e⟩ <;> rw [e]
    exact (ih.cons x).trans (.swap f x l)

theorem insDue_sorted (f : FixedWrite) {l : List FixedWrite} (h : l.Pairwise fun a b => ¬ b.Before a) :
    (insDue f l).Pairwise fun a b => ¬ b.Before a := by
  induction l with
  | nil => exact List.pairwise_singleton _ _
  | cons x l ih =>
    obtain ⟨hx, hl⟩ := List.pairwise_cons.1 h
    rcases insDue_cons f x l with ⟨hf, e⟩ | ⟨hf, e⟩ <;> rw [e]
    · have hnot : ∀ {y : FixedWrite}, ¬ y.Before x → ¬ y.Before f := by
        unfold FixedWrite.Before at hf ⊢
        omega
      have hself : ¬ x.Before x := by
        unfold FixedWrite.Before
        omega
      exact List.pairwise_cons.2 ⟨List.forall_mem_cons.2 ⟨hnot hself, fun y hy => hnot (hx y hy)⟩, h⟩
    · refine List.pairwise_cons.2 ⟨fun y hy => ?_, ih hl⟩
      rcases List.mem_cons.1 ((insDue_perm f l).mem_iff.1 hy) with rfl | hy
      · exact hf
      · exact hx y hy

/-- The results that have reached their time at `t`, in the order in which they land. -/
def Group.landed (G : Group) (t : Nat) : List FixedWrite :=
  (G.fixed.filter fun f => f.due ≤ t).foldl (fun l f => insDue f l) []

theorem Group.mem_landed {G : Group} {t : Nat} {f : FixedWrite} : f ∈ G.landed t ↔ f ∈ G.fixed ∧ f.due ≤ t := by
  have hfold : ∀ fs l : List FixedWrite, f ∈ fs.foldl (fun l f => insDue f l) l ↔ f ∈ fs ∨ f ∈ l := fun fs => by
    induction fs with
    | nil => simp
    | cons x fs ih => intro l; simp only [List.foldl_cons, ih, (insDue_perm x l).mem_iff, List.mem_cons]; tauto
  simp [Group.landed, hfold]

theorem Group.landed_sorted (G : Group) (t : Nat) : (G.landed t).Pairwise fun a b => ¬ b.Before a :=
  List.foldlRecOn (motive := fun l : List FixedWrite => l.Pairwise fun a b => ¬ b.Before a) _ _ .nil fun _ h f _ => insDue_sorted f h

theorem Group.putAll_append (G : Group) (ws ws' : List RegWrite) : G.putAll (ws ++ ws') = (G.putAll ws).putAll ws' :=
  List.foldl_append

/-- What has landed has been written, one result after the other. -/
theorem Group.commit_eq (G : Group) (t : Nat) : ∃ fs ks,
    G.commit t = ({ G with fixed := fs, ftoks := ks } : Group).putAll ((G.landed t).flatMap FixedWrite.writes) :=
  ⟨_, _, by rw [Group.putAll, List.foldl_flatMap]; rfl⟩

/-! ## Elements of the register files -/

/-- An element of a group's registers: how it is read, if the group holds it, and the write that names it. No other write and no queue
of results touches it. -/
structure Element (α : Type) where
  read : Group → Option α
  write : α → RegWrite
  read_put : ∀ G x, read (G.put (write x)) = (read G).map fun _ => x
  read_put_other : ∀ G w, (∀ x, w ≠ write x) → read (G.put w) = read G
  read_queues : ∀ (G : Group) fs ks, read { G with fixed := fs, ftoks := ks } = read G

section Element

variable {α : Type} (e : Element α) {G : Group} {ws : List RegWrite} {x : α}

theorem Element.read_putAll_other (h : ∀ y, e.write y ∉ ws) : e.read (G.putAll ws) = e.read G :=
  List.foldlRecOn (motive := fun H => e.read H = e.read G) ws Group.put rfl fun H hH w hw =>
    (e.read_put_other H w fun y hy => h y (hy ▸ hw)).trans hH

theorem Element.read_put_keeps {w : RegWrite} (hG : e.read G = some x) (hw : ∀ y, w = e.write y → y = x) : e.read (G.put w) = some x := by
  by_cases h : ∃ y, w = e.write y
  · obtain ⟨y, rfl⟩ := h
    rw [e.read_put, hG, hw y rfl]
    rfl
  · rw [e.read_put_other G w fun y hy => h ⟨y, hy⟩, hG]

/-- Writes of one value leave it. -/
theorem Element.read_putAll_keeps (hG : e.read G = some x) (hw : ∀ y, e.write y ∈ ws → y = x) : e.read (G.putAll ws) = some x :=
  List.foldlRecOn (motive := fun H => e.read H = some x) ws Group.put hG fun _ hH _ hm =>
    e.read_put_keeps hH fun y hy => hw y (hy ▸ hm)

theorem Element.isSome_read_put (w : RegWrite) : (e.read (G.put w)).isSome = (e.read G).isSome := by
  by_cases h : ∃ y, w = e.write y
  · obtain ⟨y, rfl⟩ := h
    rw [e.read_put, Option.isSome_map]
  · rw [e.read_put_other G w fun y hy => h ⟨y, hy⟩]

theorem Element.isSome_read_putAll (ws : List RegWrite) : (e.read (G.putAll ws)).isSome = (e.read G).isSome :=
  List.foldlRecOn (motive := fun H => (e.read H).isSome = (e.read G).isSome) ws Group.put rfl fun _ hH w _ =>
    (e.isSome_read_put w).trans hH

/-- Writes of which some, and only of one value, name the element leave it that value. -/
theorem Element.read_putAll_of_mem (hG : (e.read G).isSome) (hx : e.write x ∈ ws) (hw : ∀ y, e.write y ∈ ws → y = x) :
    e.read (G.putAll ws) = some x := by
  obtain ⟨before, after, rfl⟩ := List.append_of_mem hx
  rw [List.append_cons, Group.putAll_append]
  refine e.read_putAll_keeps ?_ fun y hy => hw y (by simp [hy])
  rw [Group.putAll_append]
  have hsome := (e.isSome_read_putAll (G := G) before).trans hG
  obtain ⟨z, hz⟩ := Option.isSome_iff_exists.1 hsome
  exact (e.read_put _ x).trans (by rw [hz]; rfl)

/-- Of the results due at `t` that name the element, `f` is the newest: the last of them to land. -/
def Element.Newest (G : Group) (t : Nat) (f : FixedWrite) : Prop :=
  f ∈ G.fixed ∧ f.due ≤ t ∧ ∀ f' ∈ G.fixed, f' ≠ f → f'.due ≤ t → (∃ w ∈ f'.writes, ∃ y, w = e.write y) → f'.Before f

/-- The newest result is what the element reads as (06 R162). -/
theorem Element.read_commit_of_newest {t : Nat} {f : FixedWrite} (hf : e.Newest G t f) (hx : e.write x ∈ f.writes)
    (hw : ∀ y, e.write y ∈ f.writes → y = x) (hG : (e.read G).isSome) : e.read (G.commit t) = some x := by
  obtain ⟨hmem, hdue, hlast⟩ := hf
  obtain ⟨fs, ks, hcommit⟩ := G.commit_eq t
  obtain ⟨before, after, hsplit⟩ := List.append_of_mem (Group.mem_landed.2 ⟨hmem, hdue⟩)
  have hafter : ∀ f' ∈ after, ∀ y, e.write y ∈ f'.writes → y = x := by
    intro f' hf' y hy
    by_cases heq : f' = f
    · exact hw y (heq ▸ hy)
    · obtain ⟨hmem', hdue'⟩ := (Group.mem_landed (G := G) (t := t) (f := f')).1 (by simp [hsplit, hf'])
      have hsorted := G.landed_sorted t
      rw [hsplit] at hsorted
      exact absurd (hlast f' hmem' heq hdue' ⟨_, hy, y, rfl⟩)
        ((List.pairwise_cons.1 (List.pairwise_append.1 hsorted).2.1).1 f' hf')
  rw [hcommit, hsplit, List.flatMap_append, List.flatMap_cons, Group.putAll_append, Group.putAll_append]
  refine e.read_putAll_keeps (e.read_putAll_of_mem ?_ hx hw) fun y hy => ?_
  · rw [e.isSome_read_putAll, e.read_queues, hG]
  · obtain ⟨f', hf', hy⟩ := List.mem_flatMap.1 hy
    exact hafter f' hf' y hy

/-- An element that no result due at `t` names reads as before. -/
theorem Element.read_commit_of_none {t : Nat} (h : ∀ f ∈ G.fixed, f.due ≤ t → ∀ y, e.write y ∉ f.writes) :
    e.read (G.commit t) = e.read G := by
  obtain ⟨fs, ks, hcommit⟩ := G.commit_eq t
  rw [hcommit, e.read_putAll_other, e.read_queues]
  intro y hy
  obtain ⟨f, hf, hy⟩ := List.mem_flatMap.1 hy
  obtain ⟨hmem, hdue⟩ := Group.mem_landed.1 hf
  exact h f hmem hdue y hy

end Element

/-- A scalar register. -/
def scalarElement (r : Nat) : Element Word where
  read G := G.s[r]?
  write := .s r
  read_put G x := modAt_get_self ..
  read_put_other G w h := by
    cases w with
    | s r' x =>
      have hr : r' ≠ r := fun e => h x (e ▸ rfl)
      exact modAt_get_ne _ _ hr
    | p => simp only [Group.put]; split <;> rfl
    | _ => rfl
  read_queues _ _ _ := rfl

/-- A lane of a vector register; its tag is not part of it. -/
def vectorElement (r l : Nat) : Element Lane32 where
  read G := G.v[r]?.bind fun v => v.lanes[l]?
  write := .v r l
  read_put G x := by
    cases h : G.v[r]? <;> simp [Group.put, setLaneOf, h]
  read_put_other G w h := by
    cases w with
    | v r' l' x =>
      by_cases hr : r' = r
      · subst hr
        have hl : l' ≠ l := fun e => h x (e ▸ rfl)
        cases hv : G.v[r']? <;> simp [Group.put, setLaneOf, hv, modAt_get_ne _ _ hl]
      · simp only [Group.put, modAt_get_ne _ _ hr]
    | fld r' x | exp r' k x =>
      by_cases hr : r' = r
      · subst hr
        cases hv : G.v[r']? <;> simp [Group.put, hv]
      · simp only [Group.put, modAt_get_ne _ _ hr]
    | p => simp only [Group.put]; split <;> rfl
    | _ => rfl
  read_queues _ _ _ := rfl

/-! ## Predicates (02 R48) -/

theorem getLsbD_setBit {n : Nat} (x : BitVec n) {i : Nat} (b : Bool) (hi : i < n) (k : Nat) :
    (setBit x i b).getLsbD k = if k = i then b else x.getLsbD k := by
  have hone : (1#n <<< i).getLsbD k = decide (k = i) := by
    rw [← BitVec.twoPow_eq, BitVec.getLsbD_twoPow]
    by_cases h : i = k <;> simp [h, eq_comm]
    omega
  cases b with
  | true =>
    rw [setBit, if_pos rfl, BitVec.getLsbD_or, hone]
    by_cases hk : k = i <;> simp [hk]
  | false =>
    rw [setBit, if_neg Bool.false_ne_true, BitVec.getLsbD_and, BitVec.getLsbD_not, hone]
    by_cases hk : k = i
    · simp [hk]
    · simpa [hk] using BitVec.lt_of_getLsbD

/-- A predicate below p7 in a lane. -/
def predElement (r l : Nat) (hr : r < 7) : Element Bool where
  read G := G.lanes[l]?.map fun y => y.preds.getLsbD r
  write := .p r l
  read_put G x := by
    have hbit : ∀ y : Lane, (setBit y.preds r x).getLsbD r = x := fun y => by rw [getLsbD_setBit _ _ hr, if_pos rfl]
    simp only [Group.put, hr, if_true, modAt_get_self, Option.map_map, Function.comp_def, hbit]
  read_put_other G w h := by
    cases w with
    | p r' l' x =>
      simp only [Group.put]
      split
      · next hr' =>
        by_cases hl : l' = l
        · subst hl
          have hne : r ≠ r' := fun e => h x (e ▸ rfl)
          cases hy : G.lanes[l']? <;> simp [hy, getLsbD_setBit _ _ hr', hne]
        · simp only [modAt_get_ne _ _ hl]
      · rfl
    | _ => rfl
  read_queues _ _ _ := rfl

theorem Group.pred_eq_read (G : Group) {r : Nat} (l : Nat) (hr : r < 7) : G.pred r l = ((predElement r l hr).read G).getD false := by
  have h7 : (r == 7) = false := by simp; omega
  cases h : G.lanes[l]? <;> simp [Group.pred, Group.laneAt, predElement, h7, h]

end Sys2Proof.Machine

namespace Sys2Proof

open Machine

/-- Settles O28: a scalar, a vector lane and a predicate below p7 are elements of the register files, and of an element the newest result
lands last (`Element.read_commit_of_newest`). -/
theorem resultsLand : Obligations.ResultsLand := by
  unfold Obligations.ResultsLand
  refine ⟨⟨fun G t r f x hf hx hw hr => ?_, fun G t r h => (scalarElement r).read_commit_of_none h, fun G t r l f x v hf hx hw hv hl => ?_,
    fun G t r l h => (vectorElement r l).read_commit_of_none h, fun G t r l f x hf hx hw hr hl => ?_⟩,
    fun G l => rfl, fun G l x => rfl, fun G r l k x _ hr hkr hk => ?_⟩
  · exact (scalarElement r).read_commit_of_newest hf hx hw (by simp [scalarElement, hr])
  · exact (vectorElement r l).read_commit_of_newest hf hx hw (by simp [vectorElement, hv, hl])
  · rw [Group.pred_eq_read _ l hr, (predElement r l hr).read_commit_of_newest hf hx hw (by simp [predElement, hl])]
    rfl
  · rw [Group.pred_eq_read _ l hk, Group.pred_eq_read _ l hk, (predElement k l hk).read_put_other]
    intro y e
    exact hkr (by cases e; rfl)

end Sys2Proof

/-! # Scalar words (07 R191, R199-R201; 06 R161, 09 R242) -/

namespace Sys2Proof

open Machine Host

/-! ## Words of one fixed latency -/

/-- A word that issues has passed the checks of row 7. -/
theorem wellFormed_of_issues {i : Instr} {c : Ctl} {s : State} {g : Nat} {pc : Word} {G0 : Group} (h : Issues i c s g pc G0) :
    WellFormed i = true := by
  have hlegal : staticFault i (readGroup c G0) (headerOf s G0).regs (headerOf s G0).acc (G0.issueT c) (uses (readGroup c G0).gw i) = none :=
    h.legal
  by_contra hw
  have hfail : (!(WellFormed i && widthOk (readGroup c G0).gw i)) = true := by rw [Bool.eq_false_iff.2 hw]; rfl
  rw [staticFault, if_pos hfail] at hlegal
  split at hlegal <;> cases hlegal

theorem fieldsOk_of_issues {i : Instr} {c : Ctl} {s : State} {g : Nat} {pc : Word} {G0 : Group} (h : Issues i c s g pc G0)
    (hp : ∀ c p, i ≠ .paired c p) : fieldsOk i = true := fieldsOk_of_wellFormed hp (wellFormed_of_issues h)

/-- A word of one latency and one scalar destination answers with the value that it computes, where some lane takes part. -/
theorem scalar_answers {i : Instr} {c : Ctl} {s : State} {g : Nat} {pc : Word} {G0 : Group} (h : Issues i c s g pc G0) {k : Comp}
    (he : exec i s = fixedWord i c s k) {lat : Nat} (hlat : latency i = some lat) {d : BitVec 7}
    (hd : (slotUses (readGroup c G0).gw i).2.1 = [.s d.toNat]) {v v' : Word}
    (hk : k (ctxAt i c s g pc G0) = .ok (if (ctxAt i c s g pc G0).part.isEmpty then [] else [.s d.toNat v])) (hv : v = v') :
    Answers i c s g pc G0 (.fixed [(lat, [.s d.toNat], if participants c pc G0 = [] then [] else [.s d.toNat v'])]) := by
  rw [Answers, he, fixedWord_issues h hk, hlat, hd, hv]
  simp only [ctxAt_part, List.isEmpty_iff, Option.getD_some]

/-! ## Fields of MOD -/

theorem mod_odd (m : BitVec 2) : (m.toNat % 2 == 1) = m.getLsbD 0 := by decide +revert
theorem mod_even (m : BitVec 2) : (m.toNat % 2 == 0) = !m.getLsbD 0 := by decide +revert
theorem two_le_mod (m : BitVec 2) : 2 ≤ m.toNat ↔ m.getLsbD 1 = true := by decide +revert
theorem mod_beq_one (m : BitVec 2) : (m.toNat == 1) = (m == 1) := by decide +revert
theorem mod_beq_zero {m : BitVec 2} (h : m.toNat < 2) : (m.toNat == 0) = !(m == 1) := by decide +revert

/-! ## Operands -/

theorem toInt_sx (x : Ctx) (f : F64) (imm : Bool) : (x.sx f imm).toInt = second x f imm := by
  cases imm with
  | false => rfl
  | true => exact BitVec.toInt_signExtend_of_le (by decide)

theorem ofInt_second (x : Ctx) (f : F64) (imm : Bool) : BitVec.ofInt 64 (second x f imm) = x.sx f imm := by
  rw [← toInt_sx, BitVec.ofInt_toInt]

theorem shAmt_eq (x : Ctx) (f : F64) : (if f.mod = 1 then f.c.toNat else (x.sreg f.b).toNat) = x.shAmt f := by
  simp [Ctx.shAmt, mod_beq_one]

/-! ## Sums, products and quotients (07 R200) -/

theorem word_add_eq (a b : Word) : a + b = BitVec.ofInt 64 (a.toInt + b.toInt) := by rw [BitVec.ofInt_add, BitVec.ofInt_toInt, BitVec.ofInt_toInt]
theorem word_sub_eq (a b : Word) : a - b = BitVec.ofInt 64 (a.toInt - b.toInt) := by
  rw [Int.sub_eq_add_neg, BitVec.ofInt_add, BitVec.ofInt_neg, BitVec.ofInt_toInt, BitVec.ofInt_toInt, BitVec.sub_eq_add_neg]
theorem word_mul_eq (a b : Word) : a * b = BitVec.ofInt 64 (a.toInt * b.toInt) := by simp [BitVec.ofInt_mul]

theorem mulHigh_eq (m : BitVec 2) (hm : m.toNat < 2) (a b : Word) :
    (if m.toNat == 0 then BitVec.ofInt 64 (a.toInt * b.toInt / 2 ^ 64) else BitVec.ofNat 64 (a.toNat * b.toNat / 2 ^ 64)) =
      BitVec.ofInt 64 (readAs (m == 1) a * readAs (m == 1) b / 2 ^ 64) := by
  rw [mod_beq_zero hm]
  cases m == 1 with
  | false => rfl
  | true => exact (BitVec.ofInt_natCast 64 _).symm.trans (by simp [readAs])

theorem quotient_eq (m : BitVec 2) (hm : m.toNat < 2) (a b : Word) :
    (divide (m.toNat == 0) a b).1 = if b = 0#64 then 0xFFFFFFFFFFFFFFFF#64 else
      BitVec.ofInt 64 ((readAs (m == 1) a).tdiv (readAs (m == 1) b)) := by
  rw [mod_beq_zero hm]
  by_cases hb : b = 0#64
  · cases m == 1 <;> simp [divide, hb]
  · cases m == 1 with
    | false => simp [divide, hb, readAs]
    | true =>
      simp only [divide, hb, readAs, Bool.not_true, Bool.false_eq_true, if_false, if_true]
      exact (BitVec.ofInt_natCast 64 _).symm

theorem remainder_eq (m : BitVec 2) (hm : m.toNat < 2) (a b : Word) :
    (divide (m.toNat == 0) a b).2 = if b = 0#64 then a else
      BitVec.ofInt 64 (readAs (m == 1) a - (readAs (m == 1) a).tdiv (readAs (m == 1) b) * readAs (m == 1) b) := by
  have hmod : ∀ p q : Int, p - p.tdiv q * q = p.tmod q := fun p q => by rw [Int.tmod_def, Int.mul_comm]
  rw [mod_beq_zero hm, hmod]
  by_cases hb : b = 0#64
  · cases m == 1 <;> simp [divide, hb]
  · cases m == 1 with
    | false => simp [divide, hb, readAs]
    | true =>
      simp only [divide, hb, readAs, Bool.not_true, Bool.false_eq_true, if_false, if_true, ← Int.ofNat_tmod]
      exact (BitVec.ofInt_natCast 64 _).symm

/-! ## Shifts (07 R200) -/

theorem word_shl_eq (a : Word) (n : Nat) : (if 64 ≤ n then 0#64 else a <<< n) = BitVec.ofNat 64 (a.toNat * 2 ^ n) := by
  split
  · next h =>
    obtain ⟨k, rfl⟩ := Nat.exists_eq_add_of_le h
    refine BitVec.eq_of_toNat_eq (Eq.symm ?_)
    rw [BitVec.toNat_ofNat, Nat.pow_add, Nat.mul_left_comm, Nat.mul_mod_right]
    rfl
  · exact BitVec.eq_of_toNat_eq (by simp [Nat.shiftLeft_eq])

theorem word_shr_eq (a : Word) (n : Nat) : (if 64 ≤ n then 0#64 else a >>> n) = BitVec.ofNat 64 (a.toNat / 2 ^ n) := by
  have hlt : a.toNat / 2 ^ n < 2 ^ 64 := (Nat.div_le_self _ _).trans_lt a.isLt
  refine BitVec.eq_of_toNat_eq ?_
  rw [BitVec.toNat_ofNat, Nat.mod_eq_of_lt hlt]
  split
  · next h => exact (Nat.div_eq_of_lt (a.isLt.trans_le (Nat.pow_le_pow_right (by decide) h))).symm
  · rw [BitVec.toNat_ushiftRight, Nat.shiftRight_eq_div_pow]

/-- From 63 on a shift of a signed word leaves its sign. -/
theorem word_sar_eq (a : Word) (n : Nat) : a.sshiftRight (min n 63) = BitVec.ofInt 64 (a.toInt / 2 ^ n) := by
  have hdiv : a.toInt / 2 ^ min n 63 = a.toInt / 2 ^ n := by
    rcases Nat.le_total n 63 with hn | hn
    · rw [Nat.min_eq_left hn]
    · have hpow : (2 : Int) ^ 63 ≤ 2 ^ n := by exact_mod_cast Nat.pow_le_pow_right (n := 2) (by decide) hn
      have hlo := BitVec.le_toInt a
      have hhi := BitVec.toInt_lt (x := a)
      rw [Nat.min_eq_right hn]
      rcases lt_or_ge a.toInt 0 with h | h
      · rw [Int.ediv_eq_neg_one_of_neg_of_le h (by omega), Int.ediv_eq_neg_one_of_neg_of_le h (by omega)]
      · rw [Int.ediv_eq_zero_of_lt h (by omega), Int.ediv_eq_zero_of_lt h (by omega)]
  rw [← hdiv, ← BitVec.ofInt_toInt (x := a.sshiftRight _), BitVec.toInt_sshiftRight, Int.shiftRight_eq_div_pow]
  norm_num

/-! ## Smaller and larger -/

theorem less_eq (m : BitVec 2) (a b : Word) :
    (if m.toNat % 2 == 0 then decide (a.toInt < b.toInt) else decide (a.toNat < b.toNat)) =
      decide (readAs (m.getLsbD 0) a < readAs (m.getLsbD 0) b) := by
  rw [mod_even]
  cases m.getLsbD 0 <;> simp [readAs]

/-! ## Bits of a word -/

/-- The first number of a range that satisfies a predicate. -/
theorem find?_range_of_first {n k : Nat} {p : Nat → Bool} (hk : k < n) (hp : p k = true) (hfirst : ∀ j < k, p j = false) :
    (List.range n).find? p = some k := by
  rw [List.find?_range_eq_some]
  exact ⟨hp, List.mem_range.2 hk, fun j hj => by simp [hfirst j hj]⟩

theorem leadZeros_eq {w : Nat} (v : BitVec w) : leadZeros v = if v = 0#w then w else w - 1 - Nat.log2 v.toNat := by
  unfold leadZeros
  split
  · next h =>
    subst h
    rw [List.find?_eq_none.2 (by simp)]
    rfl
  · next h =>
    have hne : v.toNat ≠ 0 := fun e => h (BitVec.eq_of_toNat_eq (by simpa using e))
    have hlog : Nat.log2 v.toNat < w := (Nat.log2_lt hne).2 v.isLt
    rw [find?_range_of_first (k := w - 1 - Nat.log2 v.toNat) (by omega), Option.getD_some]
    · rw [show w - 1 - (w - 1 - Nat.log2 v.toNat) = Nat.log2 v.toNat by omega]
      exact Nat.testBit_log2 hne
    · intro j hj
      exact Nat.testBit_lt_two_pow ((Nat.lt_log2_self).trans_le (Nat.pow_le_pow_right (by decide) (by omega)))

theorem lowSet_eq {w : Nat} (v : BitVec w) : lowSet v = ((List.range w).find? fun i => v.toNat / 2 ^ i % 2 == 1).getD w := by
  have hbit : (fun i => v.getLsbD i) = fun i => v.toNat / 2 ^ i % 2 == 1 := funext fun i => (bitAt_toNat v i).symm
  rw [lowSet, hbit]

theorem popCount_eq {w : Nat} (v : BitVec w) : popCount v = (List.range w).countP fun i => v.getLsbD i :=
  List.countP_eq_length_filter.symm

/-! ## The participating lanes in order -/

theorem fragment_sorted (G : Group) (pc : Word) : (G.fragment pc).Pairwise (· < ·) := (List.pairwise_lt_range.filter _).filter _

theorem participants_sorted (c : Ctl) (pc : Word) (G0 : Group) : (participants c pc G0).Pairwise (· < ·) := (fragment_sorted G0 pc).filter _

theorem lt_gw_of_mem_participants {c : Ctl} {pc : Word} {G0 : Group} {l : Nat} (h : l ∈ participants c pc G0) : l < G0.gw := by
  simp only [participants, Group.fragment, Group.freeLanes, List.mem_filter, List.mem_range] at h
  obtain ⟨⟨⟨hl, -⟩, -⟩, -⟩ := h
  exact hl

/-- Numbers in rising order, all below `n`, are what a range keeps of them. -/
theorem filter_contains_range {n : Nat} {l : List Nat} (hs : l.Pairwise (· < ·)) (hn : ∀ a ∈ l, a < n) :
    (List.range n).filter (fun a => l.contains a) = l := by
  have hperm : ((List.range n).filter fun a => l.contains a).Perm l := by
    rw [List.perm_ext_iff_of_nodup (List.nodup_range.filter _) (hs.imp Nat.ne_of_lt)]
    intro a
    simp only [List.mem_filter, List.mem_range, List.contains_iff_mem, and_iff_right_iff_imp]
    exact hn a
  exact hperm.eq_of_pairwise (fun a b _ _ h h' => absurd h (Nat.lt_asymm h')) (List.pairwise_lt_range.filter _) hs

/-- The mask of `ballot` (07 R191). -/
theorem laneBits_ones {c : Ctl} {pc : Word} {G0 : Group} (hgw : G0.gw ≤ 64) (p : Nat → Bool) :
    laneBits ((participants c pc G0).filter p) =
      ((List.range 64).filter fun l => (participants c pc G0).contains l && p l).foldl (fun n l => n + 2 ^ l) 0 := by
  have hpart := filter_contains_range (participants_sorted c pc G0) fun l hl => (lt_gw_of_mem_participants hl).trans_le hgw
  have hfilter : ((List.range 64).filter fun l => (participants c pc G0).contains l && p l) = (participants c pc G0).filter p := by
    conv_rhs => rw [← hpart, List.filter_filter]
    exact List.filter_congr fun l _ => Bool.and_comm _ _
  rw [hfilter]
  rfl

/-! ## The value of each word (07 R199-R201) -/

section Values

variable (x : Ctx) (f : F64)

/-- A result that a `.sat` form clamps (07 R200). -/
theorem saturated_eq (m : BitVec 2) (r : Int) {v : Word} (hv : v = BitVec.ofInt 64 r) :
    (if 2 ≤ m.toNat then sat64 r else v) =
      if m.getLsbD 1 then BitVec.ofInt 64 (clampTo (-(2 ^ 63)) (2 ^ 63 - 1) r) else BitVec.ofInt 64 r := by
  rw [hv]
  exact if_congr (two_le_mod m) rfl rfl

theorem sadd_value : (let y := x.sx f (f.mod.toNat % 2 == 1); if 2 ≤ f.mod.toNat then sat64 ((x.sreg f.a).toInt + y.toInt) else x.sreg f.a + y) =
    let r := (x.sreg f.a).toInt + second x f (f.mod.getLsbD 0)
    if f.mod.getLsbD 1 then BitVec.ofInt 64 (clampTo (-(2 ^ 63)) (2 ^ 63 - 1) r) else BitVec.ofInt 64 r := by
  dsimp only
  rw [mod_odd, toInt_sx]
  exact saturated_eq f.mod _ (by rw [word_add_eq, toInt_sx])

theorem ssub_value : (let y := x.sx f (f.mod.toNat % 2 == 1); if 2 ≤ f.mod.toNat then sat64 ((x.sreg f.a).toInt - y.toInt) else x.sreg f.a - y) =
    let r := (x.sreg f.a).toInt - second x f (f.mod.getLsbD 0)
    if f.mod.getLsbD 1 then BitVec.ofInt 64 (clampTo (-(2 ^ 63)) (2 ^ 63 - 1) r) else BitVec.ofInt 64 r := by
  dsimp only
  rw [mod_odd, toInt_sx]
  exact saturated_eq f.mod _ (by rw [word_sub_eq, toInt_sx])

theorem smul_value : x.sreg f.a * x.sx f (f.mod.toNat == 1) = BitVec.ofInt 64 ((x.sreg f.a).toInt * second x f (f.mod == 1)) := by
  rw [mod_beq_one, word_mul_eq, toInt_sx]

/-- A bitwise word. -/
theorem bitwise_value (op : Word → Word → Word) :
    op (x.sreg f.a) (x.sx f (f.mod.toNat == 1)) = op (x.sreg f.a) (BitVec.ofInt 64 (second x f (f.mod == 1))) := by
  rw [ofInt_second, mod_beq_one]

theorem sshl_value : (if 64 ≤ x.shAmt f then 0#64 else x.sreg f.a <<< x.shAmt f) =
    BitVec.ofNat 64 ((x.sreg f.a).toNat * 2 ^ (if f.mod = 1 then f.c.toNat else (x.sreg f.b).toNat)) := by rw [shAmt_eq, word_shl_eq]

theorem sshr_value : (if 64 ≤ x.shAmt f then 0#64 else x.sreg f.a >>> x.shAmt f) =
    BitVec.ofNat 64 ((x.sreg f.a).toNat / 2 ^ (if f.mod = 1 then f.c.toNat else (x.sreg f.b).toNat)) := by rw [shAmt_eq, word_shr_eq]

theorem ssar_value : (x.sreg f.a).sshiftRight (min (x.shAmt f) 63) =
    BitVec.ofInt 64 ((x.sreg f.a).toInt / 2 ^ (if f.mod = 1 then f.c.toNat else (x.sreg f.b).toNat)) := by rw [shAmt_eq, word_sar_eq]

/-- Of `smin` and `smax`: which operand is taken. -/
theorem smaller_value (p q : Word → Word) :
    (let y := x.sx f (2 ≤ f.mod.toNat)
     let less := if f.mod.toNat % 2 == 0 then decide ((x.sreg f.a).toInt < y.toInt) else decide ((x.sreg f.a).toNat < y.toNat)
     if less then p y else q y) =
    let b := BitVec.ofInt 64 (second x f (f.mod.getLsbD 1))
    if readAs (f.mod.getLsbD 0) (x.sreg f.a) < readAs (f.mod.getLsbD 0) b then p b else q b := by
  have himm : decide (2 ≤ f.mod.toNat) = f.mod.getLsbD 1 := by rw [Bool.decide_congr (two_le_mod f.mod), Bool.decide_eq_true]
  simp only [himm, ofInt_second, less_eq, decide_eq_true_eq]

theorem smov_value : (if f.mod.toNat == 0 then x.sreg f.a else (x.v f.a f.c.toNat).setWidth 64) =
    if f.mod = 0 then x.sreg f.a else BitVec.ofNat 64 (x.v f.a f.c.toNat).toNat := by
  simp [BitVec.toNat_eq]

theorem imm64_eq (lo hi : BitVec 32) : (hi ++ lo : Word) = BitVec.ofInt 64 ((lo.toNat : Int) + 2 ^ 32 * (hi.toNat : Int)) := by
  have hcast : (lo.toNat : Int) + 2 ^ 32 * (hi.toNat : Int) = ((lo.toNat + 2 ^ 32 * hi.toNat : Nat) : Int) := by push_cast; rfl
  refine BitVec.eq_of_toNat_eq ?_
  rw [hcast, BitVec.ofInt_natCast, BitVec.toNat_append, ← Nat.shiftLeft_add_eq_or_of_lt lo.isLt, Nat.shiftLeft_eq, BitVec.toNat_ofNat]
  omega

theorem smovi_value (w : W128) : (if w.mod.toNat == 0 then (w.y ++ w.x : Word) else x.pc + (w.y ++ w.x)) =
    let imm : Int := (w.x.toNat : Int) + 2 ^ 32 * (w.y.toNat : Int)
    BitVec.ofInt 64 (if w.mod = 0 then imm else (x.pc.toNat : Int) + imm) := by
  have hpc : x.pc + BitVec.ofInt 64 ((w.x.toNat : Int) + 2 ^ 32 * (w.y.toNat : Int)) =
      BitVec.ofInt 64 ((x.pc.toNat : Int) + ((w.x.toNat : Int) + 2 ^ 32 * (w.y.toNat : Int))) := by
    rw [BitVec.ofInt_add (x.pc.toNat : Int), BitVec.ofInt_natCast, BitVec.ofNat_toNat, BitVec.setWidth_eq]
  have hmod : w.mod.toNat = 0 ↔ w.mod = 0 := (BitVec.toNat_eq (x := w.mod) (y := 0)).symm
  dsimp only
  rw [imm64_eq, hpc, apply_ite (BitVec.ofInt 64)]
  simp only [beq_iff_eq, hmod]

theorem slea_value : x.sreg f.a + (x.sreg f.b <<< f.c.toNat) =
    BitVec.ofNat 64 ((x.sreg f.a).toNat + (x.sreg f.b).toNat * 2 ^ f.c.toNat) := by
  refine BitVec.eq_of_toNat_eq ?_
  simp [Nat.shiftLeft_eq]

theorem spopc_value : BitVec.ofNat 64 (popCount (x.sreg f.a)) =
    BitVec.ofNat 64 ((List.range 64).countP fun i => (x.sreg f.a).getLsbD i) := by rw [popCount_eq]

theorem sclz_value : BitVec.ofNat 64 (leadZeros (x.sreg f.a)) =
    BitVec.ofNat 64 (if x.sreg f.a = 0#64 then 64 else 63 - Nat.log2 (x.sreg f.a).toNat) := by rw [leadZeros_eq]

theorem sffs_value : BitVec.ofNat 64 (lowSet (x.sreg f.a)) =
    BitVec.ofNat 64 (((List.range 64).find? fun i => (x.sreg f.a).toNat / 2 ^ i % 2 == 1).getD 64) := by rw [lowSet_eq]

end Values

/-- Settles O14: each word is a word of one latency that computes one scalar (`scalar_answers`), and its value on 64 bits is the exact one
narrowed. -/
theorem scalarResults : Obligations.ScalarResults := by
  unfold Obligations.ScalarResults
  intro i c s g pc G0 lat d val hr hc h hgw
  have hfields : fieldsOk i = true := fieldsOk_of_issues h fun _ _ e => by rw [e] at hr; cases hr
  cases i <;> cases hr <;> cases hc
  case sadd.refl.refl f => exact scalar_answers (k := saddC f) h rfl rfl rfl rfl (sadd_value _ f)
  case ssub.refl.refl f => exact scalar_answers (k := ssubC f) h rfl rfl rfl rfl (ssub_value _ f)
  case smul.refl.refl f => exact scalar_answers (k := smulC f) h rfl rfl rfl rfl (smul_value _ f)
  case smulh.refl.refl f =>
    have hm : f.mod.toNat < 2 := of_decide_eq_true (Bool.and_eq_true_iff.1 hfields).1
    exact scalar_answers (k := smulhC f) h rfl rfl rfl rfl (mulHigh_eq f.mod hm _ _)
  case sdiv.refl.refl f =>
    have hm : f.mod.toNat < 2 := of_decide_eq_true (Bool.and_eq_true_iff.1 hfields).1
    exact scalar_answers (k := sres f fun x => (divide (f.mod.toNat == 0) (x.sreg f.a) (x.sreg f.b)).1) h rfl rfl rfl rfl (quotient_eq f.mod hm _ _)
  case srem.refl.refl f =>
    have hm : f.mod.toNat < 2 := of_decide_eq_true (Bool.and_eq_true_iff.1 hfields).1
    exact scalar_answers (k := sres f fun x => (divide (f.mod.toNat == 0) (x.sreg f.a) (x.sreg f.b)).2) h rfl rfl rfl rfl (remainder_eq f.mod hm _ _)
  case sand.refl.refl f => exact scalar_answers (k := sandC f) h rfl rfl rfl rfl (bitwise_value _ f (· &&& ·))
  case sor.refl.refl f => exact scalar_answers (k := sorC f) h rfl rfl rfl rfl (bitwise_value _ f (· ||| ·))
  case sxor.refl.refl f => exact scalar_answers (k := sxorC f) h rfl rfl rfl rfl (bitwise_value _ f (· ^^^ ·))
  case sshl.refl.refl f => exact scalar_answers (k := sshlC f) h rfl rfl rfl rfl (sshl_value _ f)
  case sshr.refl.refl f => exact scalar_answers (k := sshrC f) h rfl rfl rfl rfl (sshr_value _ f)
  case ssar.refl.refl f => exact scalar_answers (k := ssarC f) h rfl rfl rfl rfl (ssar_value _ f)
  case smin.refl.refl f => exact scalar_answers (k := sminC f) h rfl rfl rfl rfl (smaller_value _ f (fun _ => _) fun y => y)
  case smax.refl.refl f => exact scalar_answers (k := smaxC f) h rfl rfl rfl rfl (smaller_value _ f (fun y => y) fun _ => _)
  case ssel.refl.refl f => exact scalar_answers (k := sselC f) h rfl rfl rfl rfl rfl
  case smov.refl.refl f => exact scalar_answers (k := smovC f) h rfl rfl rfl rfl (smov_value _ f)
  case smovi.refl.refl w =>
    exact scalar_answers (k := fun x => .ok (if x.part.isEmpty then [] else [.s w.d.toNat (if w.mod.toNat == 0 then w.y ++ w.x else x.pc + (w.y ++ w.x))]))
      h rfl rfl rfl rfl (smovi_value _ w)
  case slea.refl.refl f => exact scalar_answers (k := sleaC f) h rfl rfl rfl rfl (slea_value _ f)
  case spopc.refl.refl f => exact scalar_answers (k := spopcC f) h rfl rfl rfl rfl (spopc_value _ f)
  case sclz.refl.refl f => exact scalar_answers (k := sclzC f) h rfl rfl rfl rfl (sclz_value _ f)
  case sffs.refl.refl f => exact scalar_answers (k := sffsC f) h rfl rfl rfl rfl (sffs_value _ f)
  case prec.refl.refl f =>
    exact scalar_answers (k := sres f fun x => (x.tag f.a).field.setWidth 64) h rfl rfl rfl rfl (BitVec.ofNat_toNat ..).symm
  case precExp.refl.refl f => exact scalar_answers (k := sres f fun x => (x.tag f.a).exps) h rfl rfl rfl rfl rfl
  case ballot.refl.refl f =>
    exact scalar_answers (k := sres f fun x => BitVec.ofNat 64 (laneBits (x.ones f.a))) h rfl rfl rfl rfl (congrArg _ (laneBits_ones hgw _))

end Sys2Proof

/-! # Reads of special registers (02 R64)

The obligation reads CLUSTER as bits 7:4 of the core's number, the model as the number divided by 16. The two agree below 256, the number of cores
of the device; `RegisterResults` speaks of all states, also of those whose group stands on a core that the device does not have. -/

namespace Sys2Proof

open Machine Host

/-- A result with a latency is queued with its writes (06 R162). -/
theorem issued_fixed_writes (i : Instr) (c : Ctl) {s : State} {g : Nat} (pc : Word) {G0 : Group} (h : s.groups[g]? = some G0) {lat : Nat}
    (hl : lat ≠ 0) (ds : List RegName) (ws : List RegWrite) :
    ((issued i c s g pc G0 (.fixed [(lat, ds, ws)])).groups[g]?).map (fun H => H.fixed.map FixedWrite.writes) =
      some ((readGroup c G0).fixed.map FixedWrite.writes ++ [ws]) := by
  have hg : (ctxAt i c s g pc G0).g = g := rfl
  simp [issued, finish, issueDone, goOn, addFixed, hg, ctxAt_s, h, hl, Group.settle, Group.modLanes, Group.putAll]

/-- A control field whose guard always holds, without a token. -/
def unguardedCtl : Ctl := ⟨0#4, false, false, 7#3, 7#3, 0#6, 0#4⟩

/-- A group of one lane on core 256. -/
def farGroup : Group := { Group.zero with gw := 1, core := 256, lanes := [⟨0#64, Config.noMeet, 0#7, .active, 0⟩], stage := .running }

def farState : State := { State.reset with cur := some (0, 0#64), groups := [farGroup], teams := [{ Team.zero with life := .running }] }

/-- `sr` of CLUSTER into s1. -/
def readCluster : F64 := ⟨1, 0, 0, 6, 0⟩

theorem farState_issues : Issues (.sr unguardedCtl readCluster) unguardedCtl farState 0 0#64 farGroup where
  cur := rfl
  group := rfl
  frag := by decide
  running := rfl
  life := rfl
  ready := by unfold Ready; decide
  legal := by unfold Legal; decide +kernel

theorem farState_participants : participants unguardedCtl 0#64 farGroup = [0] := by decide

/-- What the word sees. -/
def farCtx : Ctx := ctxAt (.sr unguardedCtl readCluster) unguardedCtl farState 0 0#64 farGroup

theorem farCtx_cluster : farCtx.special 6 0 = 16 ∧ specialRule farCtx 6 0 = 0 := ⟨rfl, rfl⟩

/-- Refutes O16: its last clause, of `sr`. On core 256 CLUSTER reads 16, where the clause has 0. -/
theorem not_registerResults : ¬ Obligations.RegisterResults := by
  unfold Obligations.RegisterResults
  rintro ⟨-, -, h⟩
  obtain ⟨hclause, -⟩ := h unguardedCtl readCluster farState 0 0#64 farGroup farState_issues
  have hpart : participants unguardedCtl 0#64 farGroup ≠ [] := by rw [farState_participants]; simp
  have hstated : Answers (.sr unguardedCtl readCluster) unguardedCtl farState 0 0#64 farGroup
      (.fixed [(4, [.s 1], [.s 1 (BitVec.ofNat 64 (specialRule farCtx 6 0))])]) := by
    have := hclause rfl
    rwa [ctxAt_part, if_neg hpart] at this
  have hmodel : Answers (.sr unguardedCtl readCluster) unguardedCtl farState 0 0#64 farGroup
      (.fixed [(4, [.s 1], [.s 1 (BitVec.ofNat 64 (farCtx.special 6 0))])]) := by
    have := scalar_answers farState_issues (rfl : execSr unguardedCtl readCluster farState = _) (d := 1) rfl rfl rfl rfl
    rwa [if_neg hpart] at this
  rw [farCtx_cluster.1] at hmodel
  rw [farCtx_cluster.2] at hstated
  have hsame := congrArg (fun t : State => (t.groups[0]?).map fun H => H.fixed.map FixedWrite.writes)
    (Outcome.next.inj (hmodel.symm.trans hstated))
  rw [issued_fixed_writes _ _ _ rfl (by decide), issued_fixed_writes _ _ _ rfl (by decide)] at hsame
  simp at hsame

end Sys2Proof

/-! # nop, yield, the token, brk and assert (01 R23, R43; 07 R182, R190, R192; 13 R328, R329) -/

namespace Sys2Proof

open Machine Host

theorem Machine.Group.Rewritten.quarter {G H : Group} (h : G.Rewritten H) : H.quarter = G.quarter := by
  obtain ⟨⟨_, _, _, _, _, _, _, _, rfl⟩, -⟩ := h
  rfl

theorem Machine.Group.Rewritten.heldLanes {G H : Group} (h : G.Rewritten H) : H.heldLanes = G.heldLanes := by
  obtain ⟨⟨_, _, _, _, _, _, _, _, rfl⟩, -⟩ := h
  rfl

/-- Of a list in rising order the first element that satisfies a predicate is the one below which none does. -/
theorem find?_of_first {α : Type} {ts : List α} {key : α → Nat} (hs : ts.Pairwise fun a b => key a < key b) {p : α → Bool} {a : α}
    (ha : a ∈ ts) (hp : p a = true) (hfirst : ∀ b ∈ ts, key b < key a → p b = false) : ts.find? p = some a := by
  obtain ⟨before, after, rfl⟩ := List.append_of_mem ha
  have hbefore : ∀ b ∈ before, p b = false := fun b hb =>
    hfirst b (List.mem_append_left _ hb) ((List.pairwise_append.1 hs).2.2 b hb a List.mem_cons_self)
  rw [List.find?_append, List.find?_eq_none.2 fun b hb => by simp [hbefore b hb], Option.none_or, List.find?_cons_of_pos hp]

/-! ## A fragment that goes on -/

/-- After a word that is complete at issue the lanes of the fragment stand at the next word, or at their meeting. -/
theorem goOn_issueDone_group {x x' : Ctx} {s : State} {G : Group} (h : s.groups[x.g]? = some G) (hg : x'.g = x.g) :
    ∃ H, (issueDone x' (goOn x s)).groups[x.g]? = some H ∧ SameRegisters G H ∧
      ∀ l y, G.lanes[l]? = some y → ∃ y', H.lanes[l]? = some y' ∧
        MovedTo H l y y' (if l ∈ x.frag ∧ y.st = .active ∧ y.pc = x.pc then x.next else y.pc) y.st := by
  obtain ⟨K, hK, hregs, -, hlanes⟩ := goOn_group h
  obtain ⟨H, hH, hregs', -, hlanes'⟩ := issueDone_group (x := x') (hg ▸ hK)
  refine ⟨H, hg ▸ hH, hregs.trans hregs', fun l y hy => ?_⟩
  obtain ⟨z, hz, hm⟩ := hlanes l y hy
  obtain ⟨n, hn⟩ := hlanes' l z hz
  have hheld : H.heldLanes = K.heldLanes := by simp [Group.heldLanes, hregs'.outst]
  refine ⟨_, hn, ?_⟩
  unfold MovedTo at hm ⊢
  rwa [hheld]

/-- Of a word whose meaning changes nothing: the lanes of its fragment, which are active and stand at the word, go on. -/
theorem fragment_goes_on (i : Instr) (c : Ctl) {s : State} {g : Nat} (pc : Word) {G0 : Group} (h : s.groups[g]? = some G0) {x' : Ctx}
    (hg : x'.g = g) :
    ∃ H, (issueDone x' (goOn (ctxAt i c s g pc G0) (ctxAt i c s g pc G0).s)).groups[g]? = some H ∧ SameRegisters (readGroup c G0) H ∧
      ∀ l y, (readGroup c G0).lanes[l]? = some y → ∃ y', H.lanes[l]? = some y' ∧
        MovedTo H l y y' (if l ∈ G0.fragment pc then nextPc pc i.size else y.pc) y.st := by
  obtain ⟨H, hH, hregs, hlanes⟩ := goOn_issueDone_group (x := ctxAt i c s g pc G0) (x' := x') (ctxAt_group i h) hg
  refine ⟨H, hH, hregs, fun l y hy => ?_⟩
  obtain ⟨y', hy', hm⟩ := hlanes l y hy
  refine ⟨y', hy', ?_⟩
  by_cases hl : l ∈ G0.fragment pc
  · obtain ⟨hst, hpc⟩ := readGroup_of_mem_fragment hl hy
    rw [if_pos hl]
    rwa [if_pos ⟨hl, hst, hpc⟩] at hm
  · rw [if_neg hl]
    rwa [if_neg fun e => hl e.1] at hm

/-- Issue and going on concern the group alone. -/
theorem onlyGroup_issueDone (i : Instr) (c : Ctl) (s : State) {g : Nat} (pc : Word) (G0 : Group) {x' : Ctx} (hg : x'.g = g) :
    OnlyGroup s (issueDone x' (goOn (ctxAt i c s g pc G0) (ctxAt i c s g pc G0).s)) g := by
  refine ⟨rfl, fun k hk => ?_⟩
  subst hg
  exact (modAt_get_ne _ _ hk.symm).trans ((modAt_get_ne _ _ hk.symm).trans (modAt_get_ne _ _ hk.symm))

/-- What the issue keeps in its group of the word's number and timing (06 R160). -/
theorem issueDone_timing {x : Ctx} {s : State} {H : Group} (hH : (issueDone x s).groups[x.g]? = some H) :
    ∃ K, s.groups[x.g]? = some K ∧ H.seq = K.seq + 1 ∧ H.t = x.t ∧ H.stall = x.c.stall.toNat ∧ H.lastIssue = s.clock ∧
      H.fairness = K.fairness ∧ (x.c.yld = true → H.sticky = K.sticky.filter fun l => !(slicesMeet [l] x.frag)) := by
  rw [issueDone, State.modGroup_groups, modAt_get_self, Option.map_eq_some_iff] at hH
  obtain ⟨K, hK, rfl⟩ := hH
  exact ⟨K, hK, rfl, rfl, rfl, rfl, rfl, fun hy => if_pos hy⟩

/-- A fragment that stands together behind a word with the hint is the one that others of its slices go before (06 R156). -/
theorem issueDone_forced {x : Ctx} {s : State} {H : Group} (hH : (issueDone x s).groups[x.g]? = some H) (hy : x.c.yld = true) {p : Word}
    (hfrag : ∀ l ∈ x.frag, (H.laneAt l).pc = p ∧ l ∉ H.heldLanes) :
    H.forced = x.frag.filter fun l => (H.laneAt l).st == .active := by
  rw [issueDone, State.modGroup_groups, modAt_get_self, Option.map_eq_some_iff] at hH
  obtain ⟨K, -, hH⟩ := hH
  have hlanes : ∀ l, (K.modLanes x.frag fun y => { y with lastIss := s.clock }).laneAt l = H.laneAt l := fun l => by rw [← hH]; rfl
  have hheld : (K.modLanes x.frag fun y => { y with lastIss := s.clock }).heldLanes = H.heldLanes := by rw [← hH]; rfl
  have hon : (x.frag.filter fun l => (H.laneAt l).st == .active && !(H.heldLanes.contains l)) =
      x.frag.filter fun l => (H.laneAt l).st == .active :=
    List.filter_congr fun l hl => by simp [(hfrag l hl).2]
  have hforced : H.forced = ((x.frag.filter fun l => (H.laneAt l).st == .active && !(H.heldLanes.contains l)).filter fun l =>
      (H.laneAt l).pc == (H.laneAt ((x.frag.filter fun l => (H.laneAt l).st == .active && !(H.heldLanes.contains l)).headD 0)).pc) := by
    conv_lhs => rw [← hH]
    simp only [hy, if_true, hlanes, hheld]
  rw [hforced, hon]
  refine List.filter_eq_self.2 fun l hl => ?_
  cases hon' : x.frag.filter fun l => (H.laneAt l).st == .active with
  | nil => rw [hon'] at hl; cases hl
  | cons a as =>
    have ha : a ∈ x.frag := (List.mem_filter.1 (hon' ▸ List.mem_cons_self : a ∈ x.frag.filter _)).1
    simp [(hfrag l (List.mem_filter.1 hl).1).1, (hfrag a ha).1]

/-- Going on keeps the number of words that the group has issued, its fairness count and its sticky lanes. -/
theorem goOn_keeps {i : Instr} {c : Ctl} {s : State} {g : Nat} {pc : Word} {G0 K : Group} (h : s.groups[g]? = some G0)
    (hK : (goOn (ctxAt i c s g pc G0) (ctxAt i c s g pc G0).s).groups[g]? = some K) :
    K.seq = G0.seq ∧ K.fairness = G0.fairness ∧ K.sticky = G0.sticky := by
  have hg : (ctxAt i c s g pc G0).g = g := rfl
  rw [goOn, hg, State.modGroup_groups, modAt_get_self, ctxAt_group i h, Option.map_some, Option.some.injEq] at hK
  obtain ⟨⟨_, _, _, _, _, _, _, _, e⟩, -⟩ := rewritten_readGroup c G0
  subst hK
  rw [e]
  exact ⟨rfl, rfl, rfl⟩

section Words

variable {c : Ctl} {f : F64} {s : State} {g : Nat} {pc : Word} {G0 : Group}

theorem nop_answers (h : Issues (.nop c f) c s g pc G0) : Answers (.nop c f) c s g pc G0 (.go (ctxAt (.nop c f) c s g pc G0).s) :=
  answers_of_word h (rfl : execNop c f s = _) rfl

/-- `yield` issues as a word with the hint. -/
def yieldCtx (c : Ctl) (f : F64) (s : State) (g : Nat) (pc : Word) (G0 : Group) : Ctx :=
  { ctxAt (.yield c f) c s g pc G0 with c := { c with yld := true } }

theorem yield_exec (h : Performs (.yield c f) c s g pc G0) :
    exec (.yield c f) s = .next (issueDone (yieldCtx c f s g pc G0) (goOn (ctxAt (.yield c f) c s g pc G0) (ctxAt (.yield c f) c s g pc G0).s)) :=
  answers_of_groupWide h (rfl : execYield c f s = _) (r := .yield (ctxAt (.yield c f) c s g pc G0).s) rfl

/-- Behind `yield` the lanes of its fragment stand together, and no word holds them. -/
theorem yield_fragment {H : Group} (hregs : SameRegisters (readGroup c G0) H)
    (hlanes : ∀ l y, (readGroup c G0).lanes[l]? = some y → ∃ y', H.lanes[l]? = some y' ∧
      MovedTo H l y y' (if l ∈ G0.fragment pc then nextPc pc 8 else y.pc) y.st) {l : Nat} (hl : l ∈ G0.fragment pc) :
    (H.laneAt l).pc = nextPc pc 8 ∧ l ∉ H.heldLanes := by
  obtain ⟨z, hz, -, -⟩ := Group.of_mem_fragment hl
  obtain ⟨y, hy, -, -, -⟩ := (rewritten_readGroup c G0).lane_after hz
  obtain ⟨y', hy', hm⟩ := hlanes l y hy
  have hheld : H.heldLanes = G0.heldLanes := by
    rw [Group.heldLanes, hregs.outst]
    exact (rewritten_readGroup c G0).heldLanes
  refine ⟨?_, ?_⟩
  · rw [Group.laneAt_eq hy', hm.1, if_pos hl]
  · rw [hheld]
    simp only [Group.fragment, Group.freeLanes, List.mem_filter, Bool.and_eq_true, Bool.not_eq_true', List.contains_eq_mem,
      decide_eq_false_iff_not] at hl
    obtain ⟨⟨-, -, hfree⟩, -⟩ := hl
    exact hfree

/-! ## The token (01 R43, 07 R192) -/

/-- The group that `tokpass` names. -/
def passTo (f : F64) (x : Ctx) : Nat := if f.mod = 0 then (x.sreg f.a).toNat % 2 ^ 32 else f.c.toNat

/-- The group `k` is resident on the quarter of the word's group and has number `p` in its team. -/
def IsPartner (x : Ctx) (p k : Nat) : Prop :=
  x.team.groups[p]? = some k ∧ (x.s.group k).core = x.G.core ∧ (x.s.group k).quarter = x.G.quarter ∧ (x.s.group k).stage ≠ .retired

theorem partner_of_isPartner {x : Ctx} {p k : Nat} (h : IsPartner x p k) : x.partner p = some k := by
  obtain ⟨hk, hcore, hquarter, hstage⟩ := h
  simp [Ctx.partner, hk, hcore, hquarter, hstage]

theorem partner_eq_none {x : Ctx} {p : Nat} (h : ∀ k, ¬ IsPartner x p k) : x.partner p = none := by
  cases hk : x.team.groups[p]? with
  | none => simp [Ctx.partner, hk]
  | some k =>
    have hnot := h k
    simp only [IsPartner, hk, true_and] at hnot
    simp only [Ctx.partner, hk, ite_eq_right_iff, reduceCtorEq, imp_false, Bool.and_eq_true, beq_iff_eq, bne_iff_ne, and_assoc]
    exact hnot

theorem tokpass_answers (h : Performs (.tokpass c f) c s g pc G0) {x : Ctx} (hx : x = ctxAt (.tokpass c f) c s g pc G0) :
    Answers (.tokpass c f) c s g pc G0 (.go (if x.s.holder x.G = some g then x.s.setHolder x.G (x.partner (passTo f x)) else x.s)) := by
  refine answers_of_groupWide h (rfl : execTokpass c f s = _) ?_
  have hg : x.g = g := by rw [hx]; rfl
  have hp : (if f.mod.toNat = 0 then bitsOf (x.sreg f.a).toNat 0 32 else f.c.toNat) = passTo f x := by
    simp [passTo, BitVec.toNat_eq, bitsOf]
  simp only [← hx, hg, beq_iff_eq, hp]

theorem tokwait_takes (h : Performs (.tokwait c f) c s g pc G0) {x : Ctx} (hx : x = ctxAt (.tokwait c f) c s g pc G0)
    (hh : x.s.holder x.G = none) : Answers (.tokwait c f) c s g pc G0 (.go (x.s.setHolder x.G (some g))) := by
  refine answers_of_groupWide h (rfl : execTokwait c f s = _) ?_
  have hg : x.g = g := by rw [hx]; rfl
  simp only [← hx, hh, hg]

theorem tokwait_goes (h : Performs (.tokwait c f) c s g pc G0) {x : Ctx} (hx : x = ctxAt (.tokwait c f) c s g pc G0)
    (hh : x.s.holder x.G = some g) : Answers (.tokwait c f) c s g pc G0 (.go x.s) := by
  refine answers_of_groupWide h (rfl : execTokwait c f s = _) ?_
  have hg : x.g = g := by rw [hx]; rfl
  simp only [← hx, hh, hg, beq_self_eq_true, if_true]

theorem tokwait_waits (h : Performs (.tokwait c f) c s g pc G0) {x : Ctx} (hx : x = ctxAt (.tokwait c f) c s g pc G0) {k : Nat} (hk : k ≠ g)
    (hh : x.s.holder x.G = some k) : Answers (.tokwait c f) c s g pc G0 (.hold x.s (x.holding [] .tokWait)) := by
  refine answers_of_groupWide h (rfl : execTokwait c f s = _) ?_
  have hg : x.g = g := by rw [hx]; rfl
  simp only [← hx, hh, hg, beq_iff_eq, hk, if_false]

end Words

/-! ## brk and assert (13 R328, R329) -/

theorem brk_exec {c : Ctl} {f : F64} {s : State} {g : Nat} {pc : Word} {G0 : Group} (h : Performs (.brk c f) c s g pc G0) :
    exec (.brk c f) s = .next (((ctxAt (.brk c f) c s g pc G0).s.backOut g G0).groupFault g
      ⟨0x51, 0, 0, f.c.toNat, pc, 0, false, G0.fragment pc, nextPc pc 8, true, 0⟩) :=
  answers_of_groupWide h (rfl : execBrk c f s = _)
    (r := .trapF (ctxAt (.brk c f) c s g pc G0).s { (ctxAt (.brk c f) c s g pc G0).flt 0x51 0 0 f.c.toNat with cont := true }) rfl

section Assert

variable {c : Ctl} {f : M96} {s : State} {g : Nat} {pc : Word} {G0 : Group}

/-- The lane does not hold what `assert` asserts. -/
def assertFails (f : M96) (x : Ctx) (l : Nat) : Bool := x.G.pred f.a.toNat l == (f.mod.toNat == 1)

theorem assertFails_iff (f : M96) (x : Ctx) (l : Nat) : assertFails f x l = true ↔ x.G.pred f.a.toNat l = decide (f.mod = 1) := by
  rw [assertFails, mod_beq_one, beq_iff_eq]
  rfl

theorem assert_holds (h : Issues (.assert c f) c s g pc G0) {x : Ctx} (hx : x = ctxAt (.assert c f) c s g pc G0)
    (hall : ∀ l ∈ x.part, assertFails f x l = false) : Answers (.assert c f) c s g pc G0 (.go x.s) := by
  refine answers_of_word h (rfl : execAssert c f s = _) ?_
  have hfind : (x.part.find? fun l => x.G.pred f.a.toNat l == (f.mod.toNat == 1)) = none :=
    List.find?_eq_none.2 fun l hl => by rw [Bool.not_eq_true]; exact hall l hl
  rw [← hx, hfind]

/-- The address of the message. -/
theorem message_eq (r : Nat) (imm : BitVec 32) : (BitVec.ofNat 64 (recBase r) + imm.signExtend 64).toNat =
    (BitVec.ofInt 64 ((r % 2 ^ 56 : Nat) + imm.toInt)).toNat := by
  rw [BitVec.ofInt_add, BitVec.ofInt_natCast, BitVec.signExtend, recBase, bitsOf, Nat.pow_zero, Nat.div_one]

theorem assert_fails (h : Issues (.assert c f) c s g pc G0) {x : Ctx} (hx : x = ctxAt (.assert c f) c s g pc G0) {l : Nat} (hl : l ∈ x.part)
    (hf : assertFails f x l = true) (hfirst : ∀ k ∈ x.part, k < l → assertFails f x k = false) :
    exec (.assert c f) s = .next ((x.s.backOut g G0).groupFault g
      ⟨0x50, 1, l, 0, pc, (BitVec.ofInt 64 (((x.breg f.b).toNat % 2 ^ 56 : Nat) + f.imm.toInt)).toNat, false, G0.fragment pc, nextPc pc 12, false, 0⟩) := by
  have hsorted : x.part.Pairwise fun a b => id a < id b := by rw [hx]; exact participants_sorted c pc G0
  have hfind : (x.part.find? fun l => x.G.pred f.a.toNat l == (f.mod.toNat == 1)) = some l := find?_of_first hsorted hl hf hfirst
  have hans : Answers (.assert c f) c s g pc G0
      (.trapF x.s { x.flt 0x50 l (BitVec.ofNat 64 (recBase (x.breg f.b).toNat) + f.imm.signExtend 64).toNat 0 with cls := 1 }) := by
    refine answers_of_word h (rfl : execAssert c f s = _) ?_
    rw [← hx, hfind]
  rw [message_eq] at hans
  subst hx
  exact hans

end Assert

/-- Settles O32: `nop` and `yield` leave their fragment at the next word (`fragment_goes_on`); the token words, `brk` and `assert` answer as their
meanings do. -/
theorem controlWords : Obligations.ControlWords := by
  unfold Obligations.ControlWords
  refine ⟨⟨fun c f s g pc G0 h => ?_, fun c f s g pc G0 h => ?_⟩, ⟨fun c f s g pc G0 h => ?_, fun c f s g pc G0 h => ?_⟩,
    fun c f s g pc G0 h => brk_exec h, fun c f s g pc G0 h => ⟨fun hall => ?_, fun l hl hf hfirst => ?_⟩⟩
  · obtain ⟨H, hH, hregs, hlanes⟩ := fragment_goes_on (.nop c f) c pc h.group (x' := ctxAt (.nop c f) c s g pc G0) rfl
    obtain ⟨K, hK, hseq, ht, hstall, -⟩ := issueDone_timing (x := ctxAt (.nop c f) c s g pc G0) hH
    exact ⟨_, H, nop_answers h, onlyGroup_issueDone _ _ _ _ _ rfl, hH, hregs, by rw [hseq, (goOn_keeps h.group hK).1], ht, hstall, hlanes⟩
  · obtain ⟨H, hH, hregs, hlanes⟩ := fragment_goes_on (.yield c f) c pc h.group (x' := yieldCtx c f s g pc G0) rfl
    obtain ⟨K, hK, -, -, -, hlast, hfair, hsticky⟩ := issueDone_timing (x := yieldCtx c f s g pc G0) hH
    obtain ⟨-, hfair', hsticky'⟩ := goOn_keeps h.group hK
    refine ⟨_, H, yield_exec h, onlyGroup_issueDone _ _ _ _ _ rfl, hH, hregs, hlast, hfair.trans hfair',
      issueDone_forced (x := yieldCtx c f s g pc G0) hH rfl fun l hl => yield_fragment hregs hlanes hl, fun l => ?_, hlanes⟩
    rw [hsticky rfl, hsticky', List.mem_filter, Bool.not_eq_true']
    rfl
  · intro x p resident
    have hans := tokpass_answers h (x := x) rfl
    have hresident : ∀ k, resident k ↔ IsPartner x (passTo f x) k := fun k => by
      have hcore := (rewritten_readGroup c G0).core
      have hquarter := (rewritten_readGroup c G0).quarter
      simp only [IsPartner, show x.G = readGroup c G0 from rfl, hcore, hquarter]
      rfl
    refine ⟨fun hn => ?_, fun k hh hk => ?_, fun hh hk => ?_⟩
    · rwa [if_neg hn] at hans
    · rwa [if_pos hh, partner_of_isPartner ((hresident k).1 hk)] at hans
    · rwa [if_pos hh, partner_eq_none fun k e => hk k ((hresident k).2 e)] at hans
  · exact ⟨fun hh => tokwait_takes h rfl hh, fun hh => tokwait_goes h rfl hh, fun k hk hh => tokwait_waits h rfl hk hh⟩
  · exact assert_holds h rfl fun l hl => by rw [← Bool.not_eq_true, assertFails_iff]; exact hall l hl
  · exact assert_fails h rfl hl ((assertFails_iff f _ l).2 hf) fun k hk hlt => by
      rw [← Bool.not_eq_true, assertFails_iff]
      exact hfirst k hk hlt

end Sys2Proof

/-! # Branches, calls and returns (01 R25; 06 R154; 07 R184, R185) -/

namespace Sys2Proof

open Machine Host

/-! ## The fault of a branch (07 R185; log 31) -/

theorem targetFault_noncanon (t : Word) : targetFault t = some 0x11 ↔ 2 ^ 56 ≤ t.toNat := by
  unfold targetFault
  split
  · next h => simp only [h]
  · next h => split <;> simp [h, -Nat.reducePow]

theorem targetFault_boundary {t : Word} (h : t.toNat < 2 ^ 56) : targetFault t = some 0x03 ↔ ¬ Fetchable t := by
  unfold targetFault Fetchable
  rw [if_neg (Nat.not_le.2 h)]
  by_cases h4 : t.toNat % 4 = 0 <;> by_cases h32 : t.toNat % 32 = 28 <;> simp [h, h4, h32, -Nat.reducePow]

section Fault

variable {ts : List (Nat × Word)}

theorem branchFault_none (h : ∀ p ∈ ts, Fetchable p.2) : branchFault ts = none := by
  have hcanon : (ts.find? fun p => targetFault p.2 == some 0x11) = none := List.find?_eq_none.2 fun p hp => by
    rw [beq_iff_eq, targetFault_noncanon, Nat.not_le]
    exact (h p hp).1
  have hplace : (ts.find? fun p => targetFault p.2 == some 0x03) = none := List.find?_eq_none.2 fun p hp => by
    rw [beq_iff_eq, targetFault_boundary (h p hp).1, not_not]
    exact h p hp
  rw [branchFault, hcanon, hplace]
  rfl

theorem branchFault_noncanon (hs : ts.Pairwise fun p q => p.1 < q.1) {p : Nat × Word} (hp : p ∈ ts) (h : 2 ^ 56 ≤ p.2.toNat)
    (hfirst : ∀ q ∈ ts, q.1 < p.1 → q.2.toNat < 2 ^ 56) : branchFault ts = some (p.1, 0x11) := by
  rw [branchFault, find?_of_first hs hp (by simpa [targetFault_noncanon] using h)]
  intro q hq hlt
  rw [beq_eq_false_iff_ne, ne_eq, targetFault_noncanon, Nat.not_le]
  exact hfirst q hq hlt

theorem branchFault_boundary (hs : ts.Pairwise fun p q => p.1 < q.1) {p : Nat × Word} (hp : p ∈ ts) (h : ¬ Fetchable p.2)
    (hall : ∀ q ∈ ts, q.2.toNat < 2 ^ 56) (hfirst : ∀ q ∈ ts, q.1 < p.1 → Fetchable q.2) : branchFault ts = some (p.1, 0x03) := by
  have hcanon : (ts.find? fun p => targetFault p.2 == some 0x11) = none := List.find?_eq_none.2 fun q hq => by
    rw [beq_iff_eq, targetFault_noncanon, Nat.not_le]
    exact hall q hq
  rw [branchFault, hcanon, find?_of_first hs hp (by simpa [targetFault_boundary (hall p hp)] using h)]
  · rfl
  · intro q hq hlt
    rw [beq_eq_false_iff_ne, ne_eq, targetFault_boundary (hall q hq), not_not]
    exact hfirst q hq hlt

end Fault

/-! ## What each word sends and writes -/

/-- The register writes of a branch: those of its link pair. -/
def linkWrites (x : Ctx) : Option Nat → List RegWrite
  | none => []
  | some d => x.link d

/-- Each branch sends a part of its fragment, lane by lane, and answers as `Ctx.branch` does. -/
theorem transfer_branches {i : Instr} {c : Ctl} {dst : Ctx → List (Nat × Word)} {link : Option Nat}
    (hr : transferRule i = some (dst, link)) (hc : i.ctl? = some c) {s : State} {g : Nat} {pc : Word} {G0 : Group} (h : Issues i c s g pc G0)
    {x : Ctx} (hx : x = ctxAt i c s g pc G0) :
    (∃ (ls : List Nat) (t : Nat → Word), dst x = ls.map (fun l => (l, t l)) ∧ ls.Sublist x.frag) ∧
      Answers i c s g pc G0 (x.branch (dst x) (linkWrites x link)) := by
  have hpart : x.part.Sublist x.frag := by rw [hx]; exact List.filter_sublist
  have hmod : ∀ m : BitVec 2, (m.toNat = 0 ↔ m = 0) := fun m => (BitVec.toNat_eq (x := m) (y := 0)).symm
  cases i <;> cases hr <;> cases hc
  case bra.refl.refl f =>
    refine ⟨⟨_, _, rfl, hpart⟩, answers_of_word h (rfl : execBra c f s = _) ?_⟩
    rw [← hx]
    simp only [relTarget_eq, linkWrites]
  case call.refl.refl f =>
    refine ⟨⟨_, _, rfl, hpart⟩, answers_of_word h (rfl : execCall c f s = _) ?_⟩
    rw [← hx]
    simp only [relTarget_eq, linkWrites]
  case brx.refl.refl f =>
    refine ⟨⟨_, _, rfl, hpart⟩, answers_of_word h (rfl : execBrx c f s = _) ?_⟩
    rw [← hx]
    simp only [Ctx.targets, beq_iff_eq, hmod, linkWrites]
  case callx.refl.refl f =>
    refine ⟨⟨_, _, rfl, hpart⟩, answers_of_word h (rfl : execCallx c f s = _) ?_⟩
    rw [← hx]
    simp only [Ctx.targets, beq_iff_eq, hmod, linkWrites]
  case ret.refl.refl f => exact ⟨⟨_, _, rfl, hpart⟩, answers_of_word h (rfl : execRet c f s = _) (by rw [← hx]; rfl)⟩
  case brc.refl.refl f =>
    have hlen : x.part.length = x.frag.length ↔ x.part = x.frag := ⟨hpart.eq_of_length, fun e => by rw [e]⟩
    have htaken : (if f.mod.toNat == 0 then !x.part.isEmpty else if f.mod.toNat == 1 then x.part.length == x.frag.length else x.part.isEmpty) = true ↔
        (f.mod = 0 ∧ x.part ≠ []) ∨ (f.mod = 1 ∧ x.part = x.frag) ∨ (1 < f.mod.toNat ∧ x.part = []) := by
      have hcases : f.mod = 0 ∨ f.mod = 1 ∨ f.mod = 2 ∨ f.mod = 3 := by
        generalize f.mod = m
        decide +revert
      rcases hcases with e | e | e | e <;> simp [e, hlen]
    refine ⟨?_, answers_of_word h (rfl : execBrc c f s = _) ?_⟩
    · dsimp only
      split
      · exact ⟨_, _, rfl, .refl _⟩
      · exact ⟨[], fun _ => 0, rfl, List.nil_sublist _⟩
    · rw [← hx]
      simp only [relTarget_eq, linkWrites, htaken]

end Sys2Proof

namespace Sys2Proof.Machine

/-! ## Writes of vector registers -/

/-- The vector register that a write touches, its lanes or its tag. -/
def RegWrite.vreg? : RegWrite → Option Nat
  | .v r .. | .fld r _ | .exp r .. => some r
  | _ => none

theorem Group.put_vector (G : Group) {w : RegWrite} (h : w.vreg?.isSome) : ∃ v, G.put w = { G with v := v } := by
  cases w with
  | v | fld | exp => exact ⟨_, rfl⟩
  | s | p | b | d | ufcAdd | ufcSet => cases h

/-- Writes of vector registers change nothing else. -/
theorem Group.putAll_vector (G : Group) {ws : List RegWrite} (h : ∀ w ∈ ws, w.vreg?.isSome) : ∃ v, G.putAll ws = { G with v := v } :=
  List.foldlRecOn (motive := fun H => ∃ v, H = { G with v := v }) ws Group.put ⟨_, rfl⟩ fun H hH w hw => by
    obtain ⟨v, rfl⟩ := hH
    obtain ⟨v', hv'⟩ := Group.put_vector { G with v := v } (h w hw)
    exact ⟨v', hv'⟩

theorem Group.put_v_of_ne (G : Group) {w : RegWrite} {r : Nat} (h : w.vreg? ≠ some r) : (G.put w).v[r]? = G.v[r]? := by
  have hne : ∀ r', RegWrite.vreg? w = some r' → r' ≠ r := fun r' e e' => h (e' ▸ e)
  cases w with
  | v r' | fld r' | exp r' => exact modAt_get_ne _ _ (hne r' rfl)
  | p r' l x => simp only [Group.put]; split <;> rfl
  | s | b | d | ufcAdd | ufcSet => rfl

/-- A register that no write names is as before. -/
theorem Group.putAll_v_of_ne (G : Group) {ws : List RegWrite} {r : Nat} (h : ∀ w ∈ ws, w.vreg? ≠ some r) : (G.putAll ws).v[r]? = G.v[r]? :=
  List.foldlRecOn (motive := fun H : Group => H.v[r]? = G.v[r]?) ws Group.put rfl fun H hH _ hw => (H.put_v_of_ne (h _ hw)).trans hH

/-- A variable-latency write also takes its elements out of the results on their way (06 R164). -/
theorem Group.putVar_eq (G : Group) (ws : List RegWrite) :
    ∃ fs, G.putVar ws = ({ G with fixed := fs, ftoks := G.ftoks } : Group).putAll ws := ⟨_, rfl⟩

theorem Group.putVar_nil (G : Group) : G.putVar [] = G := by
  simp [Group.putVar, Group.putAll]

/-- The field word of a register's tag. -/
def fieldElement (r : Nat) : Element (BitVec 16) where
  read G := G.v[r]?.map fun v => v.tag.field
  write := .fld r
  read_put G x := by cases h : G.v[r]? <;> simp [Group.put, h]
  read_put_other G w h := by
    cases w with
    | fld r' x =>
      have hr : r' ≠ r := fun e => h x (e ▸ rfl)
      simp only [Group.put, modAt_get_ne _ _ hr]
    | v r' | exp r' =>
      by_cases hr : r' = r
      · subst hr
        cases hv : G.v[r']? <;> simp [Group.put, setLaneOf, hv]
      · simp only [Group.put, modAt_get_ne _ _ hr]
    | p => simp only [Group.put]; split <;> rfl
    | _ => rfl
  read_queues _ _ _ := rfl

/-! ## Lanes sent to targets -/

/-- Each lane goes to its target. -/
def Group.send (G : Group) (ts : List (Nat × Word)) : Group :=
  ts.foldl (fun (G : Group) (p : Nat × Word) => G.modLanes [p.1] fun y => { y with pc := p.2 }) G

theorem Group.send_rest (G : Group) (ts : List (Nat × Word)) : ∃ ls, G.send ts = { G with lanes := ls } :=
  List.foldlRecOn (motive := fun H : Group => ∃ ls, H = { G with lanes := ls }) ts _ ⟨_, rfl⟩ fun H hH p _ => by
    obtain ⟨ls, rfl⟩ := hH
    exact ⟨_, rfl⟩

theorem Group.send_get {ts : List (Nat × Word)} (hs : ts.Pairwise fun p q => p.1 < q.1) (G : Group) (l : Nat) :
    (G.send ts).lanes[l]? = (G.lanes[l]?).map fun y => { y with pc := (ts.lookup l).getD y.pc } := by
  induction ts generalizing G with
  | nil => simp [Group.send]
  | cons p ts ih =>
    obtain ⟨k, t⟩ := p
    obtain ⟨hp, hts⟩ := List.pairwise_cons.1 hs
    have hrec : (G.send ((k, t) :: ts)).lanes[l]? = ((G.modLanes [k] fun y => { y with pc := t }).send ts).lanes[l]? := rfl
    rw [hrec, ih hts, Group.modLanes_get, Option.map_map]
    refine congrArg (fun k : Lane → Lane => (G.lanes[l]?).map k) (funext fun y => ?_)
    by_cases hl : l = k
    · have hnone : ts.lookup l = none := List.lookup_eq_none_iff.2 fun q hq => by
        rw [hl]
        simpa using (hp q hq).ne
      simp [hl, hl ▸ hnone]
    · have hne : (l == k) = false := beq_false_of_ne hl
      simp [List.lookup_cons, hl, hne]

/-- What a branch makes of its group before meetings are settled: the writes of its link, the lanes of the fragment that it does not send at
the next word, those that it sends at their targets. -/
def Group.branched (G : Group) (frag : List Nat) (next : Word) (ts : List (Nat × Word)) (ws : List RegWrite) : Group :=
  ((G.putVar ws).modLanes (frag.filter fun l => !(ts.any fun p => p.1 == l)) fun y => { y with pc := next }).send ts

theorem Ctx.branch_eq {x : Ctx} {ts : List (Nat × Word)} (h : branchFault ts = none) (ws : List RegWrite) :
    x.branch ts ws = .jump (x.s.modGroup x.g fun G => G.branched x.frag x.next ts ws) := by
  rw [Ctx.branch, h]
  rfl

theorem Ctx.branch_fault {x : Ctx} {ts : List (Nat × Word)} {lane code : Nat} (h : branchFault ts = some (lane, code)) (ws : List RegWrite) :
    x.branch ts ws = .trap x.s code lane 0 0 := by rw [Ctx.branch, h]

section Branched

variable {G : Group} {frag : List Nat} {next : Word} {ts : List (Nat × Word)} {ws : List RegWrite}

/-- Registers apart from the vectors, and everything that is not a lane's, are as before. -/
theorem Group.branched_rest (hws : ∀ w ∈ ws, w.vreg?.isSome) :
    ∃ ls v fs, G.branched frag next ts ws = { G with lanes := ls, v := v, fixed := fs } ∧
      v = (({ G with fixed := fs, ftoks := G.ftoks } : Group).putAll ws).v := by
  obtain ⟨fs, hfs⟩ := G.putVar_eq ws
  obtain ⟨v, hv⟩ := Group.putAll_vector { G with fixed := fs, ftoks := G.ftoks } hws
  obtain ⟨ls, hls⟩ := Group.send_rest ((G.putVar ws).modLanes (frag.filter fun l => !(ts.any fun p => p.1 == l)) fun y => { y with pc := next }) ts
  refine ⟨ls, v, fs, ?_, by rw [hv]⟩
  rw [Group.branched, hls, hfs, hv]
  rfl

theorem Group.branched_nil_rest : ∃ ls, G.branched frag next ts [] = { G with lanes := ls } := by
  obtain ⟨ls, hls⟩ := Group.send_rest ((G.putVar []).modLanes (frag.filter fun l => !(ts.any fun p => p.1 == l)) fun y => { y with pc := next }) ts
  refine ⟨ls, ?_⟩
  rw [Group.branched, hls, Group.putVar_nil]
  rfl

/-- Where each lane stands behind a branch. -/
theorem Group.branched_lane (hs : ts.Pairwise fun p q => p.1 < q.1) (hsub : ∀ p ∈ ts, p.1 ∈ frag) (hws : ∀ w ∈ ws, w.vreg?.isSome) (l : Nat) :
    (G.branched frag next ts ws).lanes[l]? =
      (G.lanes[l]?).map fun y => { y with pc := if l ∉ frag then y.pc else (ts.lookup l).getD next } := by
  have hlanes : (G.putVar ws).lanes = G.lanes := by
    obtain ⟨fs, hfs⟩ := G.putVar_eq ws
    obtain ⟨v, hv⟩ := Group.putAll_vector { G with fixed := fs, ftoks := G.ftoks } hws
    rw [hfs, hv]
  rw [Group.branched, Group.send_get hs, Group.modLanes_get, hlanes, Option.map_map]
  refine congrArg (fun k : Lane → Lane => (G.lanes[l]?).map k) (funext fun y => ?_)
  by_cases hsent : ∃ t, ts.lookup l = some t
  · obtain ⟨t, ht⟩ := hsent
    have hmem : (l, t) ∈ ts := by
      obtain ⟨_, _, hsplit, -⟩ := List.lookup_eq_some_iff.1 ht
      simp [hsplit]
    have hl : l ∈ frag := hsub _ hmem
    have hany : (ts.any fun p => p.1 == l) = true := List.any_eq_true.2 ⟨_, hmem, by simp⟩
    simp [ht, hl, hany]
  · have hnone : ts.lookup l = none := Option.eq_none_iff_forall_ne_some.2 fun t e => hsent ⟨t, e⟩
    have hany : (ts.any fun p => p.1 == l) = false := List.any_eq_false.2 fun p hp e => by
      have hne := List.lookup_eq_none_iff.1 hnone p hp
      rw [beq_iff_eq] at e
      simp [e] at hne
    by_cases hl : l ∈ frag <;> simp [hnone, hl, hany]

end Branched

end Sys2Proof.Machine

namespace Sys2Proof

open Machine Host

/-- Nothing but the settling of meetings follows a branch in its group. -/
theorem issued_jump_group (i : Instr) (c : Ctl) (s : State) {s' : State} {g : Nat} (pc : Word) (G0 : Group) {G : Group}
    (h : s'.groups[g]? = some G) :
    ∃ H, (issued i c s g pc G0 (.jump s')).groups[g]? = some H ∧ SameRegisters G H ∧
      ∀ l y, G.lanes[l]? = some y → ∃ y', H.lanes[l]? = some y' ∧ MovedTo H l y y' y.pc y.st := by
  have hsettled : (s'.modGroup g Group.settle).groups[g]? = some G.settle := by rw [State.modGroup_groups, modAt_get_self, h]; rfl
  obtain ⟨H, hH, hregs, -, hlanes⟩ := issueDone_group (x := ctxAt i c s g pc G0) hsettled
  refine ⟨H, hH, (sameRegisters_settle G).trans hregs, fun l y hy => ?_⟩
  obtain ⟨n, hn⟩ := hlanes l (G.settled l y) (by rw [Group.settle_get, hy]; rfl)
  have hout : H.outst = G.outst := ((sameRegisters_settle G).trans hregs).outst
  exact ⟨_, hn, movedTo_settled hout l y⟩

theorem onlyGroup_issued_jump (i : Instr) (c : Ctl) (s : State) (g : Nat) (pc : Word) (G0 : Group) (f : Group → Group) :
    OnlyGroup s (issued i c s g pc G0 (.jump ((ctxAt i c s g pc G0).s.modGroup g f))) g :=
  ⟨rfl, fun _ hk => (modAt_get_ne _ _ hk.symm).trans ((modAt_get_ne _ _ hk.symm).trans
    ((modAt_get_ne _ _ hk.symm).trans (modAt_get_ne _ _ hk.symm)))⟩

/-! ## The link pair -/

theorem mem_link {x : Ctx} {d : Nat} {w : RegWrite} : w ∈ x.link d ↔
    (∃ l ∈ x.part, w = .v d l (x.next.setWidth 32)) ∨ w = .fld d 0#16 ∨ (∃ k ∈ blocksOf x.frag, w = .exp d k 0#8) ∨
    (∃ l ∈ x.part, w = .v (d + 1) l ((x.next >>> 32).setWidth 32)) ∨ w = .fld (d + 1) 0#16 ∨ ∃ k ∈ blocksOf x.frag, w = .exp (d + 1) k 0#8 := by
  simp [Ctx.link, Ctx.vres, plainTag, eq_comm]

theorem vreg?_of_mem_link {x : Ctx} {d : Nat} {w : RegWrite} (h : w ∈ x.link d) : w.vreg? = some d ∨ w.vreg? = some (d + 1) := by
  rcases mem_link.1 h with ⟨l, -, rfl⟩ | rfl | ⟨k, -, rfl⟩ | ⟨l, -, rfl⟩ | rfl | ⟨k, -, rfl⟩ <;> simp [RegWrite.vreg?]

/-- A branch leaves in its registers what its link writes. -/
theorem linkWrites_vector (x : Ctx) (link : Option Nat) : ∀ w ∈ linkWrites x link, w.vreg?.isSome := by
  cases link with
  | none => simp [linkWrites]
  | some d => exact fun w hw => by rcases vreg?_of_mem_link hw with e | e <;> simp [e]

section Taken

variable {i : Instr} {c : Ctl} {s : State} {g : Nat} {pc : Word} {G0 : Group} {dst : Ctx → List (Nat × Word)} {link : Option Nat}

/-- The lanes of a branch stand in rising order, in its fragment. -/
theorem transfer_lanes (hr : transferRule i = some (dst, link)) (hc : i.ctl? = some c) (h : Issues i c s g pc G0) :
    ((dst (ctxAt i c s g pc G0)).Pairwise fun p q => p.1 < q.1) ∧ ∀ p ∈ dst (ctxAt i c s g pc G0), p.1 ∈ G0.fragment pc := by
  obtain ⟨⟨ls, t, hts, hsub⟩, -⟩ := transfer_branches hr hc h rfl
  rw [ctxAt_frag] at hsub
  rw [hts]
  refine ⟨List.pairwise_map.2 ((fragment_sorted G0 pc).sublist hsub), fun p hp => ?_⟩
  obtain ⟨l, hl, rfl⟩ := List.mem_map.1 hp
  exact hsub.subset hl

/-- A branch whose targets can be fetched is taken. -/
theorem transfer_jumps (hr : transferRule i = some (dst, link)) (hc : i.ctl? = some c) (h : Issues i c s g pc G0) {x : Ctx}
    (hx : x = ctxAt i c s g pc G0) (hok : ∀ p ∈ dst x, Fetchable p.2) :
    Answers i c s g pc G0 (.jump (x.s.modGroup g fun G => G.branched x.frag x.next (dst x) (linkWrites x link))) := by
  obtain ⟨-, ha⟩ := transfer_branches hr hc h hx
  rw [Ctx.branch_eq (branchFault_none hok)] at ha
  subst hx
  exact ha

theorem transfer_group (hr : transferRule i = some (dst, link)) (hc : i.ctl? = some c) (h : Issues i c s g pc G0) {x : Ctx}
    (hx : x = ctxAt i c s g pc G0) (hok : ∀ p ∈ dst x, Fetchable p.2) :
    ∃ t H, exec i s = .next t ∧ OnlyGroup s t g ∧ t.groups[g]? = some H ∧
      SameRegisters ((readGroup c G0).branched x.frag x.next (dst x) (linkWrites x link)) H ∧
      ∀ l y, ((readGroup c G0).branched x.frag x.next (dst x) (linkWrites x link)).lanes[l]? = some y →
        ∃ y', H.lanes[l]? = some y' ∧ MovedTo H l y y' y.pc y.st := by
  have hbranched : (x.s.modGroup g fun G => G.branched x.frag x.next (dst x) (linkWrites x link)).groups[g]? =
      some ((readGroup c G0).branched x.frag x.next (dst x) (linkWrites x link)) := by
    rw [State.modGroup_groups, modAt_get_self, hx, ctxAt_group i h.group]
    rfl
  obtain ⟨H, hH, hregs, hlanes⟩ := issued_jump_group i c s pc G0 hbranched
  exact ⟨_, H, transfer_jumps hr hc h hx hok, hx ▸ onlyGroup_issued_jump i c s g pc G0 _, hH, hregs, hlanes⟩

end Taken

theorem readGroup_gw (c : Ctl) (G0 : Group) : (readGroup c G0).gw = G0.gw := by
  obtain ⟨⟨_, _, _, _, _, _, _, _, he⟩, -⟩ := rewritten_readGroup c G0
  rw [he]

/-- `call` and `callx` in the registers: the link pair, in the participating lanes, and its tag. -/
theorem putAll_link {x : Ctx} {d : Nat} {G : Group} (hpart : ∀ l ∈ x.part, l < G.gw) (hd : d + 1 < G.v.length)
    (hw : ∀ r ∈ G.v, r.lanes.length = G.gw) :
    (∀ r, r ≠ d → r ≠ d + 1 → (G.putAll (x.link d)).v[r]? = G.v[r]?) ∧
    (∀ l ∈ x.part, (vectorElement d l).read (G.putAll (x.link d)) = some (x.next.setWidth 32) ∧
      (vectorElement (d + 1) l).read (G.putAll (x.link d)) = some ((x.next >>> 32).setWidth 32)) ∧
    (∀ l, l ∉ x.part → ∀ r : Nat, (vectorElement r l).read (G.putAll (x.link d)) = (vectorElement r l).read G) ∧
    (∀ r, r = d ∨ r = d + 1 → (fieldElement r).read (G.putAll (x.link d)) = some 0#16) := by
  have hsome : ∀ r, r ≤ d + 1 → ∀ l ∈ x.part, ((vectorElement r l).read G).isSome := fun r hr l hl => by
    have hlen : r < G.v.length := by omega
    have hlane : l < (G.v[r]'hlen).lanes.length := (hw _ (List.getElem_mem hlen)).symm ▸ hpart l hl
    simp [vectorElement, hlen, hlane]
  refine ⟨fun r h0 h1 => Group.putAll_v_of_ne G fun w hm => ?_, fun l hl => ⟨?_, ?_⟩, fun l hl r => ?_, fun r hr => ?_⟩
  · rcases vreg?_of_mem_link hm with e | e <;> simp [e, h0.symm, h1.symm]
  · refine (vectorElement d l).read_putAll_of_mem (hsome d (by omega) l hl) (mem_link.2 (.inl ⟨l, hl, rfl⟩)) fun y hy => ?_
    simpa [vectorElement, hl] using mem_link.1 hy
  · refine (vectorElement (d + 1) l).read_putAll_of_mem (hsome _ le_rfl l hl) (mem_link.2 (.inr (.inr (.inr (.inl ⟨l, hl, rfl⟩))))) fun y hy => ?_
    simpa [vectorElement, hl] using mem_link.1 hy
  · refine (vectorElement r l).read_putAll_other fun y hy => hl ?_
    have hlanes : (∃ l' ∈ x.part, r = d ∧ l = l') ∨ ∃ l' ∈ x.part, r = d + 1 ∧ l = l' := by
      rcases mem_link.1 hy with ⟨l', h', e⟩ | e | ⟨k, -, e⟩ | ⟨l', h', e⟩ | e | ⟨k, -, e⟩ <;> cases e
      · exact .inl ⟨_, h', rfl, rfl⟩
      · exact .inr ⟨_, h', rfl, rfl⟩
    rcases hlanes with ⟨l', h', -, rfl⟩ | ⟨l', h', -, rfl⟩ <;> exact h'
  · have hlen : r < G.v.length := by omega
    refine (fieldElement r).read_putAll_of_mem (by simp [fieldElement, hlen]) (mem_link.2 ?_) fun y hy => ?_
    · rcases hr with rfl | rfl
      · exact .inr (.inl rfl)
      · exact .inr (.inr (.inr (.inr (.inl rfl))))
    · simpa [fieldElement, ← or_and_right, hr] using mem_link.1 hy

/-- Settles O29: `transfer_branches` gives the lanes that a branch sends, `Group.branched` what becomes of its group, `branchFault` the
fault of a target. -/
theorem branches : Obligations.Branches := by
  refine ⟨fun i c s g pc G0 dst link hr hc h hok => ?_, fun i c s g pc G0 dst d hr hc h hok hd hw => ?_,
    fun i c s g pc G0 dst link hr hc h => ?_⟩
  · obtain ⟨hsorted, hfrag⟩ := transfer_lanes hr hc h
    obtain ⟨t, H, ht, honly, hH, hregs, hlanes⟩ := transfer_group hr hc h rfl hok
    refine ⟨t, H, ht, honly, hH, ?_, fun l y hy => ?_⟩
    · rintro rfl
      obtain ⟨ls, hls⟩ := Group.branched_nil_rest (G := readGroup c G0) (frag := (ctxAt i c s g pc G0).frag)
        (next := (ctxAt i c s g pc G0).next) (ts := dst (ctxAt i c s g pc G0))
      refine SameRegisters.trans ?_ hregs
      rw [linkWrites, hls]
      simp [SameRegisters]
    · obtain ⟨y', hy', hm⟩ := hlanes l _
        ((Group.branched_lane hsorted hfrag (linkWrites_vector _ link) l).trans (by rw [hy]; rfl))
      exact ⟨y', hy', hm.of_eq rfl rfl⟩
  · obtain ⟨t, H, ht, -, hH, hregs, -⟩ := transfer_group hr hc h rfl hok
    obtain ⟨ls, v, fs, hG, hv⟩ := Group.branched_rest (G := readGroup c G0) (frag := (ctxAt i c s g pc G0).frag)
      (next := (ctxAt i c s g pc G0).next) (ts := dst (ctxAt i c s g pc G0)) (linkWrites_vector (ctxAt i c s g pc G0) (some d))
    rw [hG] at hregs
    obtain ⟨hHv, hHs, hHb, hHd, hHu, hHw, -⟩ := hregs
    obtain ⟨hother, hpair, hlane, htag⟩ := putAll_link (x := ctxAt i c s g pc G0) (d := d)
      (G := ({ readGroup c G0 with fixed := fs, ftoks := (readGroup c G0).ftoks } : Group))
      (fun l hl => (lt_gw_of_mem_participants hl).trans_eq (readGroup_gw c G0).symm) hd hw
    have hregs : H.v = (({ readGroup c G0 with fixed := fs, ftoks := (readGroup c G0).ftoks } : Group).putAll
      ((ctxAt i c s g pc G0).link d)).v := hHv.trans hv
    simp only [vectorElement, fieldElement, ← hregs] at hother hpair hlane htag
    exact ⟨t, H, ht, hH, hHs, hHb, hHd, hHu, hHw, hother, hpair, hlane, htag⟩
  · obtain ⟨hsorted, -⟩ := transfer_lanes hr hc h
    obtain ⟨-, ha⟩ := transfer_branches hr hc h rfl
    refine ⟨fun p hp hbad hfirst => ?_, fun p hp hbad hall hfirst => ?_⟩
    · rw [Ctx.branch_fault (branchFault_noncanon hsorted hp hbad hfirst)] at ha
      exact ha
    · rw [Ctx.branch_fault (branchFault_boundary hsorted hp hbad hall hfirst)] at ha
      exact ha

end Sys2Proof

/-! # spawn and joinc (01 R39-R42; 07 R193-R195; 19 R397-R402) -/

namespace Sys2Proof

open Machine Host

/-! ## The object (07 R193) -/

section Object

variable {r n : Nat} {o : Int}

theorem objectCheck_ok (h : ObjectOk r o n) (hn : 0 < n) : objectCheck r o n = .ok (recAddr r o.toNat) := by
  obtain ⟨hrec, hin, hal, hend⟩ := h
  have hrange : rangeFault 0 (recAddr r o.toNat) (recAddr r o.toNat + n - 1) = none := by
    rw [rangeFault, if_neg (by omega), if_neg (by omega)]
  simp [objectCheck, hrec, hin, hal, hrange]

theorem objectCheck_record (h : recBad r [1] = true) : objectCheck r o n = .error (0x02, 0) := by
  rw [objectCheck, if_pos h]

theorem objectCheck_bounds (h : recBad r [1] = false) (hin : recIn r o n = false) : objectCheck r o n = .error (0x10, 0) := by
  simp [objectCheck, h, hin]

theorem objectCheck_boundary (h : recBad r [1] = false) (hin : recIn r o n = true) (hal : recAddr r o.toNat % n ≠ 0) :
    objectCheck r o n = .error (0x13, recAddr r o.toNat) := by
  simp [objectCheck, h, hin, hal]

end Object

/-- A fault of the object is the word's. -/
theorem object_traps {i : Instr} {n : Nat} {c : Ctl} {f : F64} {s : State} {g : Nat} {pc : Word} {G0 : Group}
    (hi : i = .spawn c f ∧ n = 64 ∨ i = .joinc c f ∧ n = 16) (h : Performs i c s g pc G0) {code va : Nat}
    (hbad : objectCheck ((ctxAt i c s g pc G0).breg f.a).toNat ((ctxAt i c s g pc G0).sreg f.b).toInt n = .error (code, va)) :
    Traps i c s g pc G0 code 0 va 0 := by
  rcases hi with ⟨rfl, rfl⟩ | ⟨rfl, rfl⟩
  · refine answers_of_groupWide (r := .trap _ code 0 va 0) h (rfl : execSpawn c f s = _) ?_
    dsimp only
    rw [hbad]
  · refine answers_of_groupWide (r := .trap _ code 0 va 0) h (rfl : execJoinc c f s = _) ?_
    dsimp only
    rw [hbad]

/-! ## Translation (10 R249) -/

section Access

variable {x : Ctx} {how : How} {reqs : List (Nat × Nat)} {s' : State}

theorem access_fault {code lane va info : Nat} (h : x.s.xlateAll x.g x.G x.ten x.pc how reqs = .fault s' code lane va info)
    (k : List XLine → Res) : x.access how reqs k = .trap s' code lane va info := by rw [Ctx.access, h]

theorem access_wait {w : Wait} (h : x.s.xlateAll x.g x.G x.ten x.pc how reqs = .wait s' w) (k : List XLine → Res) :
    x.access how reqs k = .stall s' w true := by rw [Ctx.access, h]

end Access

/-! ## Release (10 R267) -/

section Release

variable {x : Ctx} {scope : Nat}

theorem state_of_relCheck_dead {s s' : State} {g p : Nat} (h : s.relCheck g scope = .dead s' p) : s' = s := by
  unfold State.relCheck State.relUpTo at h
  dsimp only at h
  split at h
  · split at h <;> cases h
    rfl
  · split at h <;> cases h

theorem released_wait (h : x.s.relCheck x.g scope = .wait) (k : Res) : x.released scope k = .stall x.s .acks true := by
  rw [Ctx.released, h]

theorem released_dead {s' : State} {p : Nat} (h : x.s.relCheck x.g scope = .dead s' p) (k : Res) :
    x.released scope k = .trap x.s 0x33 0 0 p := by
  obtain rfl := state_of_relCheck_dead h
  rw [Ctx.released, h]

theorem releaseFinds_of_scope (hs : scope ≠ 0) (un : Bool) : releaseFinds x scope un = if un = true then .ok else x.s.relCheck x.g scope := by
  rw [releaseFinds, if_neg hs]

theorem relThen_of_scope (hs : scope ≠ 0) (un : Bool) (k : Res) : x.relThen scope un k = if un = true then k else x.released scope k := by
  have hne : (scope == 0) = false := beq_false_of_ne hs
  simp [Ctx.relThen, hne]

theorem relThen_wait (hs : scope ≠ 0) {un : Bool} (h : releaseFinds x scope un = .wait) (k : Res) :
    x.relThen scope un k = .stall x.s .acks true := by
  rw [releaseFinds_of_scope hs] at h
  rw [relThen_of_scope hs]
  cases un with
  | true => cases h
  | false => exact released_wait h k

theorem relThen_dead (hs : scope ≠ 0) {un : Bool} {s' : State} {p : Nat} (h : releaseFinds x scope un = .dead s' p) (k : Res) :
    x.relThen scope un k = .trap x.s 0x33 0 0 p := by
  rw [releaseFinds_of_scope hs] at h
  rw [relThen_of_scope hs]
  cases un with
  | true => cases h
  | false => exact released_dead h k

/-- A load or a store is open that a release of every access of its group waits for. -/
def OpenAccess (G : Group) : Prop := ∃ o ∈ G.outst, (o.isLoad = true ∨ o.isStore = true) ∧ o.kind.isWait = false

theorem openAccess_iff (G : Group) : (G.outst.any fun o => (o.isLoad || o.isStore) && !o.kind.isWait) = true ↔ OpenAccess G := by
  simp [OpenAccess]

theorem releasedAll_waits (h : OpenAccess x.G ∨ x.s.relCheck x.g scope = .wait) (k : Res) :
    x.releasedAll scope k = .stall x.s .acks true := by
  unfold Ctx.releasedAll
  split
  · rfl
  · next hno => exact released_wait (h.resolve_left fun e => hno ((openAccess_iff x.G).2 e)) k

theorem releasedAll_of_none_open (h : ¬OpenAccess x.G) (k : Res) : x.releasedAll scope k = x.released scope k :=
  if_neg fun e => h ((openAccess_iff x.G).1 e)

theorem released_ok (h : x.s.relCheck x.g scope = .ok) (k : Res) : x.released scope k = k := by rw [Ctx.released, h]

end Release

/-! ## spawn (07 R193) -/

/-- The record waits, last in its tenancy's list, and its word is held. -/
def spawnWaits (x : Ctx) (va : Nat) (s : State) (bs : Option (List Byte)) : Res :=
  .hold (s.modTen x.ten fun t => { t with joinWait := t.joinWait ++ [⟨va, x.tid, some x.g, some x.G.seq, bs⟩] }) (x.holding [] .spawn)

/-- What `spawn` answers with what Sward has made of its record. -/
def spawnTaken (x : Ctx) (va : Nat) : Taken → Res
  | .accepted s => .go s
  | .full s bs => spawnWaits x va s (some bs)
  | .reading s => spawnWaits x va s none

/-- `spawn` behind its release. -/
def spawnRecord (x : Ctx) (va : Nat) : Res :=
  if (x.s.ten x.ten).joinWait.any fun j => j.g == some x.g then spawnWaits x va x.s none
  else spawnTaken x va (x.s.takeRecord x.ten va x.tid .spawn none)

section Spawn

variable {c : Ctl} {f : F64} {s : State} {g : Nat} {pc : Word} {G0 : Group} {x : Ctx}

theorem spawn_answers (h : Performs (.spawn c f) c s g pc G0) (hx : x = ctxAt (.spawn c f) c s g pc G0)
    (hok : ObjectOk (x.breg f.a).toNat (x.sreg f.b).toInt 64) {va : Nat} (hva : va = recAddr (x.breg f.a).toNat (x.sreg f.b).toInt.toNat) :
    Answers (.spawn c f) c s g pc G0 (x.access .load [(0, va)] fun _ =>
      if x.G.clear = false then .stall x.s .other true else x.releasedAll 4 (spawnRecord x va)) := by
  refine answers_of_groupWide h (rfl : execSpawn c f s = _) ?_
  rw [← hx]
  dsimp only
  rw [objectCheck_ok hok (by decide), ← hva]
  dsimp only
  refine congrArg _ (funext fun _ => if_congr (by simp) rfl (congrArg _ ?_))
  unfold spawnRecord
  refine if_congr Iff.rfl rfl ?_
  cases x.s.takeRecord x.ten va x.tid .spawn none <;> rfl

theorem spawnWaits_eq (hx : x = ctxAt (.spawn c f) c s g pc G0)
    (va : Nat) (s' : State) (bs : Option (List Byte)) : spawnWaits x va s' bs =
      .hold (s'.modTen x.ten fun t => { t with joinWait := t.joinWait ++ [⟨va, x.tid, some g, some G0.seq, bs⟩] })
        { x.oword [] .spawn with held := x.frag } := by
  have hg : x.g = g := by rw [hx]; rfl
  have hseq : x.G.seq = G0.seq := by rw [hx]; exact (rewritten_readGroup c G0).seq
  rw [spawnWaits, hg, hseq]
  rfl

theorem spawnRecord_of_earlier {va : Nat} (h : ∃ j ∈ (x.s.ten x.ten).joinWait, j.g = some x.g) :
    spawnRecord x va = spawnWaits x va x.s none := if_pos (by simpa using h)

theorem spawnRecord_of_first {va : Nat} (h : ∀ j ∈ (x.s.ten x.ten).joinWait, j.g ≠ some x.g) :
    spawnRecord x va = spawnTaken x va (x.s.takeRecord x.ten va x.tid .spawn none) := if_neg (by simpa using h)

end Spawn

/-! ## Sward takes a record (19 R397, R499) -/

section Taking

variable {s s' : State} {ten va team : Nat} {origin : Origin} {bs : List Byte}

theorem takeRecord_accepted (h : s.submit ten bs va origin (va % 64 == 0) = .done s' ∨ s.submit ten bs va origin (va % 64 == 0) = .dropped s') :
    s.takeRecord ten va team origin (some bs) = .accepted s' := by
  unfold State.takeRecord
  rcases h with h | h <;> simp only [h]

theorem takeRecord_full (h : s.submit ten bs va origin (va % 64 == 0) = .full) :
    s.takeRecord ten va team origin (some bs) = .full s bs := by
  unfold State.takeRecord
  simp only [h]

theorem takeRecord_of_swRecord (h : s.swRecord ten (joinWho ten) va = .ok (bs, s')) :
    s.takeRecord ten va team origin none = s'.takeRecord ten va team origin (some bs) := by
  unfold State.takeRecord
  simp only [h]

theorem takeRecord_of_fault {code a : Nat} (h : s.swRecord ten (joinWho ten) va = .error (.fault s' code a)) :
    s.takeRecord ten va team origin none =
      .accepted (s'.note ten code 2 va (s'.team team).idx (s'.launch (s'.team team).launch).crva (s'.team team).slot) := by
  unfold State.takeRecord
  simp only [h]

theorem takeRecord_of_wait (h : s.swRecord ten (joinWho ten) va = .error (.wait s')) :
    s.takeRecord ten va team origin none = .reading s' := by
  unfold State.takeRecord
  simp only [h]

end Taking

/-! ## The bytes of a record -/

/-- A record lies in one line, or in two. -/
theorem linePieces_record (va : Nat) : linePieces va 64 =
    if va % 128 ≤ 64 then [(va, 64)] else [(va, 128 - va % 128), (va + (128 - va % 128), 64 - (128 - va % 128))] := by
  have hfirst : va / 128 * 128 ≤ va := Nat.div_mul_le_self va 128
  have hnext : (va / 128 + 1) * 128 = va + (128 - va % 128) := by omega
  rw [linePieces, if_neg (by decide)]
  split
  · next h =>
    have hlines : (va + 64 - 1) / 128 - va / 128 + 1 = 1 := by omega
    have hend : va + 64 ≤ va + (128 - va % 128) := by omega
    rw [hlines, show List.range 1 = [0] from rfl, List.map_singleton]
    dsimp only
    rw [Nat.add_zero, hnext, max_eq_left hfirst, min_eq_left hend, Nat.add_sub_cancel_left]
  · next h =>
    have hlines : (va + 64 - 1) / 128 - va / 128 + 1 = 2 := by omega
    have hlast : va + (128 - va % 128) ≤ va + 64 := by omega
    have hend : va + 64 ≤ (va / 128 + 1 + 1) * 128 := by omega
    rw [hlines, show List.range 2 = [0, 1] from rfl, List.map_cons, List.map_singleton]
    dsimp only
    rw [Nat.add_zero, hnext, max_eq_left hfirst, min_eq_right hlast, max_eq_right (Nat.le_add_right _ _), min_eq_left hend,
      Nat.add_sub_cancel_left, Nat.add_sub_add_left]

/-- A line of this device's memory that Sward has read counts as touched (22 R462). -/
def lineRead (p : XLine × State) : State := if p.1.own = .here then p.2.touch p.1.pa 0 false else p.2

section Reading

variable {s : State} {ten who va : Nat}

theorem swRead_of_line (n : Nat) {p : XLine × State} (h : s.swLine ten who va true .load = .ok p) (hp : ∀ q, p.1.own ≠ .peer q) :
    s.swRead ten who va n = .ok (p.2.homeRead p.1.own p.1.pa n, lineRead p) := by
  obtain ⟨l, s'⟩ := p
  rw [State.swRead, h, lineRead]
  dsimp only at hp ⊢
  cases hown : l.own with
  | here => rfl
  | host => rfl
  | peer q => exact absurd hown (hp q)

theorem swRead_of_error (n : Nat) {e : SFail} (h : s.swLine ten who va true .load = .error e) : s.swRead ten who va n = .error e := by
  rw [State.swRead, h]

theorem swRecord_of_one_line (hva : va % 128 ≤ 64) {bs : List Byte} {s' : State} (h : s.swRead ten who va 64 = .ok (bs, s')) :
    s.swRecord ten who va = .ok (bs, s'.forget .swLoad who) := by
  simp [State.swRecord, linePieces_record, hva, h, Except.map, bind, Except.bind, pure, Except.pure]

theorem swRecord_of_two_lines (hva : 64 < va % 128) {bs bs' : List Byte} {s1 s2 : State}
    (h1 : s.swRead ten who va (128 - va % 128) = .ok (bs, s1))
    (h2 : s1.swRead ten who (va + (128 - va % 128)) (64 - (128 - va % 128)) = .ok (bs', s2)) :
    s.swRecord ten who va = .ok (bs ++ bs', s2.forget .swLoad who) := by
  simp [State.swRecord, linePieces_record, hva.not_ge, h1, h2, Except.map, bind, Except.bind, pure, Except.pure]

theorem swRecord_of_error {e : SFail} (h : s.swLine ten who va true .load = .error e) : s.swRecord ten who va = .error e := by
  by_cases hva : va % 128 ≤ 64 <;>
    simp [State.swRecord, linePieces_record, hva, swRead_of_error _ h, Except.map, bind, Except.bind]

end Reading

/-! ## COUNT (01 R40, R41) -/

/-- Bytes that agree read alike. -/
theorem Machine.Cells.readN_congr {m m' : List Cell} {a n : Nat} (h : ∀ b, a ≤ b → b < a + n → Cells.read m b = Cells.read m' b) :
    Cells.readN m a n = Cells.readN m' a n := by
  induction n generalizing a with
  | zero => rfl
  | succ n ih => rw [Cells.readN, Cells.readN, h a le_rfl (by omega), ih fun b hb hb' => h b (by omega) (by omega)]

@[simp] theorem Machine.State.mended_tens (s : State) (pa n : Nat) : (s.mended pa n).tens = s.tens := by unfold State.mended; split <;> rfl

/-- An atomic on this device's memory changes the bytes of its word. -/
theorem atomHome_here (s : State) (core : Option Nat) (pa n : Nat) (new : Nat → Nat) :
    (s.atomHome core .here pa n new).1 = Cells.readLE s.mem pa n ∧
    (s.atomHome core .here pa n new).2.mem = Cells.writeN s.mem pa (leBytes n (new (Cells.readLE s.mem pa n))) ∧
    (s.atomHome core .here pa n new).2.groups = s.groups ∧ (s.atomHome core .here pa n new).2.tens = s.tens := by
  cases core <;> simp [State.atomHome, State.homeRead, State.homeWrite, State.touch, State.l1Atomic, Cells.readLE]

/-- What `joinc` does to the memory that holds its object. -/
theorem joinWord_here (s : State) (core : Option Nat) (pa : Nat) (hwf : Cells.wf s.mem = true) :
    let w := s.joinWord core .here pa
    let old := Cells.readLE s.mem pa 4
    w.1 = old ∧ w.2.1 = (if old = 1 then some (Cells.readLE s.mem (pa + 8) 8) else none) ∧ w.2.2.groups = s.groups ∧ w.2.2.tens = s.tens ∧
    Cells.readLE w.2.2.mem pa 4 = old - 1 ∧ (∀ b : Nat, (b < pa ∨ pa + 4 ≤ b) → Cells.read w.2.2.mem b = Cells.read s.mem b) := by
  intro w old
  obtain ⟨hold, hmem, hgroups, htens⟩ := atomHome_here s core pa 4 fun old => if old == 0 then 0 else old - 1
  have hnew : (if old == 0 then 0 else old - 1) = old - 1 := by by_cases h : old = 0 <;> simp [h]
  have hmem' : w.2.2.mem = Cells.writeN s.mem pa (leBytes 4 (old - 1)) := hmem.trans (by rw [hnew])
  have hother : ∀ b : Nat, (b < pa ∨ pa + 4 ≤ b) → Cells.read w.2.2.mem b = Cells.read s.mem b := fun b hb => by
    rw [hmem', Cells.read_writeN_outside hwf (by rwa [leBytes_length])]
  refine ⟨hold, ?_, hgroups, htens, ?_, hother⟩
  · have hcr : Cells.readN w.2.2.mem (pa + 8) 8 = Cells.readN s.mem (pa + 8) 8 :=
      Cells.readN_congr fun b hb _ => hother b (.inr (by omega))
    have hw : w.2.1 = if w.1 == 1 then some (leNat (Cells.readN w.2.2.mem (pa + 8) 8)) else none := rfl
    rw [hw, hcr, show w.1 = old from hold]
    simp [Cells.readLE]
  · have hlt : old < 2 ^ (8 * 4) := Cells.readLE_lt _ _ _
    have hread := Cells.readN_writeN hwf pa (leBytes 4 (old - 1))
    rw [leBytes_length] at hread
    rw [hmem', Cells.readLE, hread, leNat_leBytes]
    exact Nat.mod_eq_of_lt (by omega)

/-! ## joinc (07 R194, R195) -/

/-- The word of a `joinc` that has been performed: its old COUNT is owed, its token is free. -/
def joincWord (x : Ctx) (f : F64) (l : XLine) (old : Nat) : OWord :=
  { x.oword [.s f.d.toNat] (.owed [.s f.d.toNat (BitVec.ofNat 64 old)]) with
    acq := if l.kind = .un then 0 else 4, so := decide (l.kind = .so), tok := none }

/-- What `joinc` has performed, with the record that it hands over. -/
def joincDone (x : Ctx) (f : F64) (l : XLine) (w : Nat × Option Nat × State) : Res :=
  .out (match w.2.1 with | some cr => w.2.2.joinEnqueue x.ten cr x.tid (some x.g) | none => w.2.2) (joincWord x f l w.1)

/-- `joinc` behind its release. -/
def joincPerformed (x : Ctx) (f : F64) (l : XLine) (va : Nat) : Res :=
  let a := l.acc 0 va 16
  if l.own = .here ∧ x.s.poisoned l.pa = true then .out x.s (x.oword [.s f.d.toNat] (.bad 0 va))
  else if isPeer a then
    x.outWord { x.oword [.s f.d.toNat] (.fwdJoin a f.d.toNat) with
      acq := if l.kind = .un then 0 else 4, isLoad := true, unOnly := decide (l.kind = .un), so := decide (l.kind = .so) }
  else joincDone x f l (x.s.joinWord (some x.G.core) l.own l.pa)

theorem mkAccs_single (l : XLine) (va : Nat) : mkAccs [(0, va)] [l] 16 (fun _ => []) = [l.acc 0 va 16] := rfl

theorem firstPoison_single {s : State} {l : XLine} {va : Nat} : firstPoison s [l.acc 0 va 16] =
    if l.own = .here ∧ s.poisoned l.pa = true then some (l.acc 0 va 16) else none := by
  have hown : (l.acc 0 va 16).own = l.own := rfl
  have hpa : (l.acc 0 va 16).pa = l.pa := rfl
  cases ho : l.own <;> cases hp : s.poisoned l.pa <;> simp [firstPoison, hown, hpa, ho, hp]

theorem outWord_eq {x : Ctx} {o : OWord} {as : List Acc} (h : o.accs = as) : x.outWord o = outOnce x as o := by
  subst h
  unfold Ctx.outWord outOnce
  cases x.fits o.accs <;> rfl

section Joinc

variable {c : Ctl} {f : F64} {s : State} {g : Nat} {pc : Word} {G0 : Group} {x : Ctx} {l : XLine} {va : Nat}

/-- `joinc` whose object passes its checks and translates. -/
theorem joinc_answers (h : Performs (.joinc c f) c s g pc G0) (hx : x = ctxAt (.joinc c f) c s g pc G0)
    (hok : ObjectOk (x.breg f.a).toNat (x.sreg f.b).toInt 16) (hva : va = recAddr (x.breg f.a).toNat (x.sreg f.b).toInt.toNat)
    (hls : x.s.xlateAll g x.G x.ten pc (.atomic false) [(0, va)] = .ok [l]) (hso : SoFree x [l]) :
    Answers (.joinc c f) c s g pc G0 (
      if x.G.clear = false ∨ x.G.touches [l.acc 0 va 16] = true ∨ x.fits [l.acc 0 va 16] = false then .stall x.s .other true
      else x.relThen 4 (decide (l.kind = .un)) (joincPerformed x f l va)) := by
  have hlines : x.s.xlateAll x.g x.G x.ten x.pc (.atomic false) [(0, va)] = .ok [l] := by
    rw [← hls, show x.g = g by rw [hx]; rfl, show x.pc = pc by rw [hx]; rfl]
  refine answers_of_groupWide h (rfl : execJoinc c f s = _) ?_
  rw [← hx]
  dsimp only
  rw [objectCheck_ok hok (by decide), ← hva]
  dsimp only
  rw [access_eq hlines hso, mkAccs_single]
  have hun : unAll [l.acc 0 va 16] = decide (l.kind = .un) := by simp [unAll, XLine.acc, beq_eq_decide]
  have hsoAny : soAny [l.acc 0 va 16] = decide (l.kind = .so) := by simp [soAny, XLine.acc, beq_eq_decide]
  rw [hun, hsoAny, firstPoison_single]
  refine if_congr (by simp [or_assoc]) rfl (congrArg _ ?_)
  unfold joincPerformed
  by_cases hp : l.own = .here ∧ x.s.poisoned l.pa = true
  · rw [if_pos hp, if_pos hp]
    rfl
  · rw [if_neg hp, if_neg hp]
    simp only [decide_eq_true_eq]
    rfl

theorem joincPerformed_poisoned (h : l.own = .here) (hp : x.s.poisoned l.pa = true) :
    joincPerformed x f l va = .out x.s (x.oword [.s f.d.toNat] (.bad 0 va)) := if_pos ⟨h, hp⟩

theorem joincPerformed_peer {p : Nat} (h : l.own = .peer p) : joincPerformed x f l va = outOnce x [l.acc 0 va 16]
    { x.oword [.s f.d.toNat] (.fwdJoin (l.acc 0 va 16) f.d.toNat) with
      acq := if l.kind = .un then 0 else 4, isLoad := true, unOnly := decide (l.kind = .un), so := decide (l.kind = .so) } := by
  have hpeer : isPeer (l.acc 0 va 16) = true := by simp [isPeer, XLine.acc, h]
  unfold joincPerformed
  rw [if_neg (by simp [h]), if_pos hpeer]
  exact outWord_eq rfl

theorem joincPerformed_home (h : ∀ p, l.own ≠ .peer p) (hp : l.own = .here → x.s.poisoned l.pa = false) :
    joincPerformed x f l va = joincDone x f l (x.s.joinWord (some x.G.core) l.own l.pa) := by
  have hpeer : isPeer (l.acc 0 va 16) = false := by
    cases ho : l.own with
    | peer p => exact absurd ho (h p)
    | here | host => simp [isPeer, XLine.acc, ho]
  unfold joincPerformed
  rw [if_neg fun ⟨e, hbad⟩ => by simp [hp e] at hbad, hpeer]
  rfl

end Joinc

/-- Settles O47: `spawn_answers` and `joinc_answers` give what the words answer with once their object is checked, `takeRecord_of_swRecord` what
becomes of a record, `joinWord_here` what becomes of COUNT. -/
theorem spawnAndJoin : Obligations.SpawnAndJoin := by
  refine ⟨?_, ?_, ?_, ?_, ?_, ?_⟩
  · intro c f s g pc G0 h x r o va found opened taken later hok
    have hans := spawn_answers (x := x) (va := va) h rfl hok rfl
    refine ⟨fun s' code lane a info hf => ?_, fun s' w hw => ?_, fun l hl hso => ?_⟩
    · rw [access_fault hf] at hans
      exact hans
    · rw [access_wait hw] at hans
      exact hans
    rw [access_eq hl hso] at hans
    refine ⟨fun hc => ?_, fun hc hwait => ?_, fun s' p hc ho hd => ?_, fun hc ho hrel => ?_⟩
    · rw [if_pos hc] at hans
      exact hans
    all_goals rw [if_neg (by simp [hc])] at hans
    · rw [releasedAll_waits hwait] at hans
      exact hans
    · rw [releasedAll_of_none_open ho, released_dead hd] at hans
      exact hans
    · rw [releasedAll_of_none_open ho, released_ok hrel] at hans
      have hwaits := fun s' bs => spawnWaits_eq (x := x) rfl va s' bs
      refine ⟨fun hj => ?_, fun hj => ?_⟩
      · rw [spawnRecord_of_earlier hj, hwaits] at hans
        exact hans
      · rw [spawnRecord_of_first hj] at hans
        refine ⟨fun s' e => ?_, fun s' bs e => ?_, fun s' e => ?_⟩
        · rw [show x.s.takeRecord x.ten va x.tid .spawn none = _ from e] at hans
          exact hans
        · rw [show x.s.takeRecord x.ten va x.tid .spawn none = _ from e, spawnTaken, hwaits] at hans
          exact hans
        · rw [show x.s.takeRecord x.ten va x.tid .spawn none = _ from e, spawnTaken, hwaits] at hans
          exact hans
  · exact fun s s' ten va team origin bs => ⟨takeRecord_accepted, takeRecord_full⟩
  · intro s ten va team origin who line got read
    refine ⟨fun hva p h hp => ?_, ?_, fun s' code a h => ?_, fun s' h => ?_⟩
    · exact takeRecord_of_swRecord (swRecord_of_one_line hva (swRead_of_line 64 h hp))
    · intro hva p1 p2 n h1 hp1 h2 hp2
      exact takeRecord_of_swRecord (swRecord_of_two_lines hva (swRead_of_line _ h1 hp1) (swRead_of_line _ h2 hp2))
    · exact takeRecord_of_fault (swRecord_of_error h)
    · exact takeRecord_of_wait (swRecord_of_error h)
  · intro i n c f s g pc G0 hi h x r o va
    exact ⟨fun hr => object_traps hi h (objectCheck_record hr), fun hr hin => object_traps hi h (objectCheck_bounds hr hin),
      fun hr hin hal => object_traps hi h (objectCheck_boundary hr hin hal)⟩
  · intro c f s g pc G0 l h x r o va as un acq hok hl hso
    have hans := joinc_answers (x := x) (va := va) h rfl hok rfl hl hso
    refine ⟨fun hwait => ?_, fun hc ht hf => ?_⟩
    · rw [show [l.acc 0 va 16] = as from rfl, if_pos hwait] at hans
      exact hans
    rw [show [l.acc 0 va 16] = as from rfl, if_neg (by simp [hc, ht, hf])] at hans
    refine ⟨fun hw => ?_, fun s' p hd => ?_, fun hrel => ?_⟩
    · rw [relThen_wait (by decide) hw] at hans
      exact hans
    · rw [relThen_dead (by decide) hd] at hans
      exact hans
    rw [relThen_eq hrel] at hans
    refine ⟨fun ho hp => ?_, fun p a ho ha => ?_, fun ho hp => ?_⟩
    · rw [joincPerformed_poisoned ho hp] at hans
      exact hans
    · obtain rfl : l.acc 0 va 16 = a := List.head_eq_of_cons_eq ha
      rw [joincPerformed_peer ho] at hans
      exact hans
    · rw [joincPerformed_home ho hp, show x.G.core = G0.core from (rewritten_readGroup c G0).core] at hans
      refine ⟨fun e => ?_, fun cr e => ?_⟩
      · rw [joincDone, e] at hans
        exact hans
      · rw [joincDone, e] at hans
        have htid : x.tid = G0.team := (rewritten_readGroup c G0).team
        dsimp only at hans
        rw [htid] at hans
        exact hans
  · exact joinWord_here

end Sys2Proof
